-- ==== Sys2Proof/Word.lean ====
section
/-!
DEFINITION. The word types of the BQ-9 (R66): bytes, 16-bit parcels, 32-bit lane elements and 64-bit scalars.
-/

namespace Sys2Proof

/-- One byte, the location of R119. -/
abbrev Byte := BitVec 8

/-- One parcel of code (R255). -/
abbrev Parcel := BitVec 16

/-- One lane element of a vector register, or the 32 bits of a mask (R66, R283). -/
abbrev Word := BitVec 32

/-- One scalar register, or one control register (R176, R398). -/
abbrev DWord := BitVec 64

end Sys2Proof
end

