-- ==== Sys2Proof/Config.lean ====
section
/-!
DEFINITION. What the manual fixes for every part (windows, sizes, times) as plain numbers, and the free values: constants
without a body for the results that the manual leaves open (log 19).
-/

namespace Sys2Proof.Config

/-- Cycles of the arithmetic clock in one microsecond at the nominal 2.0 GHz (R4). -/
def usCycles : Nat := 2000

/-- First address of the stack window (R11). -/
def stackBase : Nat := 0xFE0000000000
/-- First address past the stack window (R11). -/
def stackEnd : Nat := 0xFE0040000000
/-- First address of the S window; the A, W and C windows follow at steps of 2^24 (R11). -/
def bufBase : Nat := 0xFF0000000000
/-- First address past the C window (R11). -/
def bufEnd : Nat := 0xFF0004000000
/-- First address past the generic space (R262). -/
def genericEnd : Nat := 0x1000000000000

/-- First within-package address past HBM (R24). -/
def hbmEnd : Nat := 0xA000000000
/-- First within-package address of the host window (R24). -/
def hostBase : Nat := 0x40000000000
/-- Size of one package's physical space (R23). -/
def packageSize : Nat := 0x80000000000

/-- Cores of the device (R3). -/
def cores : Nat := 384
/-- Wave slots of a core (R4). -/
def waveSlots : Nat := 32
/-- Group slots of a core (R196). -/
def groupSlots : Nat := 16
/-- Physical vector registers of a core, the limit of the backing count (R60, R200). -/
def physRegs : Nat := 2048
/-- Recipe-table entries of a core (R188). -/
def recipeEntries : Nat := 256
/-- Physical copy handles of a core (R105). -/
def physHandles : Nat := 64

/-- What an unlisted byte of HBM or of the host's memory reads as. DESIGN CHOICE, unsafe (log 1, log 2): the manual states
no contents of memory that nothing has written. -/
abbrev unwrittenByte : Byte := 0

/-- The SHAKE256 digests of the boot ROM (0) and the firmware (1), which the manual does not give (R441): free values (log 19). -/
opaque bootDigest : Nat → BitVec 512

/-- The SHAKE256 digest of a configuration block, given by all its fields in order (R441): a free value (log 19). -/
opaque configDigest : List Nat → BitVec 512

/-- The identity key's signature over a report (R441), which the manual does not give: a free value of the nonce, the package
number and the three digests (log 19). -/
opaque attestSignature : BitVec 256 → Nat → List (BitVec 512) → BitVec 238336

/-- Whether a fetch at a time reads the old parcel that the instruction cache holds for a physical address, where memory
holds another by now and no IFENCE has passed (R360): a free value of the address and the time (log 19). -/
opaque oldParcel : Nat → Nat → Bool

/-- The words of the event record that reports a shortfall (R221, R436), which the manual does not lay out: free values of the
time and the word (log 19). -/
opaque shortfallWord : Nat → Nat → BitVec 64

/-- The bytes at an offset of a folio slot written at a time, of the areas to which R248 gives a size and no layout (the
recipe-table entries and the withdrawn engine operations): free values of the time and the offset (log 33). -/
opaque folioByte : Nat → Nat → Byte

/-- The energy in nJ that the activity counters have metered of a group, from the start of the control interval up to a time
(R205), whose weights the manual does not give: a free value of the group and the time (log 19). -/
opaque meteredEnergy : Nat → Nat → Nat

/-- Whether a cluster passes the self-tests of bring-up (R442, R444): a free value of the cluster (log 19). -/
opaque bootTestPasses : Nat → Bool

/-- How many cycles a self-test that starts at a time lasts, and whether the unit passes it (R444): free values (log 19). -/
opaque selfTestTime : Nat → Nat
/-- Whether the unit passes a self-test that starts at a time. -/
opaque selfTestPasses : Nat → Bool

end Sys2Proof.Config
end

