-- ==== Sys2Proof/Machine/Data.lean ====
section
/-!
DEFINITION. The containers of the state: tables with a value for every key, 32-lane vectors and byte memories in one
canonical form, with the operations on them. All plain data, all by structural recursion.
-/

namespace Sys2Proof.Machine

/-- A table from numbers to values, as rows in rising order of the key. A key without a row has the value that the reader
of the table states (`getD`). -/
structure Tab (α : Type) where
  /-- the rows -/
  rows : List (Nat × α) := []
  deriving DecidableEq, Repr

/-- The value of the first row with key `k`, or `d`. -/
def rowsGet {α : Type} (d : α) : List (Nat × α) → Nat → α
  | [], _ => d
  | (j, v) :: t, k => if j = k then v else rowsGet d t k

/-- Sets the row of `k`, keeping the rising order. -/
def rowsSet {α : Type} : List (Nat × α) → Nat → α → List (Nat × α)
  | [], k, v => [(k, v)]
  | (j, u) :: t, k, v =>
    if k < j then (k, v) :: (j, u) :: t else if k = j then (k, v) :: t else (j, u) :: rowsSet t k v

/-- Removes every row of `k`. -/
def rowsErase {α : Type} : List (Nat × α) → Nat → List (Nat × α)
  | [], _ => []
  | (j, u) :: t, k => if k = j then rowsErase t k else (j, u) :: rowsErase t k

/-- An empty table. -/
def Tab.empty {α : Type} : Tab α := ⟨[]⟩
/-- The value of key `k`, `d` where it has no row. -/
def Tab.getD {α : Type} (t : Tab α) (k : Nat) (d : α) : α := rowsGet d t.rows k
/-- The value of key `k`, if it has a row. -/
def Tab.get? {α : Type} (t : Tab α) (k : Nat) : Option α := rowsGet none (t.rows.map fun r => (r.1, some r.2)) k
/-- Sets the value of key `k`. -/
def Tab.set {α : Type} (t : Tab α) (k : Nat) (v : α) : Tab α := ⟨rowsSet t.rows k v⟩
/-- Removes the row of key `k`. -/
def Tab.erase {α : Type} (t : Tab α) (k : Nat) : Tab α := ⟨rowsErase t.rows k⟩
/-- The keys that have a row. -/
def Tab.keys {α : Type} (t : Tab α) : List Nat := t.rows.map (·.1)
/-- The values of the rows. -/
def Tab.vals {α : Type} (t : Tab α) : List α := t.rows.map (·.2)

/-- The 32 elements of a vector register or of a Ductus (R66, R164). -/
abbrev Lanes := Vector Word 32

/-- The vector whose lane `l` holds `f l`. -/
def lanesOf (f : Nat → Word) : Lanes :=
  #v[f 0, f 1, f 2, f 3, f 4, f 5, f 6, f 7, f 8, f 9, f 10, f 11, f 12, f 13, f 14, f 15,
     f 16, f 17, f 18, f 19, f 20, f 21, f 22, f 23, f 24, f 25, f 26, f 27, f 28, f 29, f 30, f 31]

/-- Element `l`; a lane number of 32 or more reads 0. -/
def lane (v : Lanes) (l : Nat) : Word := v.toList.getD l 0

/-- The lane numbers, in ascending order. -/
def laneList : List Nat :=
  [0, 1, 2, 3, 4, 5, 6, 7, 8, 9, 10, 11, 12, 13, 14, 15,
   16, 17, 18, 19, 20, 21, 22, 23, 24, 25, 26, 27, 28, 29, 30, 31]

/-- The 32-bit mask whose bit `l` is `p l` (R283). -/
def maskOf (p : Nat → Bool) : Word :=
  BitVec.ofNat 32 (laneList.foldr (fun l n => (if p l then 2 ^ l else 0) + n) 0)

/-- Bit `l` of a mask. -/
def bit (m : Word) (l : Nat) : Bool := m.getLsbD l

/-- The lanes of a mask, in ascending order. -/
def lanesIn (m : Word) : List Nat := laneList.filter (bit m)

/-- The lowest lane of a mask. -/
def lowestLane (m : Word) : Option Nat := (lanesIn m).head?

/-- `v` with the lanes of `m` replaced by those of `n`: a write by the active lanes (R7, R281). -/
def blend (m : Word) (n v : Lanes) : Lanes := lanesOf fun l => if bit m l then lane n l else lane v l

/-- Every lane 0. -/
def zeroLanes : Lanes := lanesOf fun _ => 0

/-- Every lane all ones: retired PCs (R164). -/
def retiredLanes : Lanes := lanesOf fun _ => 0xFFFFFFFF

/-- A memory: the bytes that differ from what an unlisted address reads as (Config.unwrittenByte), addresses strictly
rising. -/
abbrev Memory := List Host.Cell

/-- The byte at an address. -/
def memRead : Memory → Nat → Byte
  | [], _ => Config.unwrittenByte
  | (j, b) :: t, a => if j = a then b else if a < j then Config.unwrittenByte else memRead t a

/-- Writes one byte, keeping the canonical form: writing what an unlisted address reads as removes the entry. -/
def memWrite : Memory → Nat → Byte → Memory
  | [], a, b => if b = Config.unwrittenByte then [] else [(a, b)]
  | (j, c) :: t, a, b =>
    if a < j then (if b = Config.unwrittenByte then (j, c) :: t else (a, b) :: (j, c) :: t)
    else if a = j then (if b = Config.unwrittenByte then t else (a, b) :: t)
    else (j, c) :: memWrite t a b

/-- The entries of a memory from an address on. -/
def memFrom (m : Memory) (a : Nat) : Memory := m.dropWhile fun c => decide (c.1 < a)

/-- The canonical form: addresses strictly rising, no entry equal to what an unlisted address reads as. -/
def memWf : Memory → Bool
  | [] => true
  | [(_, b)] => b != Config.unwrittenByte
  | (j, b) :: (k, c) :: t => b != Config.unwrittenByte && decide (j < k) && memWf ((k, c) :: t)

/-- The `n` bytes from address `a` up. -/
def memReadN (m : Memory) (a : Nat) : Nat → List Byte
  | 0 => []
  | n + 1 => memRead m a :: memReadN m (a + 1) n

/-- Writes bytes from address `a` up. -/
def memWriteN (m : Memory) (a : Nat) : List Byte → Memory
  | [] => m
  | b :: t => memWriteN (memWrite m a b) (a + 1) t

/-- Drops the entries at addresses from `lo` up to, not including, `hi`: they read 0 (zeroing, R43). -/
def memClear (m : Memory) (lo hi : Nat) : Memory := m.filter fun c => decide (c.1 < lo) || decide (hi ≤ c.1)

/-- The number that little-endian bytes stand for (R66). -/
def leNat : List Byte → Nat
  | [] => 0
  | b :: t => b.toNat + 256 * leNat t

/-- The low `n` bytes of a number, little-endian (R66). -/
def leBytes : Nat → Nat → List Byte
  | 0, _ => []
  | n + 1, x => BitVec.ofNat 8 x :: leBytes n (x / 256)

/-- Bits [hi:lo] of a number, as a number (R7). -/
def bits (x hi lo : Nat) : Nat := x / 2 ^ lo % 2 ^ (hi + 1 - lo)

/-- A number of `n` bits read as two's complement (R8: sext). -/
def sextNat (n x : Nat) : Int := if x % 2 ^ n < 2 ^ (n - 1) then (x % 2 ^ n : Int) else (x % 2 ^ n : Int) - 2 ^ n

/-- `x` rounded up to a multiple of `n`. -/
def roundUp (x n : Nat) : Nat := (x + n - 1) / n * n

/-- Lanes from the 128 bytes at an offset. -/
def lanesAt (b : List Byte) (o : Nat) : Lanes :=
  let x := (b.drop o).take 128
  lanesOf fun l => BitVec.ofNat 32 (leNat ((x.drop (4 * l)).take 4))

/-- Counts a list's elements that satisfy `p`. -/
def countIf {α : Type} (p : α → Bool) (l : List α) : Nat := (l.filter p).length

/-- Sum of a list of numbers. -/
def sumNat (l : List Nat) : Nat := l.foldr (· + ·) 0

end Sys2Proof.Machine
end

