-- ==== Sys2Proof/Machine/Float.lean ====
section
/-!
DEFINITION. Floating-point values and the single-step operations of spec/03_number_formats.md (R67 to R72): a value is
taken apart into sign, whole-number significand and power of two, combined exactly, and rounded once.
-/

namespace Sys2Proof.Machine

/-- A floating-point format (R67): exponent and fraction widths and bias. `special` says how the top exponent code reads:
0 as IEEE 754, 1 as E4M3 (only the all-ones code is a NaN), 2 as E2M1 (ordinary values). -/
structure Fmt where
  ew : Nat
  fw : Nat
  bias : Nat
  special : Nat := 0
  deriving DecidableEq, Repr

/-- FP64 (R67). -/
def fp64 : Fmt := { ew := 11, fw := 52, bias := 1023 }
/-- FP32 (R67). -/
def fp32 : Fmt := { ew := 8, fw := 23, bias := 127 }
/-- BF16 (R67). -/
def bf16 : Fmt := { ew := 8, fw := 7, bias := 127 }
/-- FP16 (R67). -/
def fp16 : Fmt := { ew := 5, fw := 10, bias := 15 }
/-- FP8 E5M2 (R67). -/
def e5m2 : Fmt := { ew := 5, fw := 2, bias := 15 }
/-- FP8 E4M3 (R67). -/
def e4m3 : Fmt := { ew := 4, fw := 3, bias := 7, special := 1 }
/-- E2M1 (R67). -/
def e2m1 : Fmt := { ew := 2, fw := 1, bias := 1, special := 2 }

/-- The sign bit's weight. -/
def Fmt.signBit (F : Fmt) : Nat := 2 ^ (F.ew + F.fw)
/-- The pattern of a zero with a sign. -/
def Fmt.zero (F : Fmt) (neg : Bool) : Nat := if neg then F.signBit else 0
/-- The pattern of an infinity with a sign. -/
def Fmt.inf (F : Fmt) (neg : Bool) : Nat := F.zero neg + (2 ^ F.ew - 1) * 2 ^ F.fw
/-- The canonical quiet NaN (R68); the all-ones code without its sign in E4M3. -/
def Fmt.nan (F : Fmt) : Nat :=
  if F.special = 1 then F.signBit - 1 else (2 ^ F.ew - 1) * 2 ^ F.fw + 2 ^ (F.fw - 1)
/-- The largest finite pattern with a sign (R67). -/
def Fmt.big (F : Fmt) (neg : Bool) : Nat :=
  F.zero neg + (match F.special with
    | 0 => (2 ^ F.ew - 1) * 2 ^ F.fw - 1
    | 1 => F.signBit - 2
    | _ => F.signBit - 1)
/-- Exponent of the smallest normal value. -/
def Fmt.emin (F : Fmt) : Int := 1 - (F.bias : Int)
/-- Pattern of 1.0. -/
def Fmt.one (F : Fmt) : Nat := F.bias * 2 ^ F.fw

/-- A value: a NaN, signalling or quiet, an infinity, or (−1)^neg × m × 2^e. -/
inductive Num where
  | nan (signalling : Bool)
  | inf (neg : Bool)
  | fin (neg : Bool) (m : Nat) (e : Int)
  deriving DecidableEq, Repr

/-- The value of a pattern (R67). -/
def unpack (F : Fmt) (x : Nat) : Num :=
  let neg := decide (x / F.signBit % 2 = 1)
  let E := x / 2 ^ F.fw % 2 ^ F.ew
  let f := x % 2 ^ F.fw
  if F.special = 0 ∧ E = 2 ^ F.ew - 1 then
    if f = 0 then .inf neg else .nan (decide (f < 2 ^ (F.fw - 1)))
  else if F.special = 1 ∧ E = 2 ^ F.ew - 1 ∧ f = 2 ^ F.fw - 1 then .nan false
  else if E = 0 then .fin neg f (F.emin - F.fw)
  else .fin neg (2 ^ F.fw + f) ((E : Int) - F.bias - F.fw)

/-- A subnormal pattern. -/
def isSubnormal (F : Fmt) (x : Nat) : Bool :=
  decide (x / 2 ^ F.fw % 2 ^ F.ew = 0) && decide (x % 2 ^ F.fw ≠ 0)

/-- How a result is rounded: RM and FTZ of FPCTL (R70). -/
structure Rounding where
  rm : Nat := 0
  ftz : Bool := false
  deriving DecidableEq, Repr

/-- rne(): to nearest, ties to even, subnormals kept (R8). -/
def rne : Rounding := {}

/-- A pattern as an instruction reads it: subnormals are zeros of the same sign when FTZ = 1 (R72). -/
def readFp (F : Fmt) (R : Rounding) (x : Nat) : Num :=
  if R.ftz && isSubnormal F x then .fin (decide (x / F.signBit % 2 = 1)) 0 0 else unpack F x

/-! The flags, as the bits of a JSR column (R315). -/
/-- invalid -/
def flagNV : Nat := 1
/-- division by zero -/
def flagDZ : Nat := 2
/-- overflow -/
def flagOF : Nat := 4
/-- underflow -/
def flagUF : Nat := 8
/-- inexact -/
def flagNX : Nat := 16

/-- An exact result before it is rounded: a NaN with its invalid flag, an infinity with its division-by-zero flag, a
finite value. -/
inductive Exact where
  | nan (nv : Bool)
  | inf (neg dz : Bool)
  | fin (neg : Bool) (m : Nat) (e : Int)
  deriving DecidableEq, Repr

/-- `m` divided by 2^`sh`, rounded to a whole number under RM, and whether that is inexact. -/
def roundShift (rm : Nat) (neg : Bool) (m sh : Nat) : Nat × Bool :=
  let q := m / 2 ^ sh
  let r := m % 2 ^ sh
  let up := match rm with
    | 0 => decide (2 ^ sh < 2 * r) || (decide (2 * r = 2 ^ sh) && decide (q % 2 = 1))
    | 1 => false
    | 2 => neg && decide (r ≠ 0)
    | _ => !neg && decide (r ≠ 0)
  (if up then q + 1 else q, decide (r ≠ 0))

/-- `m` × 2^`e` in units of 2^`q`, rounded to a whole number under RM. -/
def roundAt (rm : Nat) (neg : Bool) (m : Nat) (e q : Int) : Nat × Bool :=
  if q ≤ e then (m * 2 ^ (e - q).toNat, false) else roundShift rm neg m (q - e).toNat

/-- The result of an overflow (R71). -/
def overflowed (F : Fmt) (rm : Nat) (neg : Bool) : Nat :=
  match rm with
  | 0 => F.inf neg
  | 1 => F.big neg
  | 2 => if neg then F.inf neg else F.big neg
  | _ => if neg then F.big neg else F.inf neg

/-- A finite non-zero value rounded into a format, with its flags (R69, R71, R72). The first rounding is with unbounded
exponent: it decides tininess and overflow. -/
def roundFin (F : Fmt) (R : Rounding) (neg : Bool) (m : Nat) (e : Int) : Nat × Nat :=
  if m = 0 then (F.zero neg, 0)
  else
    let top : Int := (Nat.log2 m : Int) + e
    let r := roundAt R.rm neg m e (top - F.fw)
    let E := if r.1 = 2 ^ (F.fw + 1) then top + 1 else top
    if E < F.emin then
      if R.ftz then (F.zero neg, flagUF + flagNX)
      else
        let t := roundAt R.rm neg m e (F.emin - F.fw)
        (F.zero neg + t.1, if t.2 then flagUF + flagNX else 0)
    else if (2 : Int) ^ F.ew - 1 ≤ E + F.bias then (overflowed F R.rm neg, flagOF + flagNX)
    else
      let sig := if r.1 = 2 ^ (F.fw + 1) then 2 ^ F.fw else r.1
      (F.zero neg + (E + F.bias).toNat * 2 ^ F.fw + (sig - 2 ^ F.fw), if r.2 then flagNX else 0)

/-- The delivered pattern and flags of an exact result, for a format with the codes of IEEE 754 (R68, R69). -/
def deliver (F : Fmt) (R : Rounding) : Exact → Nat × Nat
  | .nan nv => (F.nan, if nv then flagNV else 0)
  | .inf neg dz => (F.inf neg, if dz then flagDZ else 0)
  | .fin neg m e => roundFin F R neg m e

/-- The value is a NaN. -/
def Num.isNan : Num → Bool
  | .nan _ => true
  | _ => false
/-- The value is a signalling NaN. -/
def Num.isSig : Num → Bool
  | .nan s => s
  | _ => false
/-- The value is a zero. -/
def Num.isZero : Num → Bool
  | .fin _ 0 _ => true
  | _ => false
/-- The value's sign. -/
def Num.neg? : Num → Bool
  | .nan _ => false
  | .inf s => s
  | .fin s _ _ => s

/-- `m` × 2^`e` with a sign, in units of 2^`q`, for `q` ≤ `e`. -/
def scaled (neg : Bool) (m : Nat) (e q : Int) : Int :=
  let n : Int := (m * 2 ^ (e - q).toNat : Nat)
  if neg then -n else n

/-- The exact sum of two finite values; an exact zero sum of opposite signs is +0, or −0 toward −∞ (R71). -/
def sumFin (rm : Nat) (s : Bool) (m : Nat) (e : Int) (t : Bool) (n : Nat) (f : Int) : Exact :=
  let q := min e f
  let z := scaled s m e q + scaled t n f q
  if z = 0 then .fin (if s = t then s else decide (rm = 2)) 0 0 else .fin (decide (z < 0)) z.natAbs q

/-- The exact sum (R69). -/
def addNum (rm : Nat) : Num → Num → Exact
  | .nan a, y => .nan (a || y.isSig)
  | x, .nan b => .nan (x.isSig || b)
  | .inf s, .inf t => if s = t then .inf s false else .nan true
  | .inf s, _ => .inf s false
  | _, .inf t => .inf t false
  | .fin s m e, .fin t n f => sumFin rm s m e t n f

/-- The exact product (R69). -/
def mulNum : Num → Num → Exact
  | .nan a, y => .nan (a || y.isSig)
  | x, .nan b => .nan (x.isSig || b)
  | .inf s, y => if y.isZero then .nan true else .inf (s != y.neg?) false
  | x, .inf t => if x.isZero then .nan true else .inf (x.neg? != t) false
  | .fin s m e, .fin t n f => .fin (s != t) (m * n) (e + f)

/-- The exact fused product and sum: invalid on a signalling input, and on a NaN result without a NaN input (R69). -/
def fmaNum (rm : Nat) (x y z : Num) : Exact :=
  let sig := x.isSig || y.isSig || z.isSig
  if x.isNan || y.isNan || z.isNan then .nan sig
  else match mulNum x y with
    | .nan _ => .nan true
    | .inf s _ => addNum rm (.inf s) z
    | .fin s m e => addNum rm (.fin s m e) z

/-- The quotient, with enough bits for any format and a last bit that stands for a remainder (R69). -/
def divNum (fw : Nat) : Num → Num → Exact
  | .nan a, y => .nan (a || y.isSig)
  | x, .nan b => .nan (x.isSig || b)
  | .inf _, .inf _ => .nan true
  | .inf s, y => .inf (s != y.neg?) false
  | x, .inf t => .fin (x.neg? != t) 0 0
  | .fin s m e, .fin t n f =>
    if n = 0 then (if m = 0 then .nan true else .inf (s != t) true)
    else
      let k := fw + 4 + Nat.log2 n
      let q := m * 2 ^ k / n
      let r := m * 2 ^ k % n
      .fin (s != t) (2 * q + (if r = 0 then 0 else 1)) (e - f - (k : Int) - 1)

/-- The bits of the whole square root of `x`, from bit `n` − 1 down. -/
def isqrtFrom (x : Nat) : Nat → Nat → Nat
  | 0, r => r
  | n + 1, r => isqrtFrom x n (if (r + 2 ^ n) * (r + 2 ^ n) ≤ x then r + 2 ^ n else r)

/-- The whole square root. -/
def isqrt (x : Nat) : Nat := isqrtFrom x (Nat.log2 x / 2 + 1) 0

/-- The square root, with enough bits and a last bit that stands for a remainder (R322). -/
def sqrtNum (fw : Nat) : Num → Exact
  | .nan a => .nan a
  | .inf s => if s then .nan true else .inf false false
  | .fin s m e =>
    if m = 0 then .fin s 0 0
    else if s then .nan true
    else
      let k : Nat := 2 * (fw + 4) + (if e % 2 = 0 then 0 else 1)
      let x := m * 2 ^ k
      let r := isqrt x
      .fin false (2 * r + (if r * r = x then 0 else 1)) ((e - (k : Int)) / 2 - 1)

/-- 1/√x (R323, R324). -/
def rsqNum (fw : Nat) : Num → Exact
  | .nan a => .nan a
  | .inf s => if s then .nan true else .fin false 0 0
  | .fin s m e =>
    if m = 0 then .inf s true
    else if s then .nan true
    else
      let odd : Nat := if e % 2 = 0 then 0 else 1
      let n := m * 2 ^ odd
      let k := fw + 4 + Nat.log2 n
      let r := isqrt (2 ^ (2 * k) / n)
      .fin false (2 * r + (if r * r * n = 2 ^ (2 * k) then 0 else 1)) (-(k : Int) - (e - (odd : Int)) / 2 - 1)

/-- Whether x is below y, for values that are not NaNs; −0 = +0. -/
def ltNum : Num → Num → Bool
  | .inf s, .inf t => s && !t
  | .inf s, _ => s
  | _, .inf t => !t
  | .fin s m e, .fin t n f => decide (scaled s m e (min e f) < scaled t n f (min e f))
  | _, _ => false

/-- Whether x equals y, for values that are not NaNs; −0 = +0. -/
def eqNum : Num → Num → Bool
  | .inf s, .inf t => s == t
  | .fin s m e, .fin t n f => decide (scaled s m e (min e f) = scaled t n f (min e f))
  | _, _ => false

/-- An exact result is also a value. -/
def Exact.num : Exact → Num
  | .nan _ => .nan false
  | .inf s _ => .inf s
  | .fin s m e => .fin s m e

/-! ### Rounded operations on patterns -/

/-- A format under a rounding. -/
structure Fp where
  F : Fmt
  R : Rounding := {}
  deriving DecidableEq, Repr

/-- A pattern as read (R72). -/
def Fp.read (c : Fp) (x : Nat) : Num := readFp c.F c.R x
/-- rnd(x + y). -/
def Fp.add (c : Fp) (x y : Nat) : Nat × Nat := deliver c.F c.R (addNum c.R.rm (c.read x) (c.read y))
/-- Negation of a pattern: exact, no flag (R311). -/
def Fp.neg (c : Fp) (x : Nat) : Nat := if x / c.F.signBit % 2 = 1 then x - c.F.signBit else x + c.F.signBit
/-- rnd(x − y). -/
def Fp.sub (c : Fp) (x y : Nat) : Nat × Nat := c.add x (c.neg y)
/-- rnd(x × y). -/
def Fp.mul (c : Fp) (x y : Nat) : Nat × Nat := deliver c.F c.R (mulNum (c.read x) (c.read y))
/-- rnd(x × y + z), rounded once. -/
def Fp.fma (c : Fp) (x y z : Nat) : Nat × Nat :=
  deliver c.F c.R (fmaNum c.R.rm (c.read x) (c.read y) (c.read z))
/-- rnd(x / y). -/
def Fp.div (c : Fp) (x y : Nat) : Nat × Nat := deliver c.F c.R (divNum c.F.fw (c.read x) (c.read y))
/-- rnd(√x). -/
def Fp.sqrt (c : Fp) (x : Nat) : Nat × Nat := deliver c.F c.R (sqrtNum c.F.fw (c.read x))
/-- 1/√x, correctly rounded. -/
def Fp.rsq (c : Fp) (x : Nat) : Nat × Nat := deliver c.F c.R (rsqNum c.F.fw (c.read x))
/-- A whole number as a pattern, rounded. -/
def Fp.ofInt (c : Fp) (n : Int) : Nat × Nat := roundFin c.F c.R (decide (n < 0)) n.natAbs 0
/-- The pattern as delivered without an operation: read under R72, NaNs canonical, invalid on a signalling NaN (R326,
R333). -/
def Fp.pass (c : Fp) (x : Nat) : Nat × Nat :=
  match c.read x with
  | .nan s => (c.F.nan, if s then flagNV else 0)
  | .inf n => (c.F.inf n, 0)
  | .fin n 0 _ => (c.F.zero n, 0)
  | .fin _ _ _ => (x % (2 * c.F.signBit), 0)
/-- A pattern of another format, rounded into this one (R331). The source is read under this FTZ. -/
def Fp.convert (c : Fp) (from_ : Fmt) (x : Nat) : Nat × Nat :=
  match readFp from_ c.R x with
  | .nan s => (c.F.nan, if s then flagNV else 0)
  | .inf n => (c.F.inf n, 0)
  | .fin n m e => roundFin c.F c.R n m e

/-- min under R90: a NaN operand gives the canonical NaN, −0 is below +0. -/
def Fp.min (c : Fp) (x y : Nat) : Nat :=
  let a := c.read x
  let b := c.read y
  if a.isNan || b.isNan then c.F.nan
  else if ltNum a b || (eqNum a b && a.neg?) then (c.pass x).1 else (c.pass y).1
/-- max under R90. -/
def Fp.max (c : Fp) (x y : Nat) : Nat :=
  let a := c.read x
  let b := c.read y
  if a.isNan || b.isNan then c.F.nan
  else if ltNum b a || (eqNum a b && !a.neg?) then (c.pass x).1 else (c.pass y).1

/-- The whole number nearest to a finite value in the direction of zero (R8). -/
def truncNum (m : Nat) (e : Int) : Nat := if 0 ≤ e then m * 2 ^ e.toNat else m / 2 ^ (-e).toNat
/-- The finite value has a fraction. -/
def hasFraction (m : Nat) (e : Int) : Bool := if 0 ≤ e then false else decide (m % 2 ^ (-e).toNat ≠ 0)

/-- The tree T(0, n) of R89 over a list of 2^k terms: neighbours are combined, level by level. -/
def treeLevel {α : Type} (op : α → α → α) : List α → List α
  | x :: y :: t => op x y :: treeLevel op t
  | l => l

/-- `k` levels of the tree. -/
def treeLevels {α : Type} (op : α → α → α) : Nat → List α → List α
  | 0, l => l
  | k + 1, l => treeLevels op k (treeLevel op l)

end Sys2Proof.Machine
end

