-- ==== Sys2Proof/Syntax.lean ====
section
/-!
DEFINITION. The instructions and moves of the BQ-9, one constructor per row of spec/opcode_table.json.

Rows with an encoding carry their operand fields, as numbers, under the letters of the table: `d` destination (vd, sd,
md or vdata), `a`, `b` sources, `s` scalar base, `o` vector offset register, `w` width code (in B format the branch
word), `h` hint (in format E the handle), `i` immediate, `m` mask, `p` operation code, `c` condition, scalar pair,
descriptor or CSR number, `g` set, `q` queue, `e` engine or element, `v` start vector, `n`, `k` index, `sat` the SAT bit.
The order is the table's, but for this: the rows without operands, the rows without an encoding, and the rows that share
another row's encoding stand last, in that order (the compiler builds no operand-carrying constructor past number 244;
the decoder builds only earlier ones).
Rows without an encoding are moves of the device's other agents (spec/95_what_each_step_holds.md); their arguments name
the agent, and, where the outside world supplies a value (a host write, a sensor reading), that value.
-/

namespace Sys2Proof

/-- The fields of an XMOD word (R266), high to low. -/
structure Xmod where
  /-- third source register -/
  vc : Nat := 0
  /-- destination empty-mark -/
  dem : Bool := false
  /-- empty action of the vb-role source: true = trap -/
  eb : Bool := false
  /-- empty action of the va-role source: true = trap -/
  ea : Bool := false
  /-- permutation parameter -/
  pp : Nat := 0
  /-- permutation kind -/
  pk : Nat := 0
  /-- the predicate is the complement of the mask -/
  inv : Bool := false
  /-- predicate mask -/
  pm : Nat := 0
  deriving DecidableEq, Repr, Inhabited

/-- What a failed memory check reports (R35, R36): the cause, the reason, the address in the owner's space, the depth of
the level that failed and its owner (none for an aperture fault). -/
structure MemFault where
  /-- TCAUSE code: 3 aperture, 4 translation -/
  cause : Nat
  /-- reason code (R37) -/
  reason : Nat
  /-- TADDR -/
  addr : Nat
  /-- depth of the failing level, 0 for aperture faults -/
  depth : Nat := 0
  /-- context that owns the failing level -/
  owner : Option Nat := none
  /-- remote physical address (TINFO.REMOTE) -/
  remote : Bool := false
  deriving DecidableEq, Repr, Inhabited

/-- One constructor per row of spec/opcode_table.json. -/
inductive Instr where
  /-- IADD (R284): Adds two 32-bit lane elements modulo 2^32 in each active lane. -/
  | iadd (d a b : Nat)
  /-- ISUB (R284): Subtracts vb from va modulo 2^32 in each active lane. -/
  | isub (d a b : Nat)
  /-- IMUL (R284): Multiplies lane elements and keeps the low 32 bits. -/
  | imul (d a b : Nat)
  /-- IMULH_I32 (R284): Writes the high 32 bits of the signed 64-bit product. -/
  | imulhI32 (d a b : Nat)
  /-- IMULH_N32 (R284): Writes the high 32 bits of the unsigned 64-bit product. -/
  | imulhN32 (d a b : Nat)
  /-- IMIN (R284): Writes the signed minimum of two lane elements. -/
  | imin (d a b : Nat)
  /-- IMAX (R284): Writes the signed maximum of two lane elements. -/
  | imax (d a b : Nat)
  /-- AND (R284): Bitwise AND of two lane elements. -/
  | and (d a b : Nat)
  /-- OR (R284): Bitwise OR of two lane elements. -/
  | or (d a b : Nat)
  /-- XOR (R284): Bitwise XOR of two lane elements. -/
  | xor (d a b : Nat)
  /-- ANDN (R284): Writes va AND NOT vb in each active lane. -/
  | andn (d a b : Nat)
  /-- SHL (R284): Shifts va left by the count in vb[7:0], giving 0 for counts of 32 or more. -/
  | shl (d a b : Nat)
  /-- SHR (R284): Shifts va right logically by the count in vb[7:0]. -/
  | shr (d a b : Nat)
  /-- SAR (R284): Shifts va right arithmetically by the count in vb[7:0]. -/
  | sar (d a b : Nat)
  /-- ROT (R284): Rotates va left by the count modulo 32. -/
  | rot (d a b : Nat)
  /-- IMAD (R285): Computes va times vb plus a third source (vd, or vc under XMOD) modulo 2^32. -/
  | imad (d a b : Nat)
  /-- IABS (R286): Writes the absolute value of the signed lane element. -/
  | iabs (d a : Nat)
  /-- INEG (R286): Writes the two's-complement negation of the lane element. -/
  | ineg (d a : Nat)
  /-- NOT (R286): Writes the bitwise complement of the lane element. -/
  | not (d a : Nat)
  /-- CLZ (R286): Counts leading zero bits of the lane element. -/
  | clz (d a : Nat)
  /-- POPC (R286): Counts one bits of the lane element. -/
  | popc (d a : Nat)
  /-- BREV (R286): Reverses the bit order of the lane element. -/
  | brev (d a : Nat)
  /-- MOV (R286): Copies va into vd in each active lane. -/
  | mov (d a : Nat)
  /-- SEL (R288): Selects va or vb per issuing lane by the XMOD predicate. -/
  | sel (d a b : Nat)
  /-- BFX_I32 (R287): Extracts a signed bit field whose position and width come from vb. -/
  | bfxI32 (d a b : Nat)
  /-- BFX_N32 (R287): Extracts an unsigned bit field whose position and width come from vb. -/
  | bfxN32 (d a b : Nat)
  /-- BFI (R287): Inserts bits of va into vd at the field given by vb. -/
  | bfi (d a b : Nat)
  /-- ICVT_I8 (R286): Sign-extends the low byte of the lane element. -/
  | icvtI8 (d a : Nat)
  /-- ICVT_I16 (R286): Sign-extends the low 16 bits of the lane element. -/
  | icvtI16 (d a : Nat)
  /-- ICVT_I64 (R286): Sign-extends a 32-bit element into a 64-bit register pair. -/
  | icvtI64 (d a : Nat)
  /-- ICVT_I32 (R286): Takes the low 32 bits of a 64-bit register pair. -/
  | icvtI32 (d a : Nat)
  /-- ICMP_EQ (R289): Sets mask bits of active lanes where va equals vb. -/
  | icmpEq (d a b : Nat)
  /-- ICMP_LT_I32 (R289): Sets mask bits where va is signed-less-than vb. -/
  | icmpLtI32 (d a b : Nat)
  /-- ICMP_LT_N32 (R289): Sets mask bits where va is unsigned-less-than vb. -/
  | icmpLtN32 (d a b : Nat)
  /-- IADD_I64 (R290): Adds 64-bit register pairs modulo 2^64. -/
  | iaddI64 (d a b : Nat)
  /-- ISUB_I64 (R290): Subtracts 64-bit register pairs modulo 2^64. -/
  | isubI64 (d a b : Nat)
  /-- IMUL_I64 (R290): Multiplies 64-bit register pairs and keeps the low 64 bits. -/
  | imulI64 (d a b : Nat)
  /-- IADD_IMM (R291): Adds a sign-extended 11-bit immediate to each lane element. -/
  | iaddImm (d a i : Nat)
  /-- SHL_IMM (R291): Shifts each lane element left by an immediate count 0-31. -/
  | shlImm (d a i : Nat)
  /-- MOVI (R291): Writes a sign-extended 18-bit immediate into each active lane. -/
  | movi (d i : Nat)
  /-- LIH (R291): Writes a 16-bit immediate into the high half of each lane element, keeping the low half. -/
  | lih (d i : Nat)
  /-- SADD (R293): Adds two scalar registers modulo 2^64. -/
  | sadd (d a b : Nat)
  /-- SSUB (R293): Subtracts two scalar registers modulo 2^64. -/
  | ssub (d a b : Nat)
  /-- SMUL (R293): Multiplies two scalar registers modulo 2^64. -/
  | smul (d a b : Nat)
  /-- SAND (R293): Bitwise AND of two scalar registers. -/
  | sand (d a b : Nat)
  /-- SOR (R293): Bitwise OR of two scalar registers. -/
  | sor (d a b : Nat)
  /-- SXOR (R293): Bitwise XOR of two scalar registers. -/
  | sxor (d a b : Nat)
  /-- SSHL (R293): Shifts a scalar left by the count in sb[7:0]. -/
  | sshl (d a b : Nat)
  /-- SSHR (R293): Shifts a scalar right logically by the count in sb[7:0]. -/
  | sshr (d a b : Nat)
  /-- SMOV (R293): Copies one scalar register to another. -/
  | smov (d a : Nat)
  /-- SCMP_EQ (R293): Writes 1 if two scalars are equal, else 0. -/
  | scmpEq (d a b : Nat)
  /-- SCMP_LT_I64 (R293): Writes 1 if sa is signed-less-than sb. -/
  | scmpLtI64 (d a b : Nat)
  /-- SCMP_LT_N64 (R293): Writes 1 if sa is unsigned-less-than sb. -/
  | scmpLtN64 (d a b : Nat)
  /-- SADD_IMM (R294): Adds a sign-extended 15-bit immediate to a scalar. -/
  | saddImm (d a i : Nat)
  /-- SAND_IMM (R294): ANDs a scalar with a sign-extended 15-bit immediate. -/
  | sandImm (d a i : Nat)
  /-- SSHL_IMM (R294): Shifts a scalar left by an immediate count 0-63. -/
  | sshlImm (d a i : Nat)
  /-- SMOVI (R294): Writes a sign-extended 20-bit immediate into a scalar. -/
  | smovi (d i : Nat)
  /-- SLIH (R294): Shifts a scalar left by 20 and ORs in a 20-bit immediate. -/
  | slih (d i : Nat)
  /-- VLID (R295): Writes each active lane's index into vd. -/
  | vlid (d : Nat)
  /-- LPERM (R295): Reads va from the lane that vb names, per active lane. -/
  | lperm (d a b : Nat)
  /-- VOTE (R296): Writes to every active lane's mask bit whether any active lane's bit in ms is set. -/
  | vote (d a : Nat)
  /-- MPOP (R296): Counts active lanes whose mask bit is set into a scalar. -/
  | mpop (d a : Nat)
  /-- REDUCE_ADD_I32 (R297): Sums active lanes' 32-bit integers in the fixed tree and writes the result to active lanes. -/
  | reduceAddI32 (d a : Nat)
  /-- REDUCE_MAX_I32 (R297): Takes the signed maximum over active lanes in the fixed tree. -/
  | reduceMaxI32 (d a : Nat)
  /-- REDUCE_ADD_F32 (R297): Sums active lanes' FP32 values in the fixed tree with rne rounding. -/
  | reduceAddF32 (d a : Nat)
  /-- REDUCE_MAX_F32 (R297): Takes the FP32 maximum over active lanes in the fixed tree. -/
  | reduceMaxF32 (d a : Nat)
  /-- REDUCE_ADD_F64 (R297): Sums active lanes' FP64 pairs in the fixed tree. -/
  | reduceAddF64 (d a : Nat)
  /-- MAND (R298): ANDs two masks for active lanes. -/
  | mand (d a b : Nat)
  /-- MOR (R298): ORs two masks for active lanes. -/
  | mor (d a b : Nat)
  /-- MXOR (R298): XORs two masks for active lanes. -/
  | mxor (d a b : Nat)
  /-- MNOT (R298): Complements a mask for active lanes. -/
  | mnot (d a : Nat)
  /-- MMOV (R298): Copies a mask for active lanes. -/
  | mmov (d a : Nat)
  /-- BR (R299): Moves issuing lanes whose mask bit is set to the branch target. -/
  | br (c w : Nat)
  /-- CALL (R299): Branches lanes by mask and writes the return offset into v(8G-1). -/
  | call (c w : Nat)
  /-- BRS_Z (R300): Moves every issuing lane to the target when the scalar is zero. -/
  | brsZ (c w : Nat)
  /-- BRS_NZ (R300): Moves every issuing lane to the target when the scalar is non-zero. -/
  | brsNz (c w : Nat)
  /-- JMP (R301): Sets each active lane's PC from va, refusing odd targets. -/
  | jmp (a : Nat)
  /-- RET (R301): Returns by setting active lanes' PCs from va, as JMP does. -/
  | ret (a : Nat)
  /-- WAKE (R175): Makes every sleeping lane of every member wave of the set eligible. -/
  | wake (d : Nat)
  /-- ELECT (R304): Makes the lowest active lane the Nib lane and records the wave as the set's tile issuer. -/
  | elect (d a : Nat)
  /-- JOIN (R305): Makes the issuing wave a member of the set. -/
  | join (d : Nat)
  /-- LEAVE (R305): Removes the issuing wave from the set. -/
  | leave (d : Nat)
  /-- BAR (R306): Arrives at the set's current barrier, releasing its object and waiting for completion. -/
  | bar (d : Nat)
  /-- NOP_H1 (R276): Hint encoding with no effect whose operand fields are ignored. -/
  | nopH1 (d a b : Nat)
  /-- NOP_H2 (R276): Hint encoding with no effect whose operand fields are ignored. -/
  | nopH2 (d a b : Nat)
  /-- FADD_F32 (R318): Adds FP32 jets coefficient by coefficient. -/
  | faddF32 (d a b : Nat)
  /-- FSUB_F32 (R318): Subtracts FP32 jets coefficient by coefficient. -/
  | fsubF32 (d a b : Nat)
  /-- FMUL_F32 (R319): Multiplies FP32 jets by the ordered Cauchy product. -/
  | fmulF32 (d a b : Nat)
  /-- FFMA_F32 (R320): Computes a fused FP32 jet multiply-add under FPCTL rounding. -/
  | ffmaF32 (d a b : Nat)
  /-- FDIV_F32 (R321): Divides FP32 jets by the series recurrence. -/
  | fdivF32 (d a b : Nat)
  /-- FMIN_F32 (R326): Selects the whole FP32 jet with the smaller coefficient 0. -/
  | fminF32 (d a b : Nat)
  /-- FMAX_F32 (R326): Selects the whole FP32 jet with the larger coefficient 0. -/
  | fmaxF32 (d a b : Nat)
  /-- FRCP_F32 (R321): Takes the reciprocal of an FP32 jet. -/
  | frcpF32 (d a : Nat)
  /-- FSQRT_F32 (R322): Takes the square root of an FP32 jet. -/
  | fsqrtF32 (d a : Nat)
  /-- FRSQ_F32 (R323): Takes the reciprocal square root of an FP32 jet. -/
  | frsqF32 (d a : Nat)
  /-- FABS_F32 (R327): Takes the absolute value of an FP32 jet by its coefficient-0 sign bit. -/
  | fabsF32 (d a : Nat)
  /-- FNEG_F32 (R327): Inverts the sign bit of every FP32 jet coefficient. -/
  | fnegF32 (d a : Nat)
  /-- FCLASS_F32 (R329): Classifies FP32 coefficient 0 into one class bit. -/
  | fclassF32 (d a : Nat)
  /-- FROUND_F32 (R328): Rounds coefficient 0 to an integral value under RM and zeroes higher coefficients. -/
  | froundF32 (d a : Nat)
  /-- FFMA_F32_RN (R320): Fused FP32 jet multiply-add rounded to nearest even regardless of RM. -/
  | ffmaF32Rn (d a b : Nat)
  /-- FFMA_F32_RZ (R320): Fused FP32 jet multiply-add rounded toward zero regardless of RM. -/
  | ffmaF32Rz (d a b : Nat)
  /-- FADD_F64 (R318): Adds FP64 jets coefficient by coefficient. -/
  | faddF64 (d a b : Nat)
  /-- FSUB_F64 (R318): Subtracts FP64 jets coefficient by coefficient. -/
  | fsubF64 (d a b : Nat)
  /-- FMUL_F64 (R319): Multiplies FP64 jets by the ordered Cauchy product. -/
  | fmulF64 (d a b : Nat)
  /-- FFMA_F64 (R320): Computes a fused FP64 jet multiply-add. -/
  | ffmaF64 (d a b : Nat)
  /-- FDIV_F64 (R321): Divides FP64 jets by the series recurrence. -/
  | fdivF64 (d a b : Nat)
  /-- FMIN_F64 (R326): Selects the whole FP64 jet with the smaller coefficient 0. -/
  | fminF64 (d a b : Nat)
  /-- FMAX_F64 (R326): Selects the whole FP64 jet with the larger coefficient 0. -/
  | fmaxF64 (d a b : Nat)
  /-- FSQRT_F64 (R322): Takes the square root of an FP64 jet. -/
  | fsqrtF64 (d a : Nat)
  /-- FABS_F64 (R327): Takes the absolute value of an FP64 jet by bits. -/
  | fabsF64 (d a : Nat)
  /-- FNEG_F64 (R327): Inverts the sign bit of every FP64 jet coefficient. -/
  | fnegF64 (d a : Nat)
  /-- FEXP_F32 (R325): Computes the exponential of an FP32 jet with correctly rounded coefficient 0. -/
  | fexpF32 (d a : Nat)
  /-- FLOG_F32 (R325): Computes the natural logarithm of an FP32 jet. -/
  | flogF32 (d a : Nat)
  /-- FSIN_F32 (R325): Computes the sine of an FP32 jet. -/
  | fsinF32 (d a : Nat)
  /-- FCOS_F32 (R325): Computes the cosine of an FP32 jet. -/
  | fcosF32 (d a : Nat)
  /-- FTANH_F32 (R325): Computes the hyperbolic tangent of an FP32 jet. -/
  | ftanhF32 (d a : Nat)
  /-- FCMP_EQ_F32 (R330): Sets mask bits where FP32 coefficients 0 are equal. -/
  | fcmpEqF32 (d a b : Nat)
  /-- FCMP_LT_F32 (R330): Sets mask bits where FP32 coefficient 0 of va is less than vb's. -/
  | fcmpLtF32 (d a b : Nat)
  /-- FCMP_LE_F32 (R330): Sets mask bits where FP32 coefficient 0 of va is at most vb's. -/
  | fcmpLeF32 (d a b : Nat)
  /-- FCMP_EQ_F64 (R330): Sets mask bits where FP64 coefficients 0 are equal. -/
  | fcmpEqF64 (d a b : Nat)
  /-- FCMP_LT_F64 (R330): Sets mask bits where FP64 coefficient 0 of va is less than vb's. -/
  | fcmpLtF64 (d a b : Nat)
  /-- FCMP_LE_F64 (R330): Sets mask bits where FP64 coefficient 0 of va is at most vb's. -/
  | fcmpLeF64 (d a b : Nat)
  /-- FCVT_F64_F32 (R331): Widens each FP32 jet coefficient exactly to FP64. -/
  | fcvtF64F32 (d a : Nat)
  /-- FCVT_F32_F64 (R331): Rounds each FP64 jet coefficient to FP32. -/
  | fcvtF32F64 (d a : Nat)
  /-- FCVT_F32_I32 (R331): Converts a signed 32-bit integer to FP32 coefficient 0. -/
  | fcvtF32I32 (d a : Nat)
  /-- FCVT_F32_N32 (R331): Converts an unsigned 32-bit integer to FP32 coefficient 0. -/
  | fcvtF32N32 (d a : Nat)
  /-- FCVT_I32_F32 (R331): Truncates FP32 coefficient 0 to a saturating signed integer. -/
  | fcvtI32F32 (d a : Nat)
  /-- FCVT_N32_F32 (R331): Truncates FP32 coefficient 0 to a saturating unsigned integer. -/
  | fcvtN32F32 (d a : Nat)
  /-- FCVT_BF16_F32 (R331): Rounds two FP32 values into a packed BF16 pair. -/
  | fcvtBf16F32 (d a b : Nat)
  /-- FCVT_F16_F32 (R331): Rounds two FP32 values into a packed FP16 pair. -/
  | fcvtF16F32 (d a b : Nat)
  /-- FCVT_F32_F16 (R331): Widens one element of an FP16 pair exactly to FP32. -/
  | fcvtF32F16 (d a e : Nat)
  /-- HADD2_BF16 (R332): Adds both BF16 elements of packed pairs. -/
  | hadd2Bf16 (d a b : Nat)
  /-- HMUL2_BF16 (R332): Multiplies both BF16 elements of packed pairs. -/
  | hmul2Bf16 (d a b : Nat)
  /-- HFMA2_BF16 (R332): Fused multiply-add on both BF16 elements of packed pairs. -/
  | hfma2Bf16 (d a b : Nat)
  /-- HADD2_F16 (R332): Adds both FP16 elements of packed pairs. -/
  | hadd2F16 (d a b : Nat)
  /-- HMUL2_F16 (R332): Multiplies both FP16 elements of packed pairs. -/
  | hmul2F16 (d a b : Nat)
  /-- HFMA2_F16 (R332): Fused multiply-add on both FP16 elements of packed pairs. -/
  | hfma2F16 (d a b : Nat)
  /-- JSEED_F32 (R333): Makes the FP32 jet of an independent variable from coefficient 0. -/
  | jseedF32 (d a : Nat)
  /-- JSEED_F64 (R333): Makes the FP64 jet of an independent variable from coefficient 0. -/
  | jseedF64 (d a : Nat)
  /-- JEXT_F32 (R334): Copies FP32 jet coefficient n into a plain register. -/
  | jextF32 (d a n : Nat)
  /-- JEXT_F64 (R334): Copies FP64 jet coefficient n into a register pair. -/
  | jextF64 (d a n : Nat)
  /-- JINS_F32 (R334): Copies a plain register into FP32 jet coefficient n. -/
  | jinsF32 (d a n : Nat)
  /-- JINS_F64 (R334): Copies a register pair into FP64 jet coefficient n. -/
  | jinsF64 (d a n : Nat)
  /-- JDIFF_F32 (R335): Forms the derivative's normalised coefficients of an FP32 jet. -/
  | jdiffF32 (d a : Nat)
  /-- JDIFF_F64 (R335): Forms the derivative's normalised coefficients of an FP64 jet. -/
  | jdiffF64 (d a : Nat)
  /-- JINTEG_F32 (R335): Forms the integral-from-zero coefficients of an FP32 jet. -/
  | jintegF32 (d a : Nat)
  /-- JINTEG_F64 (R335): Forms the integral-from-zero coefficients of an FP64 jet. -/
  | jintegF64 (d a : Nat)
  /-- JFACT_F32 (R335): Multiplies each FP32 coefficient j by j! to give derivatives. -/
  | jfactF32 (d a : Nat)
  /-- JFACT_F64 (R335): Multiplies each FP64 coefficient j by j! to give derivatives. -/
  | jfactF64 (d a : Nat)
  /-- SETJORD (R316): Sets the wave's jet order. -/
  | setjord (k : Nat)
  /-- JSRR (R317): Waits for earlier FP instructions and reads JSR into a scalar. -/
  | jsrr (d : Nat)
  /-- JSRC (R317): Waits for earlier FP instructions and clears the JSR bits set in a scalar. -/
  | jsrc (a : Nat)
  /-- LD (R341): Loads one element per active lane from a scalar base plus vector offset. -/
  | ld (d s o w h i : Nat)
  /-- ST (R342): Stores one element per active lane at a scalar base plus vector offset. -/
  | st (d s o w h i : Nat)
  /-- ST_X (R344): Stores a scalar register from the scalar side at a scalar address. -/
  | stX (d s o w i : Nat)
  /-- LDB (R343): Loads one address for the whole wave and broadcasts it to active lanes. -/
  | ldb (d s o w h i : Nat)
  /-- LDB_X (R344): Loads one address into a scalar register from the scalar side. -/
  | ldbX (d s o w i : Nat)
  /-- LDR (R345): Loads per lane, zeroing and marking in a mask the lanes whose pages are not resident. -/
  | ldr (d s o w m : Nat)
  /-- ATOM (R348): Performs a read-modify-write per active lane at the target's home slice. -/
  | atom (d s o w p : Nat)
  /-- SPATOM (R349): Performs a locked read-modify-write per active lane on a word of S. -/
  | spatom (d s o p : Nat)
  /-- SLOCK (R350): Reads S words and takes their lock bits, reporting failures in a mask. -/
  | slock (d s o m : Nat)
  /-- SUNLK (R351): Writes S words and frees their lock bits. -/
  | sunlk (d s o : Nat)
  /-- PREF (R346): Starts L1 fills for the active lanes' addresses without any fault. -/
  | pref (s o w h i : Nat)
  /-- BIND (R353): Writes a binding-table entry and waits until every core running the context applies it. -/
  | bind (a b : Nat)
  /-- UNBIND (R353): Clears a binding-table entry's V bit and waits until applied. -/
  | unbind (a : Nat)
  /-- ACQ (R354): Performs the acquire of a sync object without its operation. -/
  | acq (a b : Nat)
  /-- REL (R354): Performs the release of a sync object without its operation. -/
  | rel (a b : Nat)
  /-- LOCK (R355): Obtains a global lock word by atomic tag write, retrying, then acquires its object. -/
  | lock (a : Nat)
  /-- UNLOCK (R356): Releases the lock object and clears the lock word holding the wave's tag. -/
  | unlock (a : Nat)
  /-- SIGNAL (R357): Releases a counter object and adds a signed amount to the counter. -/
  | signal (a b : Nat)
  /-- WAITGE (R358): Polls a counter until it reaches a bound, then acquires its object. -/
  | waitge (a b : Nat)
  /-- QFENCE (R361): Waits for the wave's operations in the named engine, matrix and gather queues to complete. -/
  | qfence (a : Nat)
  /-- RDROP (R365): Regenerates a demoted eligible set if needed and makes it ordinary. -/
  | rdrop (d : Nat)
  /-- RMAT (R365): Regenerates a demoted eligible set, which stays eligible. -/
  | rmat (d : Nat)
  /-- RDEMOTE (R365): Demotes an eligible materialised set now. -/
  | rdemote (d : Nat)
  /-- GROW (R363): Requests n more register granules, waiting in register wait until granted. -/
  | grow (n : Nat)
  /-- SHRINK (R363): Releases n register granules after their pending uses end. -/
  | shrink (n : Nat)
  /-- RMARK (R364): Makes a register recipe-eligible with a slice, allocating a recipe-table entry. -/
  | rmark (d i : Nat)
  /-- CPY (R369): Supplies a wave's slice of a collective copy into a typed buffer, starting the operation on its first slice. -/
  | cpy (v h g c q e : Nat)
  /-- CPYD (R369): Supplies a wave's slice of a collective drain from C or S to a tensor. -/
  | cpyd (v h g c q e : Nat)
  /-- HWAIT (R371): Waits for a handle to be full and acquires the copy-handle object. -/
  | hwait (h : Nat)
  /-- HSTAT (R371): Returns a handle's status word without waiting. -/
  | hstat (d h : Nat)
  /-- HFREE (R371): Waits for a full handle, acquires, and returns it to free. -/
  | hfree (h : Nat)
  /-- PAGEREQ_FILL (R31): Occupies a handle and walks the page of an address until it is resident or faults. -/
  | pagereqFill (h a : Nat)
  /-- PAGEREQ_SETTLE (R31): Occupies a handle until one lease horizon has passed. -/
  | pagereqSettle (h : Nat)
  /-- CBSET (R372): Configures a circular-buffer descriptor and resets its state. -/
  | cbset (c a : Nat)
  /-- CBWAIT (R373): Waits for a filled circular-buffer slot and returns its offset and index. -/
  | cbwait (d c : Nat)
  /-- CBREL (R373): Releases the oldest taken circular-buffer slot. -/
  | cbrel (c : Nat)
  /-- SPUSH (R62): Sends one register as an entry into the Spine FIFO toward the vertical partner. -/
  | spush (a : Nat)
  /-- SPOP (R62): Removes the head Spine entry into a register, blocking until one has arrived. -/
  | spop (d : Nat)
  /-- SPCNT (R62): Reads the sender's free count of the outgoing Spine FIFO. -/
  | spcnt (d : Nat)
  /-- SPUSH_ROLTIK2 (R279): Roltik-2/Roltik-1 encoding of SPUSH at major 0x15 with legacy V3 field placement. -/
  | spushRoltik2 (a : Nat)
  /-- SPOP_ROLTIK2 (R279): Roltik-2/Roltik-1 encoding of SPOP at major 0x15. -/
  | spopRoltik2 (d : Nat)
  /-- SPCNT_ROLTIK2 (R279): Roltik-2/Roltik-1 encoding of SPCNT at major 0x15. -/
  | spcntRoltik2 (d : Nat)
  /-- MMA_PT_BF16 (R379): Places a BF16 plus-times matrix command accumulating into a C tile. -/
  | mmaPtBf16 (d a b : Nat) (sat : Bool)
  /-- MMA_PT_DPW8 (R379): Places a BF16 by DPW8 plus-times matrix command with per-column scales. -/
  | mmaPtDpw8 (d a b : Nat) (sat : Bool)
  /-- MMA_PT_F32 (R379): Places an FP32 plus-times matrix command. -/
  | mmaPtF32 (d a b : Nat) (sat : Bool)
  /-- MMA_MINP_F32 (R379): Places an FP32 min-plus semiring matrix command. -/
  | mmaMinpF32 (d a b : Nat) (sat : Bool)
  /-- MMA_MAXP_F32 (R379): Places an FP32 max-plus semiring matrix command. -/
  | mmaMaxpF32 (d a b : Nat) (sat : Bool)
  /-- MMA_MAXT_F32 (R379): Places an FP32 max-times semiring matrix command. -/
  | mmaMaxtF32 (d a b : Nat) (sat : Bool)
  /-- MMA_ORAND_BITS (R379): Places an or-and bit matrix command. -/
  | mmaOrandBits (d a b : Nat)
  /-- MGATHER (R381): Places a gather of 64 indexed rows into the group's operand latch. -/
  | mgather (a b : Nat)
  /-- MZERO (R383): Places a command that zeroes a C tile and clears its flags. -/
  | mzero (a : Nat)
  /-- MFLAGS (R384): Places a command that reads a tile's metadata word into a scalar. -/
  | mflags (d a : Nat)
  /-- MFLAGS_CLR (R384): Places a command that reads a tile's metadata word and clears its sticky flags. -/
  | mflagsClr (d a : Nat)
  /-- RQALLOC (R385): Allocates record slots for a node per active lane, marking failures in a mask. -/
  | rqalloc (d a b : Nat)
  /-- RQCOMMIT (R386): Checks and publishes each active lane's allocated record as a release. -/
  | rqcommit (a : Nat)
  /-- RQJOIN (R387): Decrements join counters of received records, releasing continuations at zero. -/
  | rqjoin (a : Nat)
  /-- RQINFO (R388): Reads a queue base or a node count from the Gatherer. -/
  | rqinfo (d a n : Nat)
  /-- CTXNEW (R390): Reads a context descriptor and creates a child context. -/
  | ctxnew (d a : Nat)
  /-- CTXGRANT_CORES (R229): Grants cores of a cluster to a child, exclusively or shared. -/
  | ctxgrantCores (d a b : Nat)
  /-- CTXTAKE_CORES (R232): Stops a child's groups on named cores and takes the cores back through a handle. -/
  | ctxtakeCores (h a b : Nat)
  /-- CTXSTAT (R394): Returns a status or count word about a child or the issuer. -/
  | ctxstat (d a n : Nat)
  /-- CTXFREE (R393): Stops and frees a child and all its descendants through a handle. -/
  | ctxfree (h a : Nat)
  /-- PREDONE (R246): Parks a PREEMPT handler wave as at a barrier carrying a liveness entry. -/
  | predone (a : Nat)
  /-- CSRR (R397): Reads a control and status register into a scalar. -/
  | csrr (d c : Nat)
  /-- CSRR_DX (R166): Reads the Ductus of every lane into a vector register. -/
  | csrrDx (d : Nat)
  /-- CSRW (R397): Writes a control and status register from a scalar under its own rules. -/
  | csrw (c a : Nat)
  /-- CSRW_DX (R166): Writes active lanes' PCs from a vector register. -/
  | csrwDx (a : Nat)
  /-- PMCR (R399): Reads a tenant counter's count without waiting. -/
  | pmcr (d n : Nat)
  /-- PWRREQ_GATE (R65): Requests power gating of a voltage domain, pending until no group is resident and no Spine entry is bound for it. -/
  | pwrreqGate (d a : Nat)
  /-- TRAP (R395): Raises a USER trap carrying an 18-bit immediate. -/
  | trap (i : Nat)
  /-- XMOD (R266): Prefix that adds a predicate, permutation, empty actions, empty-mark and third source to the next instruction. -/
  | xmod (x : Xmod)
  /-- IADD_C16 (R258): Compressed IADD with vd as destination and first source. -/
  | iaddC16 (d b : Nat)
  /-- ISUB_C16 (R258): Compressed ISUB. -/
  | isubC16 (d b : Nat)
  /-- IMUL_C16 (R258): Compressed IMUL. -/
  | imulC16 (d b : Nat)
  /-- AND_C16 (R258): Compressed AND. -/
  | andC16 (d b : Nat)
  /-- OR_C16 (R258): Compressed OR. -/
  | orC16 (d b : Nat)
  /-- XOR_C16 (R258): Compressed XOR. -/
  | xorC16 (d b : Nat)
  /-- SHL_C16 (R258): Compressed SHL. -/
  | shlC16 (d b : Nat)
  /-- SHR_C16 (R258): Compressed SHR. -/
  | shrC16 (d b : Nat)
  /-- SAR_C16 (R258): Compressed SAR. -/
  | sarC16 (d b : Nat)
  /-- MOV_C16 (R258): Compressed MOV, vd := vs. -/
  | movC16 (d b : Nat)
  /-- IMIN_C16 (R258): Compressed IMIN. -/
  | iminC16 (d b : Nat)
  /-- IMAX_C16 (R258): Compressed IMAX. -/
  | imaxC16 (d b : Nat)
  /-- FADD_F32_C16 (R258): Compressed FADD.f32. -/
  | faddF32C16 (d b : Nat)
  /-- FSUB_F32_C16 (R258): Compressed FSUB.f32. -/
  | fsubF32C16 (d b : Nat)
  /-- FMUL_F32_C16 (R258): Compressed FMUL.f32. -/
  | fmulF32C16 (d b : Nat)
  /-- FMAX_F32_C16 (R258): Compressed FMAX.f32. -/
  | fmaxF32C16 (d b : Nat)
  /-- NOT_C16_ROLTIK1 (R280): Roltik-1 compressed NOT, vd := NOT vs. -/
  | notC16Roltik1 (d b : Nat)
  /-- EXIT (R302): Retires the active lanes and ends the wave when no live lane remains. -/
  | exit
  /-- YIELD (R170): Advances issuing lanes and begins a quantum at once if any lane is waiting. -/
  | yield
  /-- SLEEP (R303): Puts the active lanes to sleep past the instruction. -/
  | sleep
  /-- NOP (R303): Does nothing. -/
  | nop
  /-- LBAR (R307): Arrives at the launch's current barrier. -/
  | lbar
  /-- FENCE_W (R126): Wave-scope fence: waits for earlier loads and for stores to enter the store queue. -/
  | fenceW
  /-- FENCE_G (R126): Group-scope fence that also drains the store queue into the core. -/
  | fenceG
  /-- FENCE_C (R126): Cluster-scope fence that also writes back every dirty L1 byte. -/
  | fenceC
  /-- FENCE_D (R126): Device-scope fence that also completes atomics and remote accesses and invalidates the L1. -/
  | fenceD
  /-- FENCE_S (R126): System-scope fence that also waits for host-window store acknowledgements. -/
  | fenceS
  /-- IFENCE (R360): Performs FENCE.C work and invalidates the core's instruction cache and fetch buffers. -/
  | ifence
  /-- TRET (R237): Ends handler mode and resumes from the interrupted Ductus. -/
  | tret
  /-- LOAD_RESULT_RETURN (R177): A variable-latency result returns, is written and marks its destination full, releasing blocked readers. -/
  | loadResultReturn (w tag : Nat)
  /-- STORE_QUEUE_DRAIN (R121): A queued store leaves the wave's store queue and is performed at the L1 or bank. -/
  | storeQueueDrain (w : Nat)
  /-- REMOTE_ACCESS_ARRIVAL (R25): A remote access arrives over the scale-out links and is performed at the target home slice. -/
  | remoteAccessArrival (w tag : Nat)
  /-- REMOTE_ACCESS_REFUSED (R28): A remote access arriving after its expiry is refused, and the issuer retranslates and reissues it. -/
  | remoteAccessRefused (w tag : Nat)
  /-- REMOTE_ACKNOWLEDGE (R28): A remote store or atomic is acknowledged, releasing the waiting wave. -/
  | remoteAcknowledge (w tag : Nat)
  /-- MAPPING_LEASE_EXPIRY (R27): A cached composed mapping stops translating at its nominal expiry minus 1 µs. -/
  | mappingLeaseExpiry (core : Nat)
  /-- L1_LEASE_WRITEBACK (R28): An L1 line's dirty bytes are written back when their earliest recorded expiry minus 1 µs arrives. -/
  | l1LeaseWriteback (core line : Nat)
  /-- PAGEREQ_REWALK (R31): A filling PAGEREQ.FILL walks its page again every 1 µs, writing page-request entries and completing the handle. -/
  | pagereqRewalk (g h : Nat)
  /-- PAGEREQ_SETTLE_EXPIRY (R31): A settle handle becomes full with status OK when its settle time passes. -/
  | pagereqSettleExpiry (g h : Nat)
  /-- LOCK_BIT_RETRY (R52): A request refused on a held S lock bit is presented to its bank again two cycles later. -/
  | lockBitRetry (w : Nat)
  /-- BANK_DROWSY_ENTRY (R61): A register-file bank enters drowsy retention after 16 idle or stalled cycles. -/
  | bankDrowsyEntry (core bank : Nat)
  /-- BANK_WAKE (R61): A drowsy bank wakes 6 cycles after its first wake demand. -/
  | bankWake (core bank : Nat)
  /-- SPINE_ENTRY_ARRIVAL (R63): A pushed Spine entry becomes poppable 8 cycles after its SPUSH. -/
  | spineEntryArrival (core : Nat)
  /-- SPINE_CREDIT_RETURN (R63): A popped slot is added to the sender's free count 8 cycles after the pop. -/
  | spineCreditReturn (core : Nat)
  /-- SPINE_PAIR_FOLIO_RESTORE (R64): Entries saved in a pair folio are placed back when the context again holds both cores' turns. -/
  | spinePairFolioRestore (ctx core : Nat)
  /-- GATE_GRANT (R65): A pending gate request is granted once no group is resident and no Spine entry is bound for the domain. -/
  | gateGrant (dom : Nat)
  /-- DOMAIN_WAKE_COMPLETE (R65): A domain wake completes 10 µs after its request, releasing blocked SPUSHes into empty FIFOs. -/
  | domainWakeComplete (dom : Nat)
  /-- CB_SLOT_CLAIM (R55): A copy at its queue head claims a circular-buffer slot once FREE is non-zero. -/
  | cbSlotClaim (cl e q : Nat)
  /-- COPY_OPERATION_START (R104): An engine operation at its queue head with all counted slices starts, pre-walking its pages. -/
  | copyOperationStart (cl e q : Nat)
  /-- COPY_OPERATION_COMPLETE (R107): An engine operation's last write lands or it fails, and its handle becomes full. -/
  | copyOperationComplete (cl e q : Nat)
  /-- MULTICAST_DELIVERY (R111): Multicast data lands on a target core once a group of the launch is resident and its handle is free. -/
  | multicastDelivery (cl e q k : Nat)
  /-- MULTICAST_WAIT_EXPIRY (R112): A multicast target not placed within 20 µs is skipped. -/
  | multicastWaitExpiry (cl e q k : Nat)
  /-- FOLLOW_ON_PLACEMENT (R113): A follow-on MMA is placed in the receiving core's matrix queue once a place frees. -/
  | followOnPlacement (cl e q k : Nat)
  /-- MMA_START (R380): A ready matrix command starts in the array once its handles are full and the array is free. -/
  | mmaStart (core g : Nat)
  /-- MMA_ACCUMULATION_COMPLETE (R48): An accumulation writes its last rows, sets flags and clears OPEN when none remains. -/
  | mmaAccumulationComplete (core : Nat)
  /-- MZERO_EXECUTE (R383): An MZERO command at its turn zeroes the tile and clears its flags. -/
  | mzeroExecute (core g : Nat)
  /-- MFLAGS_EXECUTE (R384): An MFLAGS command at its turn returns the tile's metadata word, clearing flags for the .CLR form. -/
  | mflagsExecute (core g : Nat)
  /-- MGATHER_EXECUTE (R381): A gather starts after earlier latch readers finish and fills the operand latch. -/
  | mgatherExecute (core : Nat)
  /-- QUANTUM_START (R169): The fairness timer reaches PERIOD after a backward branch and the lowest waiting lanes begin a quantum. -/
  | quantumStart (w : Nat)
  /-- GATHERER_TIMER_EXPIRY (R184): A class's oldest record reaches its timer and the class becomes launchable as a partial group. -/
  | gathererTimerExpiry (launch node depth : Nat)
  /-- GATHERER_DISPATCH (R196): The Gatherer passes a launchable class's group to a cluster launch queue with room. -/
  | gathererDispatch
  /-- GROUP_PLACEMENT (R197): The head group of a cluster launch queue is placed on a qualifying core and its waves enter the selector. -/
  | groupPlacement (cl : Nat)
  /-- LAUNCH_STRUCTURE_REREAD (R414): A launch-structure read that faulted is made again every 1 µs. -/
  | launchStructureReread (launch node : Nat)
  /-- CONTINUATION_ENQUEUE (R183): A released continuation record is taken into its node's queue once a slot is free. -/
  | continuationEnqueue (launch : Nat)
  /-- GROUP_TEARDOWN (R118): After an ended group's operations complete, its handles return and zeroing of its reservations begins. -/
  | groupTeardown (g : Nat)
  /-- RESERVATION_ZEROING_DONE (R43): Zeroing of a freed reservation range completes and the range may be placed again. -/
  | reservationZeroingDone (core g : Nat)
  /-- LAUNCH_COMPLETION (R439): A launch ends, performs the system-scope release and writes its completion word. -/
  | launchCompletion (launch : Nat)
  /-- COMPLETION_INTERRUPT (R439): After the completion word's write is acknowledged, the interrupt vector is written to the host. -/
  | completionInterrupt (launch : Nat)
  /-- GROW_GRANT (R200): A waiting GROW is granted, oldest first, once backing room allows. -/
  | growGrant (core : Nat)
  /-- GROW_DEADLOCK_BREAKER (R202): After 256 deadlocked cycles the core demotes registers or spills the newest group until a request is granted. -/
  | growDeadlockBreaker (core : Nat)
  /-- CONTROL_INTERVAL_BOUNDARY (R204): At each 1 µs control interval boundary budgets are rechecked and overruns counted. -/
  | controlIntervalBoundary (cl : Nat) (metered : List (Nat × Nat))
  /-- ENERGY_BUDGET_EXHAUSTED (R205): A cluster's metered energy reaches its budget and it issues nothing for the rest of the interval. -/
  | energyBudgetExhausted (cl : Nat)
  /-- DROOP_TRIP (R211): A cluster's droop detector trips and its clock is halved. -/
  | droopTrip (cl : Nat)
  /-- DROOP_HOLD_EXPIRY (R211): The detector has been clear for the hold time and the cluster returns to full clock. -/
  | droopHoldExpiry (cl : Nat)
  /-- VOLTAGE_SLEW_COMPLETE (R213): A regulator reaches its target voltage during an operating-point change. -/
  | voltageSlewComplete (dom : Nat)
  /-- FREQUENCY_SWITCH (R213): A domain's frequency switches 1 µs after its voltage is reached or its lowering decision. -/
  | frequencySwitch (dom : Nat)
  /-- GOVERNOR_SAMPLE (R214): Every 10 µs an auto-mode governor reads the stall ratio and moves the point by one. -/
  | governorSample (dom stalled : Nat)
  /-- THERMAL_CLAMP_STEP (R215): Above 105 °C a domain's point falls by one every 10 µs. -/
  | thermalClampStep (dom temp : Nat)
  /-- CLUSTER_CLOCK_GATE (R216): A cluster gates its clock 64 cycles after its last ready wave or engine work. -/
  | clusterClockGate (cl : Nat)
  /-- START_EVENT_ADMISSION (R217): The device-wide slew limiter admits a waiting start event. -/
  | startEventAdmission
  /-- BANDWIDTH_INTERVAL (R219): Each 1 µs interval the memory controllers serve contexts by share and pass unserved requests on. -/
  | bandwidthInterval (stack temp : Nat) (demands : List (Nat × Nat))
  /-- HANG_WATCHDOG_EXPIRY (R224): A context's watchdog count reaches its period, stopping its groups and delivering a hang fault. -/
  | hangWatchdogExpiry (ctx : Nat)
  /-- SLICE_EXPIRY (R231): A context's time slice on a shared core runs out and its groups receive stop requests. -/
  | sliceExpiry (core : Nat)
  /-- GROUP_STOP (R244): Once every wave is parked, awaiting a verdict or ended, the group drains and writes its folio. -/
  | groupStop (g : Nat)
  /-- PREEMPT_TIMEOUT (R246): A group not stopped 100 µs after its stop request takes PREEMPT in its unparked waves. -/
  | preemptTimeout (g : Nat)
  /-- PREDONE_TIMEOUT (R246): A group not stopped at 200 µs reports PREDONE_TIMEOUT and takes the full save. -/
  | predoneTimeout (g : Nat)
  /-- GROUP_RESTORE (R250): A stopped group is restored from its folio on a core where placement conditions hold. -/
  | groupRestore (g : Nat)
  /-- FAULT_RING_WRITE (R239): A fault entry is written into a ring once space appears. -/
  | faultRingWrite (ctx : Nat)
  /-- REVOCATION_COMPLETE (R232): A CTXTAKE or CTXFREE completes after its stops and lease horizon, making its handle full. -/
  | revocationComplete (g h : Nat)
  /-- LOCK_RETRY (R355): A LOCK that found the word held retries at the home slice after 64 cycles. -/
  | lockRetry (w : Nat)
  /-- WAITGE_POLL (R358): WAITGE reads its counter again every 64 cycles until it reaches the bound. -/
  | waitgePoll (w : Nat)
  /-- FE_ENABLE (R225): Writing ENABLE 1 checks and enables a front end's partition. -/
  | feEnable (f : Nat)
  /-- FE_DISABLE (R436): Writing ENABLE 0 disables a front end and ends every launch of its partition as KILLED. -/
  | feDisable (f : Nat)
  /-- FE_PRODUCER_COUNT_WRITE (R438): The host writes the submission ring's producer count. -/
  | feProducerCountWrite (f : Nat) (count : BitVec 64)
  /-- FE_SUBMISSION_ENTRY (R438): The front end reads and checks a submission entry and copies its root record into the root queue. -/
  | feSubmissionEntry (f : Nat)
  /-- FE_VERDICT_WRITE (R436): The host writes a verdict and ticket, applying R240 as owner of the front end's ring. -/
  | feVerdictWrite (f : Nat) (word : BitVec 64)
  /-- FE_SETTINGS_WRITE (R436): The host writes a front-end setting register that has no behaviour of its own. -/
  | feSettingsWrite (f off : Nat) (word : BitVec 64)
  /-- POWER_ON_BRINGUP (R442): After power-on units start in the fixed order from boot ROM to UCIe link training. -/
  | powerOnBringup
  /-- ATTESTATION_REQUEST (R441): A host request with a nonce returns a signed attestation report. -/
  | attestationRequest (nonce : BitVec 256)
  /-- AGEING_MONITOR_UPDATE (R443): Each second a cluster's predicted hours to end of life are updated. -/
  | ageingMonitorUpdate (cl hours guard : Nat)
  /-- SELF_TEST_START (R444): A scheduled targeted self-test takes the unit out of use and starts. -/
  | selfTestStart (unit loc : Nat)
  /-- SELF_TEST_COMPLETE (R444): A self-test ends, counting a transient error or retiring the unit. -/
  | selfTestComplete (unit loc : Nat) (pass : Bool)
  /-- ILLEGAL_INSTR (R273): Issue of a parcel or word that does not decode (parcel 0x0000, an unallocated major or fn, a non-zero reserved field, a reserved sub-field value or a bad XMOD pairing) raises ILLEGAL_INSTR at that PC. -/
  | illegalInstr (info : BitVec 64)
  /-- FETCH_FAULT (R14): A lane issues at a PC whose fetch fails (outside the global window, without EX, non-resident or unmapped), and an aperture or translation fault with the fetch bit is taken before any instruction exists. -/
  | fetchFault (f : MemFault)
  /-- WRITE_BACK_ACKNOWLEDGE (R126): A home slice acknowledges an L1 write-back, so that a waiting FENCE.C, FENCE.D, release or IFENCE may continue. -/
  | writeBackAcknowledge (w : Nat)
  /-- HOST_STORE_ACKNOWLEDGE (R126): The host acknowledges a wave's host-window store over UCIe, releasing a FENCE.S that waits for it. -/
  | hostStoreAcknowledge (w : Nat)
  /-- CTXGRANT_MEM (R230): Grants a memory window of the issuer's global window to a child. -/
  | ctxgrantMem (d a b : Nat)
  /-- CTXGRANT_QMEM (R449): Grants queue-memory quota to a child. -/
  | ctxgrantQmem (d a b : Nat)
  /-- CTXGRANT_BIND (R448): Grants the issuer's highest-numbered binding entries to a child. -/
  | ctxgrantBind (d a b : Nat)
  /-- CTXGRANT_ENERGY_IPEAK (R204): Grants energy and current shares on a cluster to a child. -/
  | ctxgrantEnergyIpeak (d a b : Nat)
  /-- CTXGRANT_BANDWIDTH (R219): Grants part of the issuer's HBM bandwidth share to a child. -/
  | ctxgrantBandwidth (d a b : Nat)
  /-- CTXGRANT_ROOT (R392): Reads a submission entry and starts a launch in a child. -/
  | ctxgrantRoot (d a b : Nat)
  /-- CTXGRANT_RESUME (R240): Applies a RETRY, SKIP or KILL verdict to the wave a fault ticket names. -/
  | ctxgrantResume (d a b : Nat)
  /-- CTXTAKE_MEM (R232): Withdraws a granted memory window from a child through a handle. -/
  | ctxtakeMem (h a b : Nat)
  /-- CTXTAKE_QMEM (R448): Takes queue-memory quota back from a child, abandoning records above the new quota. -/
  | ctxtakeQmem (h a b : Nat)
  /-- CTXTAKE_BIND (R448): Takes a child's highest-numbered binding entries back. -/
  | ctxtakeBind (h a b : Nat)
  /-- CTXTAKE_ENERGY_IPEAK (R448): Takes energy and current shares on a cluster back from a child. -/
  | ctxtakeEnergyIpeak (h a b : Nat)
  /-- CTXTAKE_BANDWIDTH (R448): Takes bandwidth share back from a child from the next interval. -/
  | ctxtakeBandwidth (h a b : Nat)
  /-- PWRREQ_WAKE (R65): Requests waking of a gated voltage domain, completing 10 µs later. -/
  | pwrreqWake (d a : Nat)
  /-- PWRREQ_POINT (R212): Requests an operating point and undervolt for a domain, denied below the floor. -/
  | pwrreqPoint (d a : Nat)
  /-- PWRREQ_MODE (R209): Sets fixed or governor mode with a point range for a domain. -/
  | pwrreqMode (d a : Nat)
  /-- PWRREQ_HOLD (R211): Sets a domain's droop hold time. -/
  | pwrreqHold (d a : Nat)
  /-- PWRREQ_QUERY (R210): Returns a domain's power status word. -/
  | pwrreqQuery (d a : Nat)
  deriving DecidableEq, Repr, Inhabited

end Sys2Proof
end

