-- ==== Sys2Proof/Machine/Event.lean ====
section
/-!
DEFINITION. The moves of the device's other agents as they stand in the agenda, one constructor per row of the table
without an encoding that an agent makes by itself (log 5).
-/

namespace Sys2Proof.Machine

/-- A move that is due. Each constructor is the constructor of `Instr` of the same name. -/
inductive Event where
  /-- LOAD_RESULT_RETURN (R177). -/
  | loadResultReturn (w tag : Nat)
  /-- STORE_QUEUE_DRAIN (R121). -/
  | storeQueueDrain (w : Nat)
  /-- REMOTE_ACCESS_ARRIVAL (R25). -/
  | remoteAccessArrival (w tag : Nat)
  /-- REMOTE_ACCESS_REFUSED (R28). -/
  | remoteAccessRefused (w tag : Nat)
  /-- REMOTE_ACKNOWLEDGE (R28). -/
  | remoteAcknowledge (w tag : Nat)
  /-- MAPPING_LEASE_EXPIRY (R27). -/
  | mappingLeaseExpiry (core : Nat)
  /-- L1_LEASE_WRITEBACK (R28). -/
  | l1LeaseWriteback (core line : Nat)
  /-- PAGEREQ_REWALK (R31). -/
  | pagereqRewalk (g h : Nat)
  /-- PAGEREQ_SETTLE_EXPIRY (R31). -/
  | pagereqSettleExpiry (g h : Nat)
  /-- LOCK_BIT_RETRY (R52). -/
  | lockBitRetry (w : Nat)
  /-- BANK_DROWSY_ENTRY (R61). -/
  | bankDrowsyEntry (core bank : Nat)
  /-- BANK_WAKE (R61). -/
  | bankWake (core bank : Nat)
  /-- SPINE_ENTRY_ARRIVAL (R63). -/
  | spineEntryArrival (core : Nat)
  /-- SPINE_CREDIT_RETURN (R63). -/
  | spineCreditReturn (core : Nat)
  /-- SPINE_PAIR_FOLIO_RESTORE (R64). -/
  | spinePairFolioRestore (ctx core : Nat)
  /-- GATE_GRANT (R65). -/
  | gateGrant (dom : Nat)
  /-- DOMAIN_WAKE_COMPLETE (R65). -/
  | domainWakeComplete (dom : Nat)
  /-- CB_SLOT_CLAIM (R55). -/
  | cbSlotClaim (cl e q : Nat)
  /-- COPY_OPERATION_START (R104). -/
  | copyOperationStart (cl e q : Nat)
  /-- COPY_OPERATION_COMPLETE (R107). -/
  | copyOperationComplete (cl e q : Nat)
  /-- MULTICAST_DELIVERY (R111). -/
  | multicastDelivery (cl e q k : Nat)
  /-- MULTICAST_WAIT_EXPIRY (R112). -/
  | multicastWaitExpiry (cl e q k : Nat)
  /-- FOLLOW_ON_PLACEMENT (R113). -/
  | followOnPlacement (cl e q k : Nat)
  /-- MMA_START (R380). -/
  | mmaStart (core g : Nat)
  /-- MMA_ACCUMULATION_COMPLETE (R48). -/
  | mmaAccumulationComplete (core : Nat)
  /-- MZERO_EXECUTE (R383). -/
  | mzeroExecute (core g : Nat)
  /-- MFLAGS_EXECUTE (R384). -/
  | mflagsExecute (core g : Nat)
  /-- MGATHER_EXECUTE (R381). -/
  | mgatherExecute (core : Nat)
  /-- QUANTUM_START (R169). -/
  | quantumStart (w : Nat)
  /-- GATHERER_TIMER_EXPIRY (R184). -/
  | gathererTimerExpiry (launch node depth : Nat)
  /-- GATHERER_DISPATCH (R196). -/
  | gathererDispatch
  /-- GROUP_PLACEMENT (R197). -/
  | groupPlacement (cl : Nat)
  /-- LAUNCH_STRUCTURE_REREAD (R414). -/
  | launchStructureReread (launch node : Nat)
  /-- CONTINUATION_ENQUEUE (R183). -/
  | continuationEnqueue (launch : Nat)
  /-- GROUP_TEARDOWN (R118). -/
  | groupTeardown (g : Nat)
  /-- RESERVATION_ZEROING_DONE (R43). -/
  | reservationZeroingDone (core g : Nat)
  /-- LAUNCH_COMPLETION (R439). -/
  | launchCompletion (launch : Nat)
  /-- COMPLETION_INTERRUPT (R439). -/
  | completionInterrupt (launch : Nat)
  /-- GROW_GRANT (R200). -/
  | growGrant (core : Nat)
  /-- GROW_DEADLOCK_BREAKER (R202). -/
  | growDeadlockBreaker (core : Nat)
  /-- CONTROL_INTERVAL_BOUNDARY (R204). -/
  | controlIntervalBoundary (cl : Nat) (metered : List (Nat × Nat))
  /-- ENERGY_BUDGET_EXHAUSTED (R205). -/
  | energyBudgetExhausted (cl : Nat)
  /-- DROOP_TRIP (R211). -/
  | droopTrip (cl : Nat)
  /-- DROOP_HOLD_EXPIRY (R211). -/
  | droopHoldExpiry (cl : Nat)
  /-- VOLTAGE_SLEW_COMPLETE (R213). -/
  | voltageSlewComplete (dom : Nat)
  /-- FREQUENCY_SWITCH (R213). -/
  | frequencySwitch (dom : Nat)
  /-- GOVERNOR_SAMPLE (R214). -/
  | governorSample (dom stalled : Nat)
  /-- THERMAL_CLAMP_STEP (R215). -/
  | thermalClampStep (dom temp : Nat)
  /-- CLUSTER_CLOCK_GATE (R216). -/
  | clusterClockGate (cl : Nat)
  /-- START_EVENT_ADMISSION (R217). -/
  | startEventAdmission
  /-- BANDWIDTH_INTERVAL (R219). -/
  | bandwidthInterval (stack temp : Nat) (demands : List (Nat × Nat))
  /-- HANG_WATCHDOG_EXPIRY (R224). -/
  | hangWatchdogExpiry (ctx : Nat)
  /-- SLICE_EXPIRY (R231). -/
  | sliceExpiry (core : Nat)
  /-- GROUP_STOP (R244). -/
  | groupStop (g : Nat)
  /-- PREEMPT_TIMEOUT (R246). -/
  | preemptTimeout (g : Nat)
  /-- PREDONE_TIMEOUT (R246). -/
  | predoneTimeout (g : Nat)
  /-- GROUP_RESTORE (R250). -/
  | groupRestore (g : Nat)
  /-- FAULT_RING_WRITE (R239). -/
  | faultRingWrite (ctx : Nat)
  /-- REVOCATION_COMPLETE (R232). -/
  | revocationComplete (g h : Nat)
  /-- LOCK_RETRY (R355). -/
  | lockRetry (w : Nat)
  /-- WAITGE_POLL (R358). -/
  | waitgePoll (w : Nat)
  /-- FE_ENABLE (R225). -/
  | feEnable (f : Nat)
  /-- FE_DISABLE (R436). -/
  | feDisable (f : Nat)
  /-- FE_PRODUCER_COUNT_WRITE (R438). -/
  | feProducerCountWrite (f : Nat) (count : BitVec 64)
  /-- FE_SUBMISSION_ENTRY (R438). -/
  | feSubmissionEntry (f : Nat)
  /-- FE_VERDICT_WRITE (R436). -/
  | feVerdictWrite (f : Nat) (word : BitVec 64)
  /-- FE_SETTINGS_WRITE (R436). -/
  | feSettingsWrite (f off : Nat) (word : BitVec 64)
  /-- POWER_ON_BRINGUP (R442). -/
  | powerOnBringup
  /-- ATTESTATION_REQUEST (R441). -/
  | attestationRequest (nonce : BitVec 256)
  /-- AGEING_MONITOR_UPDATE (R443). -/
  | ageingMonitorUpdate (cl hours guard : Nat)
  /-- SELF_TEST_START (R444). -/
  | selfTestStart (unit loc : Nat)
  /-- SELF_TEST_COMPLETE (R444). -/
  | selfTestComplete (unit loc : Nat) (pass : Bool)
  /-- WRITE_BACK_ACKNOWLEDGE (R126). -/
  | writeBackAcknowledge (w : Nat)
  /-- HOST_STORE_ACKNOWLEDGE (R126). -/
  | hostStoreAcknowledge (w : Nat)
  deriving DecidableEq, Repr, Inhabited

end Sys2Proof.Machine
end

