-- ==== Sys2Proof/Machine/State.lean ====
section
/-!
DEFINITION. The state of the device as plain data: everything the spec gives the machine (INVENTORY.md lists it with the
rules), the faults and refusals, and the state after reset.

Objects that come and go (waves, groups, launches, contexts) and numbered units (cores, clusters, domains, stacks, front
ends) are rows of tables. A unit without a row is in its reset state. Addresses, counts, times and indexes are numbers;
what software sees as bits is a bit vector.
-/

namespace Sys2Proof.Machine

/-- Why the machine stops with a fault. The spec describes every fault of the device as a trap, a ring entry or a status,
so these arise only in states that no run reaches. -/
inductive Fault where
  /-- raised by the launch of a wave's instruction when State.cur names a wave that is not resident; safe: no run reaches
  such a state, because a wave is chosen among the resident ones -/
  | noWave
  deriving DecidableEq, Repr

/-- Why the model gives an instruction no next state. -/
inductive Refusal where
  /-- raised by the dispatcher for an instruction without a meaning; safe -/
  | notModelled (mnemonic : String)
  deriving DecidableEq, Repr

/-- The four typed buffers of a core (R39). -/
inductive Buf where
  | s | a | w | c
  deriving DecidableEq, Repr, Inhabited

/-- Where one access is performed (R121): a device physical byte, with the nominal expiry of its mapping (R28); a byte of
the group's core's typed buffer by physical offset; a byte of host memory. -/
inductive Place where
  | phys (pa exp : Nat)
  | buf (b : Buf) (off : Nat)
  | host (addr : Nat)
  deriving DecidableEq, Repr, Inhabited

/-! ### Waves -/

/-- A recipe-table entry of a wave (R188). -/
structure Recipe where
  /-- entry number on the core -/
  entry : Nat
  /-- first register of the eligible set -/
  dest : Nat
  /-- registers of the eligible set -/
  count : Nat
  /-- lanes active at RMARK -/
  lanes : Word
  /-- recorded jet order -/
  jord : Nat
  /-- recorded RM and FTZ, in the layout of FPCTL -/
  fpctl : DWord
  /-- address of the slice header in the context's global window -/
  slice : Nat
  /-- instructions of the slice -/
  len : Nat
  /-- pinned vector registers -/
  vins : List Nat
  /-- pinned scalar registers -/
  sins : List Nat
  /-- the set is demoted: it holds no storage -/
  demoted : Bool
  /-- time of the last use, for the least-recently-used order of R190 -/
  used : Nat
  deriving DecidableEq, Repr, Inhabited

/-- A regeneration in progress (R191): the entry, the address of the next slice instruction in the context's global window
and how many instructions remain; the bytes of the instruction that reads the register, for SKIP (R192, R240). -/
structure Regen where
  entry : Nat
  pc : Nat
  left : Nat
  skip : Nat := 4
  deriving DecidableEq, Repr, Inhabited

/-- A result on its way to a wave (R177): the elements it writes, the lanes it writes them in, the mask (LDR, SLOCK) or
scalar register it writes, and whether it comes from another package. -/
structure Pending where
  tag : Nat
  vregs : List (Nat × Lanes) := []
  lanes : Word := 0
  mask : Option (Nat × Word × Word) := none
  sreg : Option (Nat × DWord) := none
  /-- dem: the destination stays empty when the result is written (R177) -/
  dem : Bool := false
  remote : Bool := false
  deriving DecidableEq, Repr, Inhabited

/-- What an access to another package does there. -/
inductive RemoteOp where
  | load
  | store (x : List Byte)
  /-- operation code, operand and comparand (R347) -/
  | atomic (code x cmp : Nat)
  deriving DecidableEq, Repr, Inhabited

/-- An access to another package that has left the core (R25, R28): its global address, physical address, nominal expiry and
width; the lane it is made for, the lanes that receive its value, and the byte of the element at which it lands; the result
that it belongs to. An atomic on an 8-byte stack value also has its upper 4 bytes (R17): global and physical address, and
expiry. -/
structure Remote where
  tag : Nat
  owner : Nat
  va : Nat
  pa : Nat
  exp : Nat
  width : Nat
  lane : Nat
  lanes : Word
  off : Nat := 0
  op : RemoteOp := .load
  /-- byte offset of the load from the entry point (LDPC) -/
  pc : Nat := 0
  upper : Option (Nat × Nat × Nat) := none
  deriving DecidableEq, Repr, Inhabited

/-- A fault held back until the register is read (R28): what it reports and the load's offset. -/
structure Deferred where
  fault : MemFault
  lane : Nat
  ldpc : Nat
  deriving DecidableEq, Repr, Inhabited

/-- An access to S that a lock bit holds up (R52): the banks that refused it, since when, and when it is presented again. -/
structure LockWait where
  banks : List Nat
  since : Nat
  due : Nat
  deriving DecidableEq, Repr, Inhabited

/-- What a wave is doing. -/
inductive Phase where
  /-- issuing, or waiting at an instruction that it will try again -/
  | run
  /-- arrived at the `k`-th barrier of a set; parked there with a liveness entry, or not (R172, R244) -/
  | bar (set k : Nat) (live : Option Nat)
  /-- arrived at the `k`-th launch barrier; parked there, or not (R173, R244) -/
  | lbar (k : Nat) (live : Option Nat)
  /-- parked by PREDONE with a liveness entry (R246) -/
  | predone (live : Nat)
  /-- stopped at an instruction until a verdict on the ticket (R238) -/
  | verdict (ticket : Nat)
  /-- register wait for backing of `n` register names since the given time: of GROW (R200), or of a regeneration (R201) -/
  | regWait (n since : Nat) (grow : Bool)
  /-- no live lane, or killed (R165, R240) -/
  | ended
  deriving DecidableEq, Repr, Inhabited

/-- One wave: its lanes, its scalar side and its wave registers (R163, R176, R398). -/
structure Wave where
  /-- number of its group -/
  group : Nat := 0
  /-- WID, its index in the group -/
  wid : Nat := 0
  /-- wave slot of its core -/
  slot : Nat := 0
  /-- placement order: lower is older (R199) -/
  placed : Nat := 0
  /-- the Ductus; in handler mode, the interrupted Ductus (R164, R236) -/
  dx : Lanes := lanesOf fun _ => 0xFFFFFFFF
  /-- the handler Ductus, all ones outside handler mode (R236, R249) -/
  hdx : Lanes := lanesOf fun _ => 0xFFFFFFFF
  /-- in handler mode (R236) -/
  handler : Bool := false
  /-- handler mode was entered by PREEMPT (R246) -/
  preempted : Bool := false
  /-- PREEMPT is due before the next issue outside handler mode (R246) -/
  preemptDue : Bool := false
  /-- lanes that sleep (R175) -/
  sleeping : Word := 0
  /-- v0 to v127; a register without a row reads zero (R60) -/
  v : Tab Lanes := ⟨[]⟩
  /-- the full/empty bits: bit n = 1, vn is empty (R177) -/
  empty : BitVec 128 := 0
  /-- deferred faults of empty registers (R28) -/
  deferred : Tab Deferred := ⟨[]⟩
  /-- s0 to s31 -/
  s : Tab DWord := ⟨[]⟩
  /-- scalars whose producer is outstanding (R282, R384) -/
  sbusy : Word := 0
  /-- deferred faults of scalars (R28) -/
  sdeferred : Tab Deferred := ⟨[]⟩
  /-- lanes of vector registers that hold an uncorrectable word (R241) -/
  bad : Tab Word := ⟨[]⟩
  /-- m1 to m15 (m0 reads all ones, R283) -/
  m : Tab Word := ⟨[]⟩
  /-- masks whose producer is outstanding (R345) -/
  mbusy : BitVec 16 := 0
  jord : DWord := 0
  jsr : DWord := 0
  fpctl : DWord := 0
  ppoint : DWord := 0x1000
  tvec : DWord := 0
  tcause : DWord := 0
  tepc : DWord := 0
  taddr : DWord := 0
  tinfo : DWord := 0
  /-- fairness timer in cycles (R169) -/
  timer : Nat := 0
  /-- a backward branch was taken since the last reset of the timer (R169) -/
  backBranch : Bool := false
  /-- the next issue begins a quantum (R169, R170) -/
  quantumDue : Bool := false
  /-- quantum in progress: its lanes and the instructions issued -/
  quantum : Option (Word × Nat) := none
  /-- Nib lane (R174) -/
  nib : Nat := 0
  /-- granules held (R200) -/
  granules : Nat := 1
  /-- stack slot (R16) -/
  stackSlot : Option Nat := none
  /-- XMOD of the pair being issued (R269) -/
  pre : Option Xmod := none
  /-- the pair's third source is vd whatever the prefix says (R280) -/
  preVd : Bool := false
  recipes : List Recipe := []
  /-- regenerations in progress, innermost first (R191, R365) -/
  regen : List Regen := []
  /-- entries that the instruction waiting for a regeneration has yet to read (R190) -/
  needs : List Nat := []
  /-- results on their way (R177) -/
  pending : List Pending := []
  /-- stores in the queue, oldest first (R121) -/
  storeQ : List (Place × List Byte) := []
  /-- the oldest of them waits for a lock bit, and holds the wave (R52) -/
  storeWait : Option LockWait := none
  /-- write-backs of a fence or release not yet acknowledged (R126, R132) -/
  wbOut : Nat := 0
  /-- the L1 scan of the fence or release being executed has been made -/
  scanned : Bool := false
  /-- host-window stores not yet acknowledged (R126) -/
  hostOut : Nat := 0
  /-- accesses to other packages under way (R28) -/
  remotes : List Remote := []
  /-- a remote store or atomic awaits acknowledgement: the wave issues nothing (R28) -/
  remoteHold : Bool := false
  /-- the result of the atomic that is held, and the fault of a retranslation, with whether it is an atomic's and its lane -/
  held : Option Pending := none
  remoteFault : Option (MemFault × Bool × Nat) := none
  /-- lock bits taken by the SLOCK being executed, with its elements so far (R350, R366) -/
  slocks : List (Nat × Nat) := []
  phase : Phase := .run
  /-- the lanes and the PC of the instruction at which the wave waits: it has issued (R8, R165) -/
  stay : Option (Word × Nat) := none
  /-- the instruction at the issue PC waits (block_until, R8); cleared when anything else moves -/
  waiting : Bool := false
  /-- bytes from the barrier or GROW at which it waits to the next instruction (R269, R306, R363) -/
  barLen : Nat := 4
  /-- an uncorrectable error that a command of the wave met, taken at its next issue (R241): TADDR and TINFO -/
  alarm : Option (DWord × DWord) := none
  /-- time before which a retry is not made (R52, R355, R358) -/
  retryAt : Nat := 0
  /-- the instruction waits for lock bits of S (R52) -/
  bankWait : Option LockWait := none
  /-- the BAR or LBAR at which it waits has passed its checks, which are made once (R273, R306) -/
  checked : Bool := false
  /-- verdict recorded while the group was stopped (R240) -/
  recorded : Option Nat := none
  /-- next tag of a result or remote access -/
  nextTag : Nat := 0
  deriving DecidableEq, Repr, Inhabited

/-! ### Groups -/

/-- The fields of an Endpaper (R406); `addr` is its address, the entry point is `addr + 64`. -/
structure Endpaper where
  addr : Nat := 0
  gen : Nat := 3
  gran : Nat := 1
  nib : Bool := false
  handler : Bool := false
  promise : Bool := false
  recipes : Bool := false
  reflect : Word := 0
  sres : Nat := 0
  ares : Nat := 0
  wres : Nat := 0
  cres : Nat := 0
  htFirst : Nat := 0
  htCount : Nat := 0
  recsz : Nat := 1
  target : Nat := 32
  timer : Nat := 0
  depth : Nat := 0
  energy : Nat := 1
  ipeak : Nat := 1
  hoff : Nat := 0
  liveOff : Int := 0
  rcpOff : Int := 0
  rcpLen : Nat := 0
  compat : DWord := 0
  deriving DecidableEq, Repr, Inhabited

/-- A base and a size, in bytes (R42). -/
structure Range where
  base : Nat := 0
  size : Nat := 0
  deriving DecidableEq, Repr, Inhabited

/-- The fields of a handle's status word (R106). -/
structure HStatus where
  /-- 0 free, 1 filling, 2 full, 3 draining -/
  state : Nat := 0
  code : Nat := 0
  skip : Nat := 0
  reason : Nat := 0
  conv : Nat := 0
  tflags : Nat := 0
  len : Nat := 0
  deriving DecidableEq, Repr, Inhabited

/-- What a filling handle waits for, beside an engine operation (R31, R232). -/
inductive HandleWork where
  | idle
  /-- an engine operation -/
  | engine
  /-- PAGEREQ.FILL of an address, waiting on a page of an owner once that is known -/
  | fill (va : Nat) (entry : Option (Nat × Nat))
  /-- PAGEREQ.SETTLE until a time -/
  | settle (due : Nat)
  /-- a CTXTAKE or CTXFREE; its steps stand with the issuing context -/
  | revoke
  deriving DecidableEq, Repr, Inhabited

/-- A copy handle of a group (R105). -/
structure Handle where
  /-- the name holds a physical handle -/
  bound : Bool := false
  st : HStatus := {}
  work : HandleWork := .idle
  /-- a fault that the first instruction naming the handle takes (R109, R370): cause, TADDR, TINFO -/
  poison : Option (Nat × DWord × DWord) := none
  deriving DecidableEq, Repr, Inhabited

/-- A membership set (R171, R172): member map, tile issuer, number of completed barriers, and, once a wave has arrived
(`begun`), the counted and arrived waves. -/
structure MSet where
  members : BitVec 16 := 0
  issuer : Option Nat := none
  k : Nat := 0
  begun : Bool := false
  counted : BitVec 16 := 0
  arrived : BitVec 16 := 0
  deriving DecidableEq, Repr, Inhabited

/-- A semiring of the matrix array (R90), in fn order. -/
inductive Semiring where
  | ptBf16 | ptDpw8 | ptF32 | minp | maxp | maxt | orand
  deriving DecidableEq, Repr, Inhabited

/-- What a matrix command does (R379, R383, R384). -/
inductive MatOp where
  | mma (sr : Semiring) (sat : Bool) (a b : DWord)
  | mzero
  /-- the wave and scalar that receive the word, and the clearing form -/
  | mflags (w sd : Nat) (clr : Bool)
  deriving DecidableEq, Repr, Inhabited

/-- A matrix command in a core's queue (R375): its group, whether it was issued in handler mode, its tile descriptor, the
gather its latch operand needs, and, while the accumulation is due, the 4,096 sums with the flags of their formation. -/
structure MatCmd where
  group : Nat
  /-- the wave that issued it; none for a follow-on (R113) -/
  wave : Option Nat := none
  inHandler : Bool := false
  op : MatOp
  tile : DWord
  latch : Nat := 0
  started : Bool := false
  sums : List Word := []
  flags : Nat := 0
  deriving DecidableEq, Repr, Inhabited

/-- A gather in a core's queue (R381): its group, number, row length, source offset, descriptor and 64 indexes. -/
structure Gather where
  group : Nat
  seq : Nat
  desc : DWord
  idx : List Word
  wave : Nat := 0
  deriving DecidableEq, Repr, Inhabited

/-- A circular-buffer descriptor (R54, R55). -/
structure CBuf where
  valid : Bool := false
  buf : Nat := 0
  count : Nat := 0
  slot : Nat := 0
  base : Nat := 0
  owner : Nat := 0
  wridx : Nat := 0
  rdidx : Nat := 0
  filled : Nat := 0
  free : Nat := 0
  /-- claimed slots in claim order, with whether each has landed -/
  claimed : List (Nat × Bool) := []
  /-- slots taken by CBWAIT and not yet released -/
  taken : Nat := 0
  deriving DecidableEq, Repr, Inhabited

/-- The Spine FIFO into a core (R62, R63): entries in push order with their arrival times, the sender's free count, and
the times at which credits return. -/
structure Spine where
  entries : List (Nat × Lanes) := []
  free : Nat := 16
  credits : List Nat := []
  deriving DecidableEq, Repr, Inhabited

/-- A tensor layout record as read (R95). -/
structure Layout where
  base : Nat := 0
  format : Nat := 0
  ctype : Nat := 0
  ndim : Nat := 0
  smooth : Bool := false
  schan : Nat := 0
  fill : Word := 0
  nblk : Nat := 0
  bdim : Nat := 0
  sptr : Nat := 0
  list : Nat := 0
  /-- extent, stride, box of each dimension from 0 to NDIM -/
  dims : List (Nat × Int × Nat) := []
  deriving DecidableEq, Repr, Inhabited

/-- One wave's slice of an operation (R102): WID, starts and window offset. -/
structure Slice where
  wid : Nat
  starts : List Int
  d : Nat
  deriving DecidableEq, Repr, Inhabited

/-- A target of an operation: cluster position, state (0 waiting, 1 delivered, 2 skipped), its group, and whether its
follow-on still waits for a place (R112, R113). -/
structure Target where
  k : Nat
  state : Nat := 0
  group : Option Nat := none
  deadline : Nat := 0
  follow : Bool := false
  deriving DecidableEq, Repr, Inhabited

/-- An operation in an engine queue (R102 to R104). -/
structure EngineOp where
  drain : Bool
  group : Nat
  launch : Nat
  set : Nat
  /-- number of the set's operation (R102) -/
  num : Nat
  handle : Nat
  recAddr : Nat
  layout : Layout
  /-- destination of a copy, source of a drain: 0 S, 1 A, 2 W, 3 C (R368) -/
  buf : Nat
  cb : Option Nat := none
  mcast : Nat := 0
  /-- follow-on word and captured tile, A and B descriptors (R370) -/
  follow : Option (Word × DWord × DWord × DWord) := none
  counted : List Nat := []
  slices : List Slice := []
  started : Bool := false
  /-- claimed slot of the circular buffer -/
  slot : Option Nat := none
  targets : List Target := []
  /-- result gathered so far -/
  res : HStatus := {}
  cancelled : Bool := false
  /-- its writes to S of a core wait for lock bits, by core (R52) -/
  waits : Tab LockWait := ⟨[]⟩
  deriving DecidableEq, Repr, Inhabited

/-- Where a group stands. -/
inductive GroupPhase where
  /-- formed by the Gatherer, in a cluster's launch queue (R196) -/
  | queued
  | resident
  /-- stopped, with the kind of its folio: 0 liveness, 1 full, 2 spill (R249) -/
  | stopped (kind : Nat)
  /-- placed again, with the kind of the folio that is being restored (R250) -/
  | restoring (kind : Nat)
  /-- every wave has ended; its operations complete before its resources are freed (R118) -/
  | ending
  | ended
  deriving DecidableEq, Repr, Inhabited

/-- The group holds resources of its core. -/
def GroupPhase.holds : GroupPhase → Bool
  | .resident => true
  | .restoring _ => true
  | .ending => true
  | _ => false

/-- A group (R163). -/
structure Group where
  ctx : Nat := 0
  launch : Nat := 0
  node : Nat := 0
  gid : Nat := 0
  /-- depth of the class it was launched from (s2, R184) -/
  depth : Nat := 0
  /-- queue base it received in s3 (R385) -/
  launchBase : Nat := 0
  ep : Endpaper := {}
  waves : Nat := 1
  core : Nat := 0
  /-- order of its latest placement (R202) -/
  placedAt : Nat := 0
  phase : GroupPhase := .queued
  rs : Range := {}
  ra : Range := {}
  rw : Range := {}
  rc : Range := {}
  /-- lock bits of the folio: word offset in the S reservation and WID (R53) -/
  savedLocks : List (Nat × Nat) := []
  sets : Tab MSet := ⟨[]⟩
  handles : Tab Handle := ⟨[]⟩
  /-- the operand latch and its row length (R382) -/
  latch : List Byte := []
  latchRow : Nat := 0
  /-- gathers issued, and gathers completed -/
  gathers : Nat := 0
  gathered : Nat := 0
  /-- slices issued by wave w on set g, under key 16 g + w (R102), counted as the operation number -/
  copies : Tab Nat := ⟨[]⟩
  /-- matrix commands held while the group is in handler mode (R242) -/
  frozen : List MatCmd := []
  /-- slots it received, in record order -/
  records : List Nat := []
  /-- folio slot (R248) -/
  folio : Nat := 0
  stopReq : Option Nat := none
  /-- the group is being stopped where it stands, with the kind of its folio: 1 full, 2 spill (R202, R247) -/
  forced : Option Nat := none
  /-- engine operations withdrawn at the stop, with their queues (R118) -/
  withdrawn : List (Nat × EngineOp) := []
  /-- circular buffers and tile metadata of the folio (R248) -/
  savedCbs : List (Nat × CBuf) := []
  savedTiles : List (Nat × Word) := []
  /-- images of the reservations in the folio: buffer, and the bytes by window offset (R248) -/
  images : List (Buf × Memory) := []
  /-- Spine FIFOs into and out of the group's core that the folio holds (R64) -/
  spineIn : Option Spine := none
  spineOut : Option Spine := none
  /-- the folio's bytes were written into the save area (R248) -/
  folioWritten : Bool := false
  /-- consecutive overrun intervals, and an admission fault armed for the next barrier (R206) -/
  overruns : Nat := 0
  admission : Bool := false
  deriving DecidableEq, Repr, Inhabited

/-! ### Cores and clusters -/

/-- A line of the L1 data cache (R56): line number (physical address div 128), valid and dirty masks, the 128 bytes as one
little-endian vector, the earliest expiry among the stores whose bytes it holds dirty (R28), and the context that used it
last. -/
structure L1Line where
  line : Nat
  valid : BitVec 128
  dirty : BitVec 128
  data : BitVec 1024
  exp : Nat := 0
  ctx : Nat := 0
  deriving DecidableEq, Repr, Inhabited

/-- A composed mapping (R22): page in the context's window, page size, physical address, permissions, expiry, and the
earliest moment at which an entry it depends on was read (R27). -/
structure Mapping where
  ctx : Nat
  va : Nat
  size : Nat
  pa : Nat
  wr : Bool
  ex : Bool
  exp : Nat
  born : Nat
  deriving DecidableEq, Repr, Inhabited

/-- One core. -/
structure Core where
  s : Memory := []
  a : Memory := []
  w : Memory := []
  c : Memory := []
  /-- tile metadata words (R46) -/
  tiles : Tab Word := ⟨[]⟩
  /-- held lock bits: key 4 × bank + h, value the holding wave's number (R51) -/
  locks : Tab Nat := ⟨[]⟩
  /-- the physical offset of the word through which each held lock bit was taken (R53) -/
  lockWords : Tab Nat := ⟨[]⟩
  /-- ranges still being zeroed: buffer and range, with the group that held them (R43) -/
  zeroing : List (Nat × Buf × Range) := []
  cbs : Tab CBuf := ⟨[]⟩
  /-- L1 lines, most recently used first -/
  l1 : List L1Line := []
  tlb : List Mapping := []
  /-- the instruction cache: parcels that were fetched, by physical address (R360) -/
  icache : Tab Nat := ⟨[]⟩
  spine : Spine := {}
  matrixQ : List MatCmd := []
  gatherQ : List Gather := []
  /-- the group whose command the array took last, for the rotating order (R375) -/
  lastGroup : Nat := 0
  /-- banks of the register file in drowsy retention (R61) -/
  drowsy : BitVec 16 := 0
  /-- consecutive cycles of grow deadlock are counted from this time (R202) -/
  deadlockSince : Option Nat := none
  /-- holder of the core's turn among the children of each context that shares it (R231), key the parent -/
  turns : Tab Nat := ⟨[]⟩
  /-- the time at which the slice of each such holder runs out (R231) -/
  turnEnds : Tab Nat := ⟨[]⟩
  /-- contexts whose use of the core is ending: their groups stop, then their Spine entries are saved; with whether their
  descendants stop as well (R64, R231, R232) -/
  leaving : List (Nat × Bool) := []
  retired : Bool := false
  /-- a self-test has taken the core out of use (R444) -/
  testing : Bool := false
  deriving DecidableEq, Repr, Inhabited

/-- One cluster. -/
structure Cluster where
  /-- launch queue: group numbers (R196) -/
  queue : List Nat := []
  /-- engine queues, key 4 e + q (R114) -/
  engines : Tab (List EngineOp) := ⟨[]⟩
  /-- metering stopped the cluster for the rest of the interval (R205) -/
  stopped : Bool := false
  /-- clock halved by droop (R211) -/
  halved : Bool := false
  /-- the clock was halved at some time of the current us (R222) -/
  slowed : Bool := false
  /-- clock gated (R216) -/
  gated : Bool := false
  /-- until when it last had a ready wave or an engine operation in progress (R216) -/
  busyAt : Nat := 0
  /-- the cluster TLB, latest first: at most 2,048 mappings (R27) -/
  tlb : List Mapping := []
  guard : Nat := 0
  trans : Nat := 0
  eol : Word := 0xFFFFFFFF
  deriving DecidableEq, Repr, Inhabited

/-- One voltage domain (R208 to R215). -/
structure Domain where
  point : Nat := 24
  underv : Nat := 0
  auto : Bool := false
  lo : Nat := 0
  hi : Nat := 24
  gated : Bool := false
  gatePending : Bool := false
  waking : Bool := false
  /-- droop hold in units of 0.25 us (R211) -/
  hold : Nat := 8
  /-- change in progress: the step under way (point, undervolt) and the target that replaces it (R210, R213) -/
  step : Option (Nat × Nat) := none
  target : Option (Nat × Nat) := none
  /-- of the step: the voltage has been reached, the frequency has been switched -/
  slewed : Bool := false
  switched : Bool := false
  /-- a mode (auto, lowest and highest index) to be applied when the change is done (R209) -/
  mode : Option (Bool × Nat × Nat) := none
  clamped : Bool := false
  /-- while the clamp holds: the point to which it has brought the domain (R215) -/
  clampedPoint : Nat := 24
  /-- cycles of the present 10 us in which it had resident waves and none ready for lack of a memory result (R214) -/
  stalled : Nat := 0
  deriving DecidableEq, Repr, Inhabited

/-! ### Contexts, launches and front ends -/

/-- A fault-ring entry (R239). -/
structure RingEntry where
  ctx : Nat := 0
  tcause : Nat := 0
  tepc : Nat := 0
  taddr : DWord := 0
  tinfo : DWord := 0
  gid : Nat := 0
  word2c : Nat := 0
  ticket : Nat := 0
  deriving DecidableEq, Repr, Inhabited

/-- A stopped wave's ticket (R240): the wave, the owner of the ring that holds the entry (a context, or the front end of a
partition), the offset of the trap and the bytes that SKIP moves past. -/
structure Ticket where
  wave : Nat
  tepc : Nat
  ring : Nat
  frontEnd : Bool
  skip : Nat
  deriving DecidableEq, Repr, Inhabited

/-- A CTXTAKE, or a CTXFREE (kind none), under way (R232): the child, the grant word, the handle that reports it, the cores
whose groups stop first, and, once the resource is withdrawn, when it completes. -/
structure Revoke where
  child : Nat
  kind : Option Nat
  word : DWord := 0
  group : Nat
  handle : Nat
  cores : List Nat := []
  due : Option Nat := none
  deriving DecidableEq, Repr, Inhabited

/-- A context (R226, R228). -/
structure Context where
  depth : Nat := 1
  parent : Option Nat := none
  root : Nat := 0
  stackBase : Nat := 0
  stkSize : Nat := 0
  stkSlots : Nat := 0
  prqBase : Nat := 0
  prqSize : Nat := 0
  prqEn : Bool := false
  lease : Nat := 64
  /-- earlier values of LEASE, with the time at which each ended (R26) -/
  leases : List (Nat × Nat) := []
  saveBase : Nat := 0
  saveSlots : Nat := 1
  fltBase : Nat := 0
  fltSize : Nat := 0
  fltEn : Bool := false
  qbase : Nat := 0
  wdog : Nat := 500
  slice : Nat := 1000
  /-- of a partition: its first and last cluster (R225) -/
  span : Option (Nat × Nat) := none
  /-- cores granted, with the SHARED bit (R229) -/
  cores : List (Nat × Bool) := []
  /-- granted windows: base and length in bytes in the parent's window (R230) -/
  windows : List Range := []
  /-- queue-memory quota in bytes (R449) -/
  qmem : Nat := 0
  /-- energy share per cluster in nJ, and current share in mA (R204) -/
  energy : Tab Nat := ⟨[]⟩
  ipeak : Tab Nat := ⟨[]⟩
  /-- HBM bandwidth share in units of 1/256 (R219) -/
  share : Nat := 0
  colours : BitVec 16 := 0
  /-- binding table: count and entries (bytes 0x00 to 0x07, bytes 0x08 to 0x0F) (R129, R130) -/
  bindCount : Nat := 0
  binds : Tab (DWord × DWord) := ⟨[]⟩
  pmc : Tab DWord := ⟨[]⟩
  spills : Nat := 0
  overruns : Nat := 0
  shortfall : DWord := 0
  shortArmed : Bool := true
  /-- time of the last shortfall event (R221) -/
  shortAt : Option Nat := none
  /-- its own bytes passed to the next interval, by stack (R219), and whether some request of it or of a descendant was so
  passed in this us -/
  carry : Tab Nat := ⟨[]⟩
  throttled : Bool := false
  abandoned : Nat := 0
  /-- us counted by the watchdog (R222) -/
  wdogCount : Nat := 0
  hung : Bool := false
  /-- its hang fault is still to be delivered, when its groups have stopped (R224) -/
  hangDue : Bool := false
  /-- stack slots and folio slots in use (R16, R248) -/
  stackUsed : List Nat := []
  folioUsed : List Nat := []
  /-- ring entries that wait for space, oldest first (R239) -/
  ringQ : List RingEntry := []
  /-- pages, owners and fault marks of page-request entries already written (R32, R33): page address in this owner's
  window, and whether the ring's failure was raised -/
  requested : List (Nat × Bool) := []
  /-- ROOT grants made to it (SEQ, R439) -/
  roots : Nat := 0
  /-- pair folios in its save area: slot, lower core, the two FIFOs (R64) -/
  pairFolios : List (Nat × Nat × Spine × Spine) := []
  /-- it is being freed (R232) -/
  freeing : Bool := false
  /-- its own revocations under way (R232) -/
  revokes : List Revoke := []
  deriving DecidableEq, Repr, Inhabited

/-- The state of one slot of a node's queue (R181). -/
inductive SlotState where
  | allocated (g : Nat)
  | committed
  | assigned (g : Nat)
  deriving DecidableEq, Repr, Inhabited

/-- A committed record waiting in its class (R184): slot, depth, arrival time. -/
structure Rec where
  slot : Nat
  depth : Nat
  time : Nat
  deriving DecidableEq, Repr, Inhabited

/-- An entry of a liveness table as read (R408): the barrier's offset, the tile and register maps, and the ranges of S, first
KiB and length. -/
structure LiveEntry where
  off : Nat := 0
  tiles : BitVec 16 := 0
  regs : BitVec 128 := 0
  ranges : List (Nat × Nat) := []
  deriving DecidableEq, Repr, Inhabited

/-- A slice of a recipe section as the launch check read it (R409): the header's offset in the section in parcels, its
destination and its instructions, each with its length in bytes. -/
structure RSlice where
  off : Nat
  dest : Nat
  code : List (Instr × Nat)
  deriving DecidableEq, Repr

/-- A node of a launch (R179, R407). -/
structure Node where
  ep : Endpaper := {}
  /-- its 16-byte table entry and the 64 bytes of its Endpaper, as read at the start of the launch (R407, R414) -/
  entry : List Byte := []
  page : List Byte := []
  cap : Nat := 32
  prio : Nat := 0
  /-- queue base, a generic address -/
  base : Nat := 0
  /-- slots that are not free -/
  slots : Tab SlotState := ⟨[]⟩
  /-- next slot in ring order (R385) -/
  ring : Nat := 0
  exhausted : Nat := 0
  abandoned : Nat := 0
  /-- it failed an RQALLOC since its last launch (R185) -/
  starved : Bool := false
  /-- launch check: 0 not made, 1 passed, 2 failed (R414) -/
  check : Nat := 0
  /-- the liveness table and the recipe section, as read at the launch check (R414) -/
  live : List LiveEntry := []
  slices : List RSlice := []
  /-- a structure read faulted and the fault was delivered (R414) -/
  readFault : Bool := false
  /-- the admission fault of R207 was raised -/
  admission : Bool := false
  /-- committed records in commit order -/
  ready : List Rec := []
  deriving DecidableEq, Repr, Inhabited

/-- A launch (R163). -/
structure Launch where
  ctx : Nat := 0
  table : Nat := 0
  completion : Nat := 0
  vector : Word := 0xFFFFFFFF
  seq : Nat := 0
  /-- front end that submitted it, or none for a ROOT grant -/
  frontEnd : Option Nat := none
  /-- time at which its root record reached the Gatherer (R185) -/
  start : Nat := 0
  nodes : Tab Node := ⟨[]⟩
  nodeCount : Nat := 1
  /-- the header of the node table, as read at the start (R407, R414) -/
  header : List Byte := []
  nextGid : Nat := 0
  /-- completed launch barriers, whether a wave has arrived at the current one, and its counted and arrived waves (R173) -/
  lk : Nat := 0
  lbegun : Bool := false
  lcounted : List Nat := []
  larrived : List Nat := []
  /-- cores on which a group of the launch has been placed (R112) -/
  ranOn : List Nat := []
  /-- continuation records waiting for a slot: their addresses and nodes (R183) -/
  continuations : List (Nat × Nat) := []
  /-- the join blocks that committed records or RQJOIN have named, with the nodes of their continuations (R131) -/
  joins : List (Nat × Nat) := []
  /-- killed, or stopped by a hang (R439, R224) -/
  killed : Bool := false
  hung : Bool := false
  ended : Bool := false
  /-- interrupt still to be written -/
  interrupt : Bool := false
  /-- a completion word that its front end, in ring error, has not written (R438) -/
  owed : Option Nat := none
  deriving DecidableEq, Repr, Inhabited

/-- A command front end's registers (R436). -/
structure FrontEnd where
  settings : Memory := []
  range : DWord := 0
  budgets : DWord := 0
  enable : Bool := false
  status : Nat := 0
  ringBase : DWord := 0
  ringSize : DWord := 0
  produced : DWord := 0
  consumed : DWord := 0
  interrupt : DWord := 0
  quota : DWord := 0
  verdict : Nat := 0
  event : RingEntry := {}
  events : Nat := 0
  /-- the front end waits for room in the root queue or the queue memory -/
  stalled : Bool := false
  /-- the launches whose completion words it owes, in the order in which they ended (R438, R439) -/
  owes : List Nat := []
  deriving DecidableEq, Repr, Inhabited

/-- The signed configuration block in use (R441). -/
structure PackageConfig where
  package : Nat := 0
  /-- packages of the load-store domain -/
  domain : List Nat := []
  remoteColours : BitVec 16 := 0
  budgetE : Nat := 12000
  budgetI : Nat := 16000
  /-- floor voltages in mV by operating point -/
  floors : Tab Nat := ⟨[]⟩
  /-- operating point and undervolt of a domain without an owner (R208) -/
  fixed : Tab (Nat × Nat) := ⟨[]⟩
  version : Nat := 0
  deriving DecidableEq, Repr, Inhabited

/-- A copy of the configuration block in flash: whether its signature verifies, and the block (R441). -/
structure FlashCopy where
  valid : Bool := true
  block : PackageConfig := {}
  deriving DecidableEq, Repr, Inhabited

/-- The firmware: whether its signature verifies, and the lowest version of a configuration block that it accepts (R441). -/
structure Firmware where
  valid : Bool := true
  minVersion : Nat := 0
  deriving DecidableEq, Repr, Inhabited

/-- A start event waiting for the slew limiter (R217): its cluster, and the launch and barrier whose waves depart at it. -/
structure StartEvent where
  cluster : Nat
  barrier : Option (Nat × Nat) := none
  /-- a restored group whose waves depart (R250) -/
  group : Option Nat := none
  /-- the return to the full clock after droop (R211) -/
  droop : Bool := false
  /-- when it was raised -/
  raised : Nat := 0
  deriving DecidableEq, Repr, Inhabited

/-- An attestation report (R441). -/
structure Report where
  nonce : BitVec 256
  package : Nat
  boot : BitVec 512
  firmware : BitVec 512
  config : BitVec 512
  signature : BitVec 238336
  deriving DecidableEq, Repr

/-- The state of the device. -/
structure State where
  /-- arithmetic-clock cycles since power-on (R2) -/
  now : Nat := 0
  /-- moves that are due, by time (log 5) -/
  agenda : List (Nat × Event) := []
  /-- number of the wave that issues (log 4) -/
  cur : Nat := 0
  /-- waves that are to issue next, in order (log 4) -/
  turn : List Nat := []
  /-- for how many cycles each ready wave has been passed over (R199) -/
  passed : Tab Nat := ⟨[]⟩
  /-- waves that have issued in the present cycle, with the kind of slot they used (R199) -/
  issuedNow : List (Nat × Nat) := []
  /-- the two copies of the configuration block in flash, and the firmware (R441) -/
  flash : List FlashCopy := [{}, {}]
  firmware : Firmware := {}
  /-- the configuration block in use (R441) -/
  config : PackageConfig := {}
  up : Bool := false
  hbm : Memory := []
  host : Memory := []
  /-- lines of each set of the memory-side cache, most recently used first: key slice × 2,048 + set (R58) -/
  msc : Tab (List Nat) := ⟨[]⟩
  /-- the caches of the 64 page-table walkers: composed mappings of the ancestors' pages, latest first (R22, R27) -/
  walkers : Tab (List Mapping) := ⟨[]⟩
  /-- home slices of the cache: 0 normal, 1 under self-test, 2 bypassed (R59, R444) -/
  slices : Tab Nat := ⟨[]⟩
  /-- HBM rows: 1 under self-test, its data moved; 2 replaced by a spare (R444) -/
  rows : Tab Nat := ⟨[]⟩
  /-- the cluster whose core met the last error of a slice (even keys) or an HBM row (odd keys) (R443, R444) -/
  metIn : Tab Nat := ⟨[]⟩
  /-- words of 64 bits with an uncorrectable error (R44): unit code (R241), core, and address or offset div 8; of a tile's
  metadata word the tile's number, of a recipe its entry -/
  uncorr : List (Nat × Nat × Nat) := []
  waves : Tab Wave := ⟨[]⟩
  groups : Tab Group := ⟨[]⟩
  cores : Tab Core := ⟨[]⟩
  clusters : Tab Cluster := ⟨[]⟩
  domains : Tab Domain := ⟨[]⟩
  /-- thermal state of each HBM stack: 0 normal, 1 hot, 2 capped (R220) -/
  hbmStacks : Tab Nat := ⟨[]⟩
  ctxs : Tab Context := ⟨[]⟩
  launches : Tab Launch := ⟨[]⟩
  frontEnds : Tab FrontEnd := ⟨[]⟩
  tickets : Tab Ticket := ⟨[]⟩
  /-- start events that wait, and the times of those admitted (R217) -/
  starts : List StartEvent := []
  admitted : List Nat := []
  report : Option Report := none
  /-- interrupts and event notices sent to the host, newest first: address or front end, value -/
  sent : List (Nat × Nat) := []
  nextGroup : Nat := 0
  nextLaunch : Nat := 0
  nextTicket : Nat := 1
  placements : Nat := 0
  deriving DecidableEq, Repr

/-! ### Rows with their reset values -/

/-- Wave `k`. -/
def State.wave (s : State) (k : Nat) : Wave := s.waves.getD k {}
/-- Sets wave `k`. -/
def State.setWave (s : State) (k : Nat) (w : Wave) : State := { s with waves := s.waves.set k w }
/-- Group `g`. -/
def State.group (s : State) (g : Nat) : Group := s.groups.getD g {}
/-- Sets group `g`. -/
def State.setGroup (s : State) (g : Nat) (x : Group) : State := { s with groups := s.groups.set g x }
/-- Core `n`. -/
def State.core (s : State) (n : Nat) : Core := s.cores.getD n {}
/-- Sets core `n`. -/
def State.setCore (s : State) (n : Nat) (x : Core) : State := { s with cores := s.cores.set n x }
/-- Cluster `c`. -/
def State.cluster (s : State) (c : Nat) : Cluster := s.clusters.getD c {}
/-- Sets cluster `c`. -/
def State.setCluster (s : State) (c : Nat) (x : Cluster) : State := { s with clusters := s.clusters.set c x }
/-- Voltage domain `d`. -/
def State.domain (s : State) (d : Nat) : Domain := s.domains.getD d {}
/-- Sets voltage domain `d`. -/
def State.setDomain (s : State) (d : Nat) (x : Domain) : State := { s with domains := s.domains.set d x }
/-- Context `c`. -/
def State.ctx (s : State) (c : Nat) : Context := s.ctxs.getD c {}
/-- Sets context `c`. -/
def State.setCtx (s : State) (c : Nat) (x : Context) : State := { s with ctxs := s.ctxs.set c x }
/-- Launch `l`. -/
def State.launch (s : State) (l : Nat) : Launch := s.launches.getD l {}
/-- Sets launch `l`. -/
def State.setLaunch (s : State) (l : Nat) (x : Launch) : State := { s with launches := s.launches.set l x }
/-- Front end `f`. -/
def State.frontEnd (s : State) (f : Nat) : FrontEnd := s.frontEnds.getD f {}
/-- Sets front end `f`. -/
def State.setFrontEnd (s : State) (f : Nat) (x : FrontEnd) : State := { s with frontEnds := s.frontEnds.set f x }

/-- The wave that issues. -/
def State.w (s : State) : Wave := s.wave s.cur
/-- Sets the wave that issues. -/
def State.setW (s : State) (w : Wave) : State := s.setWave s.cur w
/-- The group of the wave that issues. -/
def State.g (s : State) : Group := s.group s.w.group
/-- Sets the group of the wave that issues. -/
def State.setG (s : State) (x : Group) : State := s.setGroup s.w.group x

/-- The device at power-on: nothing placed, every unit in its reset state, the bring-up of R442 due. -/
def State.reset : State := { agenda := [(0, .powerOnBringup)] }

end Sys2Proof.Machine
end

