-- ==== Sys2Proof/Machine/Regs.lean ====
section
/-!
DEFINITION. The registers and lanes of a wave: the Ductus and the lanes it chooses (R164, R165), the three register files
(R176, R177, R283), the agenda, the performance counters and the tree of contexts.
-/

namespace Sys2Proof.Machine

/-- What executing an instruction answers. -/
abbrev Out := Host.Outcome State Fault Refusal

/-- `x` with bit `i` set to `b`. -/
def setBit {n : Nat} (x : BitVec n) (i : Nat) (b : Bool) : BitVec n :=
  if b then x ||| BitVec.twoPow n i else x &&& ~~~(BitVec.twoPow n i)

/-! ### Lanes (R164, R165) -/

/-- The Ductus that chooses the lanes: the handler's in handler mode (R237). -/
def Wave.duct (w : Wave) : Lanes := if w.handler then w.hdx else w.dx
/-- Replaces the Ductus that chooses the lanes. -/
def Wave.setDuct (w : Wave) (d : Lanes) : Wave := if w.handler then { w with hdx := d } else { w with dx := d }
/-- Lanes whose PC is not all ones. -/
def Wave.live (w : Wave) : Word := maskOf fun l => lane w.duct l != 0xFFFFFFFF
/-- Live lanes that do not sleep; every handler lane is eligible (R236). -/
def Wave.eligible (w : Wave) : Word := if w.handler then w.live else w.live &&& ~~~w.sleeping
/-- The lanes that R165 counts: the quantum lanes during a quantum (R169). -/
def Wave.pool (w : Wave) : Word :=
  match w.quantum with
  | some (q, _) => w.eligible &&& q
  | none => w.eligible
/-- The issue PC, the lowest PC of the pool; all ones where the pool is empty. A wave that waits stays at its instruction. -/
def Wave.ipc (w : Wave) : Nat :=
  match w.stay with
  | some (_, p) => p
  | none => (lanesIn w.pool).foldr (fun l n => min (lane w.duct l).toNat n) 0xFFFFFFFF
/-- The lanes of the pool at the issue PC; of a wave that waits, those that issued. -/
def Wave.here (w : Wave) : Word :=
  match w.stay with
  | some (m, _) => m
  | none =>
    let m := w.pool
    let p := w.ipc
    maskOf fun l => bit m l && (lane w.duct l).toNat == p
/-- The wave keeps its place: while it waits, the lanes that issued its instruction stay its issuing lanes (R8, R165). -/
def Wave.keep (w : Wave) : Wave := { w with stay := some (w.here, w.ipc) }
/-- The lanes that wait: eligible, with a PC above the issue PC (R169). -/
def Wave.waitingLanes (w : Wave) : Word :=
  let m := w.eligible
  let p := w.ipc
  maskOf fun l => bit m l && decide (p < (lane w.duct l).toNat)
/-- The recipe being regenerated (R191). -/
def Wave.regenRecipe (w : Wave) : Option Recipe :=
  match w.regen with
  | r :: _ => w.recipes.find? fun x => x.entry == r.entry
  | [] => none
/-- The issuing lanes; while a recipe is regenerated, its recorded lanes. -/
def Wave.issuing (w : Wave) : Word :=
  match w.regenRecipe with
  | some r => r.lanes
  | none => w.here
/-- Mask `n`; m0 reads all ones (R283). -/
def Wave.mreg (w : Wave) (n : Nat) : Word := if n = 0 then 0xFFFFFFFF else w.m.getD n 0
/-- The lanes that the XMOD predicate selects (R267). -/
def Wave.predicate (w : Wave) : Word :=
  match w.pre with
  | some x => if x.pm = 0 then 0xFFFFFFFF else if x.inv then ~~~(w.mreg x.pm) else w.mreg x.pm
  | none => 0xFFFFFFFF
/-- The active lanes. -/
def Wave.active (w : Wave) : Word := w.issuing &&& w.predicate
/-- The jet order in force: the recipe's while it is regenerated (R191), else JORD.K (R314). -/
def Wave.order (w : Wave) : Nat :=
  match w.regenRecipe with
  | some r => r.jord
  | none => bits w.jord.toNat 2 0
/-- The FPCTL in force: the recipe's rounding without trap enables while it is regenerated (R191). -/
def Wave.fpctlNow (w : Wave) : DWord :=
  match w.regenRecipe with
  | some r => r.fpctl
  | none => w.fpctl
/-- Offset of the instruction `n` bytes (an XMOD before it adds 4, R269) after the issue PC. -/
def Wave.nextPc (w : Wave) (n : Nat) : Word := BitVec.ofNat 32 (w.ipc + n + (if w.pre.isSome then 4 else 0))

/-! ### Registers -/

/-- Vector register `r`. -/
def Wave.vreg (w : Wave) (r : Nat) : Lanes := w.v.getD r zeroLanes
/-- Register `r` is empty (R177). -/
def Wave.isEmpty (w : Wave) (r : Nat) : Bool := w.empty.getLsbD r
/-- Scalar register `r`. -/
def Wave.sreg (w : Wave) (r : Nat) : DWord := w.s.getD r 0
/-- The registers of a recipe's eligible set (R188). -/
def Recipe.regs (x : Recipe) : List Nat := (List.range x.count).map (x.dest + ·)
/-- The eligible set that holds register `r` (R188). -/
def Wave.setOf (w : Wave) (r : Nat) : Option Recipe := w.recipes.find? fun x => decide (x.dest ≤ r) && decide (r < x.dest + x.count)
/-- Register `r` is demoted: it holds a recipe in place of its values (R60). -/
def Wave.isDemoted (w : Wave) (r : Nat) : Bool := (w.setOf r).any (·.demoted)
/-- The set that holds `r` becomes ordinary: its entry is freed and its inputs unpinned (R189). -/
def Wave.ordinary (w : Wave) (r : Nat) : Wave :=
  { w with recipes := w.recipes.filter fun x => !(decide (x.dest ≤ r) && decide (r < x.dest + x.count)) }
/-- A vector register is pinned by a recipe (R188). -/
def Wave.vpinned (w : Wave) (r : Nat) : List Recipe := w.recipes.filter fun x => x.vins.contains r
/-- A scalar register is pinned by a recipe (R188). -/
def Wave.spinned (w : Wave) (r : Nat) : List Recipe := w.recipes.filter fun x => x.sins.contains r

/-- The destination stays empty after a write: the dem bit of the XMOD (R177). -/
def Wave.dem (w : Wave) : Bool := w.pre.any (·.dem)

/-- The words of a register that a write of the lanes `m` makes good (R241). -/
def badCure (t : Tab Word) (m : Word) (r : Nat) : Tab Word := if t.rows.isEmpty then t else t.set r (t.getD r 0 &&& ~~~m)

/-- Writes the lanes `m` of register `r` and marks it full, or empty under dem (R177). Outside a regeneration the set that
holds `r` becomes ordinary (R189). -/
def Wave.writeV (w : Wave) (m : Word) (r : Nat) (x : Lanes) : Wave :=
  let w := if w.regen.isEmpty then w.ordinary r else w
  { w with v := w.v.set r (blend m x (w.vreg r)), empty := setBit w.empty r w.dem, deferred := w.deferred.erase r
           bad := badCure w.bad m r }

/-- Writes scalar register `r`. -/
def Wave.writeS (w : Wave) (r : Nat) (x : DWord) : Wave :=
  { w with s := w.s.set r x, sdeferred := w.sdeferred.erase r }

/-- Writes the lanes `m` of mask `r` (R283). -/
def Wave.writeM (w : Wave) (m : Word) (r : Nat) (x : Word) : Wave :=
  { w with m := w.m.set r ((w.mreg r &&& ~~~m) ||| (x &&& m)) }

/-- Vector register `r` of the issuing wave. -/
def State.vreg (s : State) (r : Nat) : Lanes := s.w.vreg r
/-- Scalar register `r` of the issuing wave. -/
def State.sreg (s : State) (r : Nat) : DWord := s.w.sreg r
/-- Mask `r` of the issuing wave. -/
def State.mreg (s : State) (r : Nat) : Word := s.w.mreg r
/-- Writes the active lanes of register `r` of the issuing wave. -/
def State.writeV (s : State) (r : Nat) (x : Lanes) : State := s.setW (s.w.writeV s.w.active r x)
/-- Writes a scalar register of the issuing wave. -/
def State.writeS (s : State) (r : Nat) (x : DWord) : State := s.setW (s.w.writeS r x)
/-- Writes the active lanes' bits of a mask of the issuing wave. -/
def State.writeM (s : State) (r : Nat) (x : Word) : State := s.setW (s.w.writeM s.w.active r x)
/-- The core of the issuing wave's group. -/
def State.coreNo (s : State) : Nat := s.g.core
/-- The core of the issuing wave. -/
def State.c (s : State) : Core := s.core s.g.core
/-- Sets the core of the issuing wave. -/
def State.setC (s : State) (x : Core) : State := s.setCore s.g.core x

/-- The lane that lane `l` reads through the XMOD permutation (R268). -/
def permLane (x : Xmod) (l : Nat) : Nat :=
  match x.pk with
  | 1 => l ^^^ x.pp
  | 2 => 8 * (l / 8) + (l + x.pp) % 8
  | 3 => 31 - l
  | 4 => x.pp
  | _ => l

/-- The permutation of the XMOD, if any. -/
def Wave.perm (w : Wave) (x : Lanes) : Lanes :=
  match w.pre with
  | some p => lanesOf fun l => lane x (permLane p l)
  | none => x

/-- A va-role source as the instruction reads it: permuted (R268). -/
def State.vaReg (s : State) (r : Nat) : Lanes := s.w.perm (s.vreg r)

/-! ### Agenda, counters and the tree of contexts -/

/-- Inserts a move after those due no later. -/
def insertDue (t : Nat) (e : Event) : List (Nat × Event) → List (Nat × Event)
  | [] => [(t, e)]
  | (u, f) :: r => if u ≤ t then (u, f) :: insertDue t e r else (t, e) :: (u, f) :: r

/-- Puts a move on the agenda, due `d` cycles from now (log 5). -/
def State.post (s : State) (d : Nat) (e : Event) : State := { s with agenda := insertDue (s.now + d) e s.agenda }
/-- Puts a move on the agenda if it is not there already. -/
def State.postOnce (s : State) (d : Nat) (e : Event) : State :=
  if s.agenda.any (fun p => p.2 == e) then s else s.post d e
/-- Takes a move off the agenda. -/
def State.unpost (s : State) (e : Event) : State := { s with agenda := s.agenda.filter fun p => p.2 != e }
/-- Puts a move on the agenda; one that is there already is due at the earlier of the two times. -/
def State.postEarly (s : State) (d : Nat) (e : Event) : State :=
  if s.agenda.any (fun p => p.2 == e && decide (p.1 ≤ s.now + d)) then s else (s.unpost e).post d e

/-- A performance counter after `n` events of code `ev`: COUNT rises modulo 2^56 if EVENT names the code (R252). -/
def pmcAdd (ev n : Nat) (x : DWord) : DWord :=
  if bits x.toNat 63 56 = ev then BitVec.ofNat 64 (ev * 2 ^ 56 + (bits x.toNat 55 0 + n) % 2 ^ 56) else x

/-- Charges `n` events of a code to a context that exists (R253, R254). -/
def State.charge (s : State) (c ev n : Nat) : State :=
  let x := s.ctx c
  if ev = 0 ∨ (s.ctxs.get? c).isNone then s
  else s.setCtx c { x with pmc := ⟨x.pmc.rows.map fun p => (p.1, pmcAdd ev n p.2)⟩ }

/-- The context of the issuing wave's group. -/
def State.ctxNo (s : State) : Nat := s.g.ctx

/-- A context and its ancestors, from itself up; depth is at most 8 (R226). -/
def State.chainFuel (s : State) : Nat → Nat → List Nat
  | 0, _ => []
  | n + 1, c =>
    match (s.ctx c).parent with
    | some p => c :: s.chainFuel n p
    | none => [c]

/-- A context and its ancestors, from itself up. -/
def State.chain (s : State) (c : Nat) : List Nat := s.chainFuel 8 c

/-- The depth-1 ancestor (R59), whose front end has the same number (R226). -/
def State.partition (s : State) (c : Nat) : Nat := (s.chain c).getLast?.getD c

/-- The errata bit `i` of the group's COMPAT is set (R413). -/
def State.compat (s : State) (i : Nat) : Bool := s.g.ep.compat.getLsbD i

/-- The children of a context (R226). -/
def State.children (s : State) (c : Nat) : List Nat :=
  (s.ctxs.rows.filter fun p => p.2.parent == some c).map (·.1)

/-- A context and all its descendants. -/
def State.descendants (s : State) (c : Nat) : List Nat := s.ctxs.keys.filter fun d => (s.chain d).contains c

/-- A progress event of a context: its watchdog count returns to zero (R223). -/
def State.progress (s : State) (c : Nat) : State :=
  if (s.ctxs.get? c).isNone then s else s.setCtx c { s.ctx c with wdogCount := 0 }

/-- The waves of a group that have a row: wave number 16 g + WID (R163). -/
def State.wavesOf (s : State) (g : Nat) : List Nat := (List.range (s.group g).waves).map (16 * g + ·)

/-- The groups on a core that hold its resources. -/
def State.resident (s : State) (core : Nat) : List Nat :=
  (s.groups.rows.filter fun p => decide (p.2.core = core) && p.2.phase.holds).map (·.1)

end Sys2Proof.Machine
end

