-- ==== Sys2Proof/Machine/Translate.lean ====
section
/-!
DEFINITION. Windows and translation (spec/01_address_spaces.md): the memory-side cache (R58, R59), the page-table walk
composed through the tree of contexts (R19 to R22, R230, R446), the physical checks (R23 to R25), the TLBs and their leases
(R26, R27, R29) and the places that an access by one lane reaches (R11 to R17).
-/

namespace Sys2Proof.Machine

/-- What an access asks of its mapping: `write` needs WR, `fetch` needs EX; `atomic` marks the atomics and the home-slice
operations of R358. -/
structure Acc where
  write : Bool := false
  atomic : Bool := false
  fetch : Bool := false
  deriving DecidableEq, Repr

/-- TINFO of a memory fault (R36). -/
def memInfo (f : MemFault) (a : Acc) (lane : Nat) (defer : Bool := false) (recipe ldpc : Nat := 0) : DWord :=
  BitVec.ofNat 64 (f.reason + 2 ^ 8 * f.depth + 2 ^ 12 * lane + 2 ^ 17 * a.write.toNat + 2 ^ 18 * a.atomic.toNat +
    2 ^ 19 * a.fetch.toNat + 2 ^ 20 * f.remote.toNat + 2 ^ 21 * defer.toNat + 2 ^ 24 * (recipe % 256) + 2 ^ 32 * ldpc)

/-! The reason codes (R37). -/
/-- APERTURE_HOLE -/
def rHole : Nat := 0x01
/-- BUFFER_RANGE -/
def rRange : Nat := 0x02
/-- UNIT_DENIED -/
def rUnit : Nat := 0x03
/-- MISALIGNED -/
def rAlign : Nat := 0x04
/-- STACK_LIMIT -/
def rStack : Nat := 0x05
/-- NOT_MAPPED -/
def rUnmapped : Nat := 0x10
/-- MALFORMED -/
def rMalformed : Nat := 0x11
/-- WRITE_DENIED -/
def rWrite : Nat := 0x12
/-- EXEC_DENIED -/
def rExec : Nat := 0x13
/-- NOT_RESIDENT -/
def rAbsent : Nat := 0x14
/-- PACKAGE -/
def rPackage : Nat := 0x15
/-- PHYS_HOLE -/
def rPhys : Nat := 0x16
/-- ATOMIC_DENIED -/
def rAtomic : Nat := 0x17

/-- An aperture fault. -/
def aperture (reason addr : Nat) : MemFault := { cause := 3, reason := reason, addr := addr }

/-- A physical address of another package (R25). -/
def isRemote (s : State) (pa : Nat) : Bool := decide (pa / Config.packageSize ≠ s.config.package)

/-- Keeps the first `n` elements. -/
def cap {α : Type} (n : Nat) (l : List α) : List α := l.take n

/-! ### The memory-side cache (R58, R59) -/

/-- The hash of a line (R58). -/
def lineHash (pa : Nat) : Nat :=
  let l := bits pa 42 7
  l ^^^ (l / 2 ^ 13) ^^^ (l / 2 ^ 26)
/-- The home slice of a physical address (R58). -/
def homeSlice (pa : Nat) : Nat := lineHash pa % 96
/-- The colour of a physical address (R58). -/
def colourOf (pa : Nat) : Nat := bits pa 28 25 ^^^ bits pa 32 29 ^^^ bits pa 36 33 ^^^ bits pa 39 37
/-- The set of a physical address in its slice (R58). -/
def mscSet (pa : Nat) : Nat := colourOf pa * 128 + lineHash pa / 96 % 128

/-- An access of a context to a line at its home slice: a hit moves the line to the front of its set; a miss allocates it
if its colour is in the partition's mask (R59), in place of the last of 16, and is charged (R253, log 11). `n` bytes reach
HBM where nothing is allocated and the line is written. Remote lines are never held (R25). -/
def State.homeTouch (s : State) (c pa n : Nat) (write : Bool) : State :=
  let key := homeSlice pa * 2048 + mscSet pa
  let line := bits pa 42 7
  let ways := s.msc.getD key []
  if isRemote s pa then s
  else if s.slices.getD (homeSlice pa) 0 ≠ 0 then if write then s.charge c 6 n else (s.charge c 5 1).charge c 6 128
  else if ways.contains line then { s with msc := s.msc.set key (line :: ways.filter (· != line)) }
  else if (s.ctx (s.partition c)).colours.getLsbD (colourOf pa) then
    (({ s with msc := s.msc.set key (cap 16 (line :: ways)) } : State).charge c 5 1).charge c 6 128
  else if write then s.charge c 6 n
  else (s.charge c 5 1).charge c 6 128

/-! ### The walk -/

/-- A level that lacks a bit: its context, its depth and the address looked up there. -/
structure Level where
  ctx : Nat
  depth : Nat
  addr : Nat
  big : Bool
  deriving DecidableEq, Repr

/-- A completed walk (R22): the physical address, the page size, the levels of lowest depth that lack WR, EX and RES, and
the depth-1 level. -/
structure Walked where
  pa : Nat
  big : Bool := true
  noWr : Option Level := none
  noEx : Option Level := none
  noRes : Option Level := none
  root : Level
  deriving DecidableEq, Repr

/-- What a walk did beside its answer: the physical addresses of the entries it read, the ancestors' pages that it
translated afresh, and, of each table it depends on, the time of the first read and the lease (R27). -/
structure Trail where
  reads : List Nat := []
  parts : List Mapping := []
  leases : List (Nat × Nat) := []
  deriving DecidableEq, Repr

/-- One walk after another. -/
def Trail.add (x y : Trail) : Trail :=
  { reads := x.reads ++ y.reads, parts := x.parts ++ y.parts, leases := x.leases ++ y.leases }

/-- The earliest moment at which an entry that the walk depends on was read (R27). -/
def Trail.start (x : Trail) (now : Nat) : Nat := x.leases.foldr (fun p n => min p.1 n) now

/-- The composed lease in cycles: the least of the contexts whose tables the walk depends on (R22, R26). -/
def Trail.lease (x : Trail) : Nat := x.leases.foldr (fun p n => min p.2 n) (1023 * Config.usCycles)

/-- An answer of the walker, with its trail. -/
abbrev Traced (α : Type) := Trail × Except MemFault α

/-- Goes on from an answer of the walker. -/
def tracedThen {α β : Type} (x : Traced α) (f : α → Traced β) : Traced β :=
  match x.2 with
  | .error e => (x.1, .error e)
  | .ok a => (x.1.add (f a).1, (f a).2)

/-- A translation fault owned by a level. -/
def Level.fault (l : Level) (reason : Nat) : MemFault :=
  { cause := 4, reason := reason, addr := l.addr, depth := l.depth, owner := some l.ctx }

/-- The range lies wholly within one of the windows granted to a context (R230). -/
def inWindow (c : Context) (a n : Nat) : Bool := c.windows.any fun r => decide (r.base ≤ a) && decide (a + n ≤ r.base + r.size)

/-- An entry of a table (R20): `level` 0 top, 1 middle, 2 bottom. Answers leaf, output address and the size of what it
names, or the reason of its fault. -/
def readEntry (c : Context) (level e : Nat) : Except Nat (Bool × Nat × Nat) :=
  let leaf := decide (bits e 1 1 = 1)
  let oa := bits e 49 12 * 2 ^ 12
  let size := if leaf then (if level = 2 then 2 ^ 16 else 2 ^ 25) else if level = 0 then 2 ^ 17 else 2 ^ 12
  if bits e 0 0 = 0 then .error rUnmapped
  else if bits e 55 50 ≠ 0 ∨ bits e 11 5 ≠ 0 ∨ (level = 0 ∧ leaf) ∨ (level = 2 ∧ ¬leaf) ∨ (¬leaf ∧ bits e 4 2 ≠ 0) ∨
      oa % size ≠ 0 ∨ (2 ≤ c.depth ∧ (Config.stackBase ≤ oa ∨ inWindow c oa size = false)) then .error rMalformed
  else .ok (leaf, oa, size)

/-- The first of two levels that is there; the first is the lower depth. -/
def orLevel (a b : Option Level) : Option Level :=
  match a with
  | some x => some x
  | none => b

/-- The address of the page that a level names. -/
def Level.page (l : Level) : Nat := l.addr - l.addr % (if l.big then 2 ^ 25 else 2 ^ 16)

/-- One table read: the table pointer `base` is translated in the parent's space by `up`, and entry `idx` is read behind it
(R21). The table must compose to the package's own HBM, and be resident (R446). -/
def tableRead (s : State) (up : Nat → Traced Walked) (base idx : Nat) : Traced Nat :=
  tracedThen (up base) fun t =>
    let a := t.pa + 8 * idx
    if [t.pa, a].any fun p => isRemote s p || decide (Config.hbmEnd ≤ p % Config.packageSize) then
      ({}, .error { t.root.fault rPhys with remote := isRemote s t.pa })
    else match t.noRes with
      | some l => ({}, .error { l.fault rAbsent with addr := l.page })
      | none => ({ reads := [a] }, .ok (leNat (memReadN (memFrom s.hbm a) a 8)))

/-- An entry as read, or the fault of its level. -/
def entryOf (x : Context) (me : Level) (level e : Nat) : Traced (Bool × Nat × Nat) :=
  match readEntry x level e with
  | .error r => ({}, .error (me.fault r))
  | .ok y => ({}, .ok y)

/-- The leaf for an address: through the top, middle and bottom tables (R19, R21). -/
def findLeaf (s : State) (x : Context) (me : Level) (up : Nat → Traced Walked) (va : Nat) : Traced (Nat × Nat × Nat) :=
  if 2 ≤ x.depth ∧ (Config.stackBase ≤ x.root ∨ inWindow x x.root 4096 = false) then ({}, .error (me.fault rMalformed))
  else
    tracedThen (tableRead s up x.root (bits va 47 39)) fun e =>
    tracedThen (entryOf x me 0 e) fun y =>
    tracedThen (tableRead s up y.2.1 (bits va 38 25)) fun e1 =>
    tracedThen (entryOf x me 1 e1) fun y1 =>
    if y1.1 then ({}, .ok (y1.2.1, y1.2.2, e1))
    else
      tracedThen (tableRead s up y1.2.1 (bits va 24 16)) fun e2 =>
      tracedThen (entryOf x me 2 e2) fun y2 => ({}, .ok (y2.2.1, y2.2.2, e2))

/-- Whether a level lacks a bit of its leaf. -/
def lacks (e bit : Nat) (l : Level) : Option Level := if e / 2 ^ bit % 2 = 1 then none else some l

/-- The first mapping of a cache that translates an address of a context before a microsecond of its expiry (R27). -/
def mappingIn (l : List Mapping) (now c va : Nat) : Option Mapping :=
  l.find? fun m => decide (m.ctx = c) && decide (m.va ≤ va) && decide (va < m.va + m.size) && decide (now + Config.usCycles < m.exp)

/-- A walk's answer as a mapping of a context, from its first table read (R22, R27). -/
def Walked.mapping (t : Walked) (r : Trail) (now c va : Nat) : Mapping :=
  let size := if t.big then 2 ^ 25 else 2 ^ 16
  { ctx := c, va := va - va % size, size := size, pa := t.pa - va % size, wr := t.noWr.isNone, ex := t.noEx.isNone
    exp := r.start now + r.lease, born := r.start now }

/-- A cached mapping as a walk's answer: it is resident (R27). -/
def Mapping.walked (m : Mapping) (va : Nat) : Traced Walked :=
  let me : Level := { ctx := m.ctx, depth := 0, addr := va, big := false }
  let no := fun (b : Bool) => if b then none else some me
  ({ leases := [(m.born, m.exp - m.born)] },
    .ok { pa := m.pa + (va - m.va), big := decide (m.size = 2 ^ 25), noWr := no m.wr, noEx := no m.ex, root := me })

/-- A resident page translated for an ancestor is a part that the walker keeps (R22, R27). -/
def withPart (now : Nat) (cs : List Nat) (va : Nat) (x : Traced Walked) : Traced Walked :=
  match cs, x.2 with
  | c :: _, .ok t => if t.noRes.isNone then ({ x.1 with parts := t.mapping x.1 now c va :: x.1.parts }, x.2) else x
  | _, _ => x

/-- The walk of an address through a context and its ancestors (R21): `cs` lists the context and its ancestors, from itself
up; for no context, the address is physical. Ancestors' pages are taken from the mappings `kept` where these have them. -/
def walk (s : State) (kept : List Mapping) : List Nat → Nat → Traced Walked
  | [], a => ({}, .ok { pa := a, root := { ctx := 0, depth := 0, addr := a, big := true } })
  | c :: rest, va =>
    let x := s.ctx c
    let me : Level := { ctx := c, depth := x.depth, addr := va, big := false }
    let up := fun a =>
      match rest.head?.bind fun p => mappingIn kept s.now p a with
      | some m => m.walked a
      | none =>
        let r := walk s kept rest a
        if rest.isEmpty then (r.1, r.2.map fun t => { t with root := me }) else withPart s.now rest a r
    tracedThen ({ leases := [(s.now, x.lease * Config.usCycles)] }, .ok ()) fun _ =>
    tracedThen (findLeaf s x me up va) fun f =>
    tracedThen (up (f.1 + va % f.2.1)) fun t =>
      let l : Level := { me with big := decide (f.2.1 = 2 ^ 25) }
      ({}, .ok { pa := t.pa, big := t.big && decide (f.2.1 = 2 ^ 25), noWr := orLevel t.noWr (lacks f.2.2 2 l)
                 noEx := orLevel t.noEx (lacks f.2.2 3 l), noRes := orLevel t.noRes (lacks f.2.2 4 l), root := t.root })

/-- The physical checks of R24 and R25, made when the mapping is used: a reason, or none. -/
def physReason (s : State) (pa : Nat) (atomic : Bool) : Option Nat :=
  let pkg := pa / Config.packageSize
  let a := pa % Config.packageSize
  if pkg ≠ s.config.package then
    if s.config.domain.contains pkg = false then some rPackage
    else if Config.hbmEnd ≤ a then some rPhys
    else none
  else if a < Config.hbmEnd then none
  else if a < Config.hostBase then some rPhys
  else if atomic then some rAtomic
  else none

/-- A physical address in the host window (R24). -/
def isHostPa (pa : Nat) : Bool := decide (Config.hostBase ≤ pa % Config.packageSize)

/-- The lease horizon of a context in us: the largest value LEASE has held during the last 1,023 us (R26). -/
def leaseHorizon (s : State) (c : Nat) : Nat :=
  ((s.ctx c).leases.filter fun p => decide (s.now < p.2 + 1023 * Config.usCycles)).foldr (fun p n => max p.1 n) (s.ctx c).lease

/-- The checks of a completed walk in the order of R12: the physical address, permission, residency. -/
def checkWalk (s : State) (a : Acc) (t : Walked) : Except MemFault Walked :=
  let fail := fun (f : MemFault) => Except.error { f with remote := isRemote s t.pa }
  match physReason s t.pa a.atomic with
  | some r => fail (t.root.fault r)
  | none =>
    match (if a.write then t.noWr else none), (if a.fetch then t.noEx else none), t.noRes with
    | some l, _, _ => fail (l.fault rWrite)
    | _, some l, _ => fail (l.fault rExec)
    | _, _, some l => fail (l.fault rAbsent)
    | _, _, _ => .ok t

/-- A walk with its checks. -/
def walkChecked (s : State) (kept : List Mapping) (c va : Nat) (a : Acc) : Traced Walked :=
  tracedThen (walk s kept (s.chain c) va) fun t => ({}, checkWalk s a t)

/-- Translation of a global address by a walk that takes nothing from a cache. -/
def freshWalk (s : State) (c va : Nat) (a : Acc) : Except MemFault Walked := (walkChecked s [] c va a).2

/-- A cached mapping that may translate an access: it has the permission (R29). -/
def mayUse (s : State) (a : Acc) (m : Option Mapping) : Option Mapping :=
  m.filter fun m => (!a.write || m.wr) && (!a.fetch || m.ex) && (physReason s m.pa a.atomic).isNone

/-- The TLB entry of a core that may translate an access (R27, R29). -/
def tlbHit (s : State) (core c va : Nat) (a : Acc) : Option Mapping := mayUse s a (mappingIn (s.core core).tlb s.now c va)

/-- The entry of the core's cluster TLB that may translate an access (R27, R29). -/
def clusterTlbHit (s : State) (core c va : Nat) (a : Acc) : Option Mapping :=
  mayUse s a (mappingIn (s.cluster (core / 4)).tlb s.now c va)

/-- The walker that takes the walk of an address: by a hash of the page address (R22); log 86 gives the hash. -/
def walkerOf (va : Nat) : Nat := va / 2 ^ 16 % 64

/-- Puts a mapping into the core's TLB, in place of the oldest of 128 (log 86). -/
def State.tlbPut (s : State) (core : Nat) (m : Mapping) : State :=
  (s.setCore core { s.core core with tlb := cap 128 (m :: (s.core core).tlb) }).postEarly (m.exp - Config.usCycles - s.now)
    (.mappingLeaseExpiry core)

/-- Puts a mapping into the cluster's TLB, in place of the oldest of 2,048 (log 86). -/
def State.clusterTlbPut (s : State) (core : Nat) (m : Mapping) : State :=
  let k := s.cluster (core / 4)
  s.setCluster (core / 4) { k with tlb := cap 2048 (m :: k.tlb) }

/-- The mappings that still translate (R27). -/
def liveMappings (now : Nat) (l : List Mapping) : List Mapping := l.filter fun m => decide (now + Config.usCycles < m.exp)

/-- What a walk leaves: its reads at the memory-side cache are charged to the context that walks (R29, R254), and its
walker keeps the parts (R22, R27). -/
def State.walked (s : State) (c va : Nat) (r : Trail) : State :=
  let s := r.reads.foldl (fun s a => s.homeTouch c a 8 false) s
  let k := walkerOf va
  if r.parts.isEmpty then s else { s with walkers := s.walkers.set k (r.parts ++ liveMappings s.now (s.walkers.getD k [])) }

/-- The walk of an access: what its walker keeps is used; an answer that would fault is sought again in memory (R29). -/
def accessWalk (s : State) (c va : Nat) (a : Acc) : Traced Walked :=
  match s.walkers.getD (walkerOf va) [] with
  | [] => walkChecked s [] c va a
  | kept =>
    let x := walkChecked s kept c va a
    match x.2 with
    | .ok _ => x
    | .error _ =>
      let y := walkChecked s [] c va a
      ({ y.1 with reads := x.1.reads ++ y.1.reads }, y.2)

/-- Translation of an access of a core: the physical address and the nominal expiry of the mapping, from the core's TLB,
the cluster's, or a walk, which both then keep (R27, R28). DESIGN CHOICE (log 96): the access that waited for a walk uses its
answer once, also where its expiry, counted from a part that the walker kept, has passed. -/
def translate (s : State) (core c va : Nat) (a : Acc) : State × Except MemFault (Nat × Nat) :=
  match tlbHit s core c va a with
  | some m => (s, .ok (m.pa + (va - m.va), m.exp))
  | none =>
    match clusterTlbHit s core c va a with
    | some m => (s.tlbPut core m, .ok (m.pa + (va - m.va), m.exp))
    | none =>
      let x := accessWalk s c va a
      let u := s.walked c va x.1
      match x.2 with
      | .error f => (u, .error f)
      | .ok t =>
        let m := t.mapping x.1 s.now c va
        ((u.clusterTlbPut core m).tlbPut core m, .ok (t.pa, m.exp))

/-! ### Windows -/

/-- The window of a generic address (R11), with the offset in it. -/
inductive Window where
  | global
  | stack (x : Nat)
  | buf (b : Buf) (off : Nat)
  | hole
  deriving DecidableEq, Repr

/-- The window of a generic address. -/
def window (a : Nat) : Window :=
  if a < Config.stackBase then .global
  else if a < Config.stackEnd then .stack (a - Config.stackBase)
  else if a < Config.bufBase then .hole
  else if a < Config.bufBase + 2 ^ 24 then .buf .s (a - Config.bufBase)
  else if a < Config.bufBase + 2 * 2 ^ 24 then .buf .a (a - Config.bufBase - 2 ^ 24)
  else if a < Config.bufBase + 3 * 2 ^ 24 then .buf .w (a - Config.bufBase - 2 * 2 ^ 24)
  else if a < Config.bufEnd then .buf .c (a - Config.bufBase - 3 * 2 ^ 24)
  else .hole

/-- A group's reservation in a buffer (R42). -/
def Group.range (g : Group) : Buf → Range
  | .s => g.rs
  | .a => g.ra
  | .w => g.rw
  | .c => g.rc

/-- Which windows an instruction may reach (R337): the stack, and each buffer. -/
structure Reach where
  stack : Bool := true
  s : Bool := true
  a : Bool := true
  c : Bool := true
  glob : Bool := true
  deriving DecidableEq, Repr

/-- The buffer is within reach; no instruction reaches W (R40). -/
def Reach.buf (r : Reach) : Buf → Bool
  | .s => r.s
  | .a => r.a
  | .w => false
  | .c => r.c

/-- The stack size of a lane (R17). -/
def Context.stackBytes (x : Context) : Nat := 2 ^ 16 * 2 ^ x.stkSize

/-- The global address of a byte of a lane's stack (R17). -/
def stackAddr (x : Context) (slot lane off : Nat) : Nat :=
  x.stackBase + slot * 32 * x.stackBytes + off / 4 * 128 + lane * 4 + off % 4

/-- The parts of a lane's access of `n` bytes: each a global address or a place in a buffer, with its length. An 8-byte
stack value lies in two rows (R17). -/
inductive Part where
  | glob (va n : Nat)
  | buf (b : Buf) (off n : Nat)
  deriving DecidableEq, Repr

/-- Aperture and alignment checks of a lane's access (R11, R12, R13, R15, R17, R337). DESIGN CHOICE (log 81): an access that
neither reaches the buffer nor lies in its reservation reports UNIT_DENIED. -/
def apertureParts (s : State) (w : Wave) (reach : Reach) (lane addr n : Nat) : Except MemFault (List Part) :=
  let g := s.group w.group
  let x := s.ctx g.ctx
  let aligned (p : List Part) : Except MemFault (List Part) :=
    if addr % n = 0 then .ok p else .error (aperture rAlign addr)
  match window addr with
  | .hole => .error (aperture rHole addr)
  | .global => if reach.glob then aligned [.glob addr n] else .error (aperture rUnit addr)
  | .buf b off =>
    if reach.buf b = false then .error (aperture rUnit addr)
    else if (g.range b).size ≤ off then .error (aperture rRange addr)
    else aligned [.buf b ((g.range b).base + off) n]
  | .stack off =>
    if reach.stack = false then .error (aperture rUnit addr)
    else if x.stkSlots = 0 ∨ x.stackBytes ≤ off then .error (aperture rStack addr)
    else
      let j := w.stackSlot.getD 0
      if n = 8 then aligned [.glob (stackAddr x j lane off) 4, .glob (stackAddr x j lane (off + 4)) 4]
      else aligned [.glob (stackAddr x j lane off) n]

/-- A place with its length. -/
abbrev Piece := Place × Nat

/-- The place of a physical address. -/
def placeOf (pa exp : Nat) : Place := if isHostPa pa then .host (pa % Config.packageSize - Config.hostBase) else .phys pa exp

/-- The place of a reason in the order of R12: translation, permission, residency. -/
def faultRank (r : Nat) : Nat := if r = rWrite ∨ r = rExec then 1 else if r = rAbsent then 2 else 0

/-- The failure that R12 reports of two: the earlier part's, unless the other comes first in the order of the checks. -/
def firstOf (f g : MemFault) : MemFault := if faultRank g.reason < faultRank f.reason then g else f

/-- Translates the parts of an access, in order. -/
def locateParts (s : State) (core c : Nat) (a : Acc) : List Part → State × Except MemFault (List Piece)
  | [] => (s, .ok [])
  | .buf b off n :: t =>
    match locateParts s core c a t with
    | (s', .ok r) => (s', .ok ((.buf b off, n) :: r))
    | (s', .error f) => (s', .error f)
  | .glob va n :: t =>
    match translate s core c va a with
    | (s', .error f) =>
      match locateParts s' core c a t with
      | (s'', .error g) => (s'', .error (firstOf f g))
      | (s'', .ok _) => (s'', .error f)
    | (s', .ok (pa, exp)) =>
      match locateParts s' core c a t with
      | (s'', .ok r) => (s'', .ok ((placeOf pa exp, n) :: r))
      | (s'', .error f) => (s'', .error f)

/-- The places of one lane's access, or its first failure in the order of R12. -/
def locate (s : State) (w : Wave) (reach : Reach) (a : Acc) (lane addr n : Nat) : State × Except MemFault (List Piece) :=
  match apertureParts s w reach lane addr n with
  | .error f => (s, .error f)
  | .ok ps => locateParts s (s.group w.group).core (s.group w.group).ctx a ps

end Sys2Proof.Machine
end

