-- ==== Sys2Proof/Machine/Cache.lean ====
section
/-!
DEFINITION. The memories behind an access (spec/02_on_chip_memory.md, R119, R121): typed buffers, the L1 of each core with
its byte masks (R56), the home slices and the memory-side cache (R58, R59), and the store queue with its forwarding (R121).
-/

namespace Sys2Proof.Machine

/-- A core's typed buffer. -/
def Core.buf (k : Core) : Buf → Memory
  | .s => k.s
  | .a => k.a
  | .w => k.w
  | .c => k.c

/-- Replaces a core's typed buffer. -/
def Core.setBuf (k : Core) (b : Buf) (m : Memory) : Core :=
  match b with
  | .s => { k with s := m }
  | .a => { k with a := m }
  | .w => { k with w := m }
  | .c => { k with c := m }

/-- The unit code of a buffer (R241). -/
def Buf.unit : Buf → Nat
  | .s => 1
  | .a => 2
  | .w => 3
  | .c => 4

/-- The words of a unit that bytes from an address overlap are good again: they have been written (R241). -/
def State.cure (s : State) (unit core a n : Nat) : State :=
  if s.uncorr.isEmpty then s
  else { s with uncorr := s.uncorr.filter fun e =>
    !(e.1 == unit && e.2.1 == core && decide (a / 8 ≤ e.2.2) && decide (e.2.2 ≤ (a + n - 1) / 8)) }

/-- Reads bytes of a buffer at a physical offset (R39). -/
def State.bufRead (s : State) (core : Nat) (b : Buf) (off n : Nat) : List Byte := memReadN ((s.core core).buf b) off n
/-- Writes bytes of a buffer at a physical offset. -/
def State.bufWrite (s : State) (core : Nat) (b : Buf) (off : Nat) (x : List Byte) : State :=
  let k := s.core core
  (s.setCore core (k.setBuf b (memWriteN (k.buf b) off x))).cure b.unit core off x.length

/-! ### Homes -/

/-- Reads bytes at their home, for the context that asks. -/
def State.homeRead (s : State) (c pa n : Nat) : State × List Byte :=
  (s.homeTouch c pa n false, memReadN (memFrom s.hbm pa) pa n)
/-- The words of HBM and of the memory-side cache that bytes from an address overlap have been written (R241). -/
def State.cureHome (s : State) (pa n : Nat) : State := (s.cure 7 0 pa n).cure 8 0 pa n
/-- Writes bytes at their home. -/
def State.homeWrite (s : State) (c pa : Nat) (x : List Byte) : State :=
  let s := s.homeTouch c pa x.length true
  ({ s with hbm := memWriteN s.hbm pa x } : State).cureHome pa x.length

/-! ### The L1 (R56) -/

/-- Byte `i` of a line. -/
def L1Line.byte (l : L1Line) (i : Nat) : Byte := l.data.extractLsb' (8 * i) 8
/-- Line data with byte `i` replaced. -/
def putByte (d : BitVec 1024) (i : Nat) (b : Byte) : BitVec 1024 :=
  (d &&& ~~~((255 : BitVec 1024) <<< (8 * i))) ||| (b.setWidth 1024 <<< (8 * i))
/-- The mask of `n` bytes from byte `i`. -/
def byteMask (i n : Nat) : BitVec 128 := BitVec.ofNat 128 ((2 ^ n - 1) * 2 ^ i)

/-- The L1 line that holds a physical address. -/
def Core.l1Find (k : Core) (line : Nat) : Option L1Line := k.l1.find? fun l => l.line == line
/-- The other L1 lines. -/
def Core.l1Others (k : Core) (line : Nat) : List L1Line := k.l1.filter fun l => l.line != line
/-- Set of a line (R56; the index is log 10's). -/
def l1Set (line : Nat) : Nat := line % 128

/-- Writes the dirty bytes of a line into a memory (R56). -/
def L1Line.flushTo (l : L1Line) (m : Memory) : Memory :=
  (List.range 128).foldl (fun m i => if l.dirty.getLsbD i then memWrite m (128 * l.line + i) (l.byte i) else m) m

/-- A write-back of a line: only its dirty bytes reach home. -/
def State.writeBack (s : State) (l : L1Line) : State :=
  if l.dirty = 0 then s
  else
    let s := s.homeTouch l.ctx (128 * l.line) 128 true
    let s : State := { s with hbm := l.flushTo s.hbm }
    if s.uncorr.isEmpty then s
    else (List.range 128).foldl (fun s i => if l.dirty.getLsbD i then s.cureHome (128 * l.line + i) 1 else s) s

/-- Puts a line at the front of a core's L1; the last line of a set that has nine is evicted (R56). -/
def State.l1Put (s : State) (core : Nat) (l : L1Line) : State :=
  let k := s.core core
  let others := k.l1Others l.line
  let same := others.filter fun x => l1Set x.line == l1Set l.line
  if same.length < 8 then s.setCore core { k with l1 := l :: others }
  else
    match same.getLast? with
    | none => s.setCore core { k with l1 := l :: others }
    | some v => (s.setCore core { k with l1 := l :: others.filter fun x => x.line != v.line }).writeBack v

/-- Line data of 128 bytes. -/
def lineData (x : List Byte) : BitVec 1024 := BitVec.ofNat 1024 (leNat x)

/-- `a` with the bytes of `m` taken from `b`. -/
def mergeBytes (m : BitVec 128) (a b : BitVec 1024) : BitVec 1024 :=
  (List.range 128).foldl (fun d i => if m.getLsbD i then putByte d i (b.extractLsb' (8 * i) 8) else d) a

/-- The unit and slice of the uncorrectable word that a read of a byte at its home slice meets (R44, R241). -/
def State.badHome (s : State) (pa : Nat) : Option (Nat × Nat) :=
  if s.uncorr.contains (7, 0, pa / 8) then some (7, homeSlice pa)
  else if s.uncorr.contains (8, 0, pa / 8) then some (8, homeSlice pa)
  else none

/-- The bytes of a line that a fetch from home makes valid: those of an uncorrectable word stay invalid, so that each load of
them comes to the home slice and meets the error (R44; log 94). -/
def State.goodBytes (s : State) (line : Nat) : BitVec 128 :=
  if s.uncorr.isEmpty then BitVec.allOnes 128
  else (List.range 16).foldl (fun m i =>
    if (s.badHome (128 * line + 8 * i)).isSome then m &&& ~~~(byteMask (8 * i) 8) else m) (BitVec.allOnes 128)

/-- A load through the L1: invalid bytes are fetched from home under the dirty bytes (R56). -/
def State.l1Load (s : State) (core c pa n : Nat) : State × List Byte :=
  let line := pa / 128
  let off := pa % 128
  let k := s.core core
  match k.l1Find line with
  | some l =>
    if l.valid &&& byteMask off n = byteMask off n then
      (s.setCore core { k with l1 := l :: k.l1Others line }, (List.range n).map fun i => l.byte (off + i))
    else
      let r := s.homeRead c (128 * line) 128
      let l' : L1Line :=
        { l with valid := l.dirty ||| s.goodBytes line, data := mergeBytes l.dirty (lineData r.2) l.data }
      ((r.1.l1Put core l').charge c 4 1, (List.range n).map fun i => l'.byte (off + i))
  | none =>
    let r := s.homeRead c (128 * line) 128
    let l' : L1Line := { line := line, valid := s.goodBytes line, dirty := 0, data := lineData r.2, ctx := c }
    ((r.1.l1Put core l').charge c 4 1, (List.range n).map fun i => l'.byte (off + i))

/-- The bytes `x` put into a line's data from byte `i`. -/
def putBytes (d : BitVec 1024) (i : Nat) : List Byte → BitVec 1024
  | [] => d
  | b :: t => putBytes (putByte d i b) (i + 1) t

/-- A store at the L1: the bytes become valid and dirty without a fetch (R56); the line keeps the earliest expiry of its
dirty bytes and is written back a microsecond before it (R28). -/
def State.l1Store (s : State) (core c pa exp : Nat) (x : List Byte) : State :=
  let line := pa / 128
  let off := pa % 128
  let old : L1Line := ((s.core core).l1Find line).getD { line := line, valid := 0, dirty := 0, data := 0 }
  let exp' := if old.dirty = 0 then exp else min old.exp exp
  let l : L1Line :=
    { line := line, valid := old.valid ||| byteMask off x.length, dirty := old.dirty ||| byteMask off x.length
      data := putBytes old.data off x, exp := exp', ctx := c }
  ((s.l1Put core l).cure 6 core pa x.length).postEarly (exp' - Config.usCycles - s.now)
    (.l1LeaseWriteback core line)

/-- Writes back the dirty lines of a core that `p` selects; they stay valid and become clean. Answers how many. -/
def State.l1Clean (s : State) (core : Nat) (p : L1Line → Bool) : State × Nat :=
  let k := s.core core
  let d := k.l1.filter fun l => l.dirty != 0 && p l
  let s := d.foldl (fun s l => s.writeBack l) s
  let k := s.core core
  (s.setCore core { k with l1 := k.l1.map fun l => if p l then { l with dirty := 0 } else l }, d.length)

/-- Clears the valid bits of the clean bytes of the lines that `p` selects; a line with no valid byte is gone (R132). -/
def State.l1Drop (s : State) (core : Nat) (p : L1Line → Bool) : State :=
  let k := s.core core
  s.setCore core
    { k with l1 := (k.l1.map fun l => if p l then { l with valid := l.valid &&& l.dirty } else l).filter fun l => l.valid != 0 }

/-! ### Places -/

/-- A byte of a place, as a space number and an address. -/
def Place.at (p : Place) (i : Nat) : Nat × Nat :=
  match p with
  | .phys pa _ => (0, pa + i)
  | .buf .s o => (1, o + i)
  | .buf .a o => (2, o + i)
  | .buf .w o => (3, o + i)
  | .buf .c o => (4, o + i)
  | .host a => (5, a + i)

/-- The youngest queued store's byte at a location (R121: forwarding). -/
def queuedByte (q : List (Place × List Byte)) (x : Nat × Nat) : Option Byte :=
  q.foldl (fun r e => match (List.range e.2.length).find? fun i => e.1.at i == x with
    | some i => e.2[i]?
    | none => r) none

/-- Bytes as read, under the wave's queued stores. -/
def forward (q : List (Place × List Byte)) (p : Place) (x : List Byte) : List Byte :=
  if q.isEmpty then x else (List.range x.length).map fun i => (queuedByte q (p.at i)).getD (x.getD i 0)

/-- Reads one piece of an access of this package (R121). -/
def State.readPiece (s : State) (core c : Nat) (p : Piece) : State × List Byte :=
  match p.1 with
  | .phys pa _ => s.l1Load core c pa p.2
  | .buf b o => (s, s.bufRead core b o p.2)
  | .host a => (s, memReadN (memFrom s.host a) a p.2)

/-- Reads the pieces of one access, under the queued stores of the wave. -/
def State.readPieces (s : State) (core c : Nat) (q : List (Place × List Byte)) : List Piece → State × List Byte
  | [] => (s, [])
  | p :: t =>
    let r := s.readPiece core c p
    let u := r.1.readPieces core c q t
    (u.1, forward q p.1 r.2 ++ u.2)

/-- Cuts bytes at the lengths of the pieces. -/
def cutPieces : List Piece → List Byte → List (Place × List Byte)
  | [], _ => []
  | p :: t, x => (p.1, x.take p.2) :: cutPieces t (x.drop p.2)

/-- The bank and lock bit that guard a word of S, as 4 × bank + h (R51). -/
def lockOf (o : Nat) : Nat :=
  let b := o / 4 % 32
  let w := o / 128
  4 * b + (bits w 1 0 ^^^ bits w 3 2 ^^^ bits w 5 4 ^^^ bits w 7 6 ^^^ bits w 9 8 ^^^ bits w 10 10)

/-- The wave that holds the lock bit of a word of S (R51). -/
def Core.lockHolder (k : Core) (o : Nat) : Option Nat := k.locks.get? (lockOf o)

/-- The bank of S of a place (R50, R52). -/
def Place.bank : Place → Nat
  | .buf _ o => o / 4 % 32
  | _ => 0

/-- A plain store to the place waits: its word's lock bit is held by another wave (R52). -/
def lockWait (s : State) (core wave : Nat) (p : Place) : Bool :=
  match p with
  | .buf .s o => ((s.core core).lockHolder o).any (· != wave)
  | _ => false

/-- Performs one queued store where R121 says. DESIGN CHOICE (log 95): a store to the host window is in the host's memory
when it leaves the queue, so an engine's read sees it without a FENCE.S between (R140); its acknowledgement comes later. -/
def State.performStore (s : State) (core c wave : Nat) (p : Place) (x : List Byte) : State :=
  match p with
  | .phys pa exp => s.l1Store core c pa exp x
  | .buf b o => s.bufWrite core b o x
  | .host a =>
    let s : State := { s with host := memWriteN s.host a x }
    let w := s.wave wave
    (s.setWave wave { w with hostOut := w.hostOut + 1 }).post 1 (.hostStoreAcknowledge wave)

/-- An access that its bank refuses now: it waits since it was first refused, and is presented again two cycles later
(R52). -/
def LockWait.again (x : Option LockWait) (banks : List Nat) (now : Nat) : LockWait :=
  { banks := banks, since := (x.map (·.since)).getD now, due := now + 2 }

/-- Presents the oldest queued store of a wave: it is performed, or waits for a lock bit and holds the wave (R52, R121). -/
def State.presentStore (s : State) (k : Nat) (p : Place) (x : List Byte) (rest : List (Place × List Byte)) : State :=
  let w := s.wave k
  let g := s.group w.group
  if lockWait s g.core k p then s.setWave k { w with storeWait := some (LockWait.again w.storeWait [p.bank] s.now) }
  else (s.setWave k { w with storeQ := rest, storeWait := none }).performStore g.core g.ctx k p x

/-- Performs the queued stores of a wave in order, up to one that waits on a lock bit (R52, R123). -/
def State.drainFuel (s : State) (wave : Nat) : Nat → State
  | 0 => s
  | n + 1 =>
    let w := s.wave wave
    match w.storeQ with
    | [] => s
    | (p, x) :: t => if w.storeWait.isSome then s else (s.presentStore wave p x t).drainFuel wave n

/-- Drains a wave's store queue, up to a store that waits on a lock bit. -/
def State.drain (s : State) (wave : Nat) : State := s.drainFuel wave (s.wave wave).storeQ.length

/-! ### The order of retries (R52) -/

/-- What waits for lock bits on a core and is not held up otherwise: 0 a wave's instruction, 1 a wave's queued store, 2 an
engine operation that has still to write there, each with its number. -/
def State.lockWaits (s : State) (core : Nat) : List ((Nat × Nat) × LockWait) :=
  (s.waves.rows.flatMap fun p =>
    let g := s.group p.2.group
    if g.core ≠ core then []
    else (if p.2.phase == .run && g.phase == .resident && p.2.storeWait.isNone then (p.2.bankWait.map fun x => ((0, p.1), x)).toList else []) ++
      (p.2.storeWait.map fun x => ((1, p.1), x)).toList) ++
  (s.cluster (core / 4)).engines.rows.flatMap fun p =>
    p.2.flatMap fun o =>
      if o.drain || o.targets.any fun t => t.k == core % 4 && t.state == 0 && !t.follow then
        ((o.waits.get? core).map fun x => ((2, p.1), x)).toList
      else []

/-- A wait is served before another of its bank: since an earlier time, or by its number. DESIGN CHOICE (log 93): R52 does not
order the retries that began in one cycle. -/
def LockWait.before (x y : (Nat × Nat) × LockWait) : Bool :=
  if x.2.since ≠ y.2.since then decide (x.2.since < y.2.since)
  else if x.1.1 ≠ y.1.1 then decide (x.1.1 < y.1.1)
  else decide (x.1.2 < y.1.2)

/-- Retries at one bank are served oldest first: no older retry at a bank of this one is due now (R52). -/
def State.lockTurn (s : State) (core : Nat) (me : (Nat × Nat) × LockWait) : Bool :=
  !(s.lockWaits core).any fun x =>
    decide (x.2.due ≤ s.now) && x.2.banks.any me.2.banks.contains && LockWait.before x me

/-! ### Global memory as a unit of the device reaches it (R446, R438) -/

/-- Reads `n` bytes of a context's global window at home, page by page; none where a page does not translate. -/
def State.globRead (s : State) (c : Nat) : Nat → Nat → Except MemFault (List Byte)
  | _, 0 => .ok []
  | va, n + 1 =>
    match freshWalk s c va {} with
    | .error f => .error f
    | .ok t =>
      match s.globRead c (va + 1) n with
      | .error f => .error f
      | .ok r => .ok (memRead (if isHostPa t.pa then s.host else s.hbm)
          (if isHostPa t.pa then t.pa % Config.packageSize - Config.hostBase else t.pa) :: r)

/-- Reads an aligned 64-bit word, or any run that stays in one 64 KiB page. -/
def State.globReadRun (s : State) (c va n : Nat) : Except MemFault (List Byte) :=
  if va % 2 ^ 16 + n ≤ 2 ^ 16 then
    match freshWalk s c va {} with
    | .error f => .error f
    | .ok t =>
      if isHostPa t.pa then
        let a := t.pa % Config.packageSize - Config.hostBase
        .ok (memReadN (memFrom s.host a) a n)
      else .ok (memReadN (memFrom s.hbm t.pa) t.pa n)
  else s.globRead c va n

/-- The requests that one walk of an address of a context's global window makes at the memory-side cache, for its table entries
(R29, R253, R254). -/
def State.walkTouch (s : State) (c va : Nat) : State :=
  (walkChecked s [] c va {}).1.reads.foldl (fun s a => s.homeTouch c a 8 false) s

/-- The requests that a read of `n` bytes of a context's global window makes at the memory-side cache: the table entries of its
walk, then its lines (R253, R254). -/
def State.globTouch (s : State) (c va n : Nat) : State :=
  let s := s.walkTouch c va
  (List.range ((va + n + 127) / 128 - va / 128)).foldl (fun s i =>
    match freshWalk s c (max va (128 * (va / 128 + i))) {} with
    | .ok t => if isHostPa t.pa then s else s.homeTouch c t.pa 128 false
    | .error _ => s) s

/-- Writes bytes that stay in one 64 KiB page of a context's global window, at home. -/
def State.globWriteRun (s : State) (c va : Nat) (x : List Byte) : Except MemFault State :=
  match freshWalk s c va { write := true } with
  | .error f => .error f
  | .ok t =>
    let s := s.walkTouch c va
    if isHostPa t.pa then
      .ok { s with host := memWriteN s.host (t.pa % Config.packageSize - Config.hostBase) x }
    else .ok (s.homeWrite c t.pa x)

/-- The numbers written at addresses of a context's global window, in order; the first fault stops them. -/
def State.globWrites (s : State) (c : Nat) : List (Nat × List Byte) → Except MemFault State
  | [] => .ok s
  | (a, x) :: t =>
    match s.globWriteRun c a x with
    | .error f => .error f
    | .ok s' => s'.globWrites c t

end Sys2Proof.Machine
end

