-- ==== Sys2Proof/Machine/Ops.lean ====
section
/-!
DEFINITION. The shared operations of the instructions: sync objects with their acquire and release (R128 to R132), sets and
barriers (R171 to R173), the end of a wave (R165), moving past an instruction (R165, R169), taking a trap and returning
from one (R236 to R239), and faults without a wave (R447).
-/

namespace Sys2Proof.Machine

/-! ### Waiting -/

/-- The issuing wave waits at its instruction, which it will try again with the same lanes (R8, block_until; log 91). The
prefix of a pair is read again with it (R269). -/
def State.block (s : State) : State := s.setW { s.w.keep with waiting := true, pre := none }

/-- The issuing wave waits for a lock bit at some banks of S: it tries again two cycles later (R52). -/
def State.blockAtBank (s : State) (banks : List Nat) : State :=
  let w := s.w
  ((s.setW { w with retryAt := s.now + 2, bankWait := some (LockWait.again w.bankWait banks s.now) }).block).postOnce 2 (.lockBitRetry s.cur)

/-! ### Sync objects (R128 to R132) -/

/-- The kinds of a sync object (R128). -/
def kindLock : Nat := 0
/-- counter -/
def kindCounter : Nat := 1
/-- set barrier -/
def kindSet : Nat := 2
/-- launch barrier -/
def kindLaunch : Nat := 3
/-- record queue -/
def kindQueue : Nat := 4
/-- copy handle -/
def kindHandle : Nat := 5

/-- The 64 KiB pages that a range of generic addresses overlaps, as ranges. -/
def pagesOf : Nat → Nat → Nat → List (Nat × Nat)
  | 0, _, _ => []
  | n + 1, a, len =>
    if len = 0 then []
    else
      let k := min len (2 ^ 16 - a % 2 ^ 16)
      (a, k) :: pagesOf n (a + k) (len - k)

/-- The physical ranges behind a range of a context's global window. DESIGN CHOICE (log 100): the mappings are those of the page
tables now, whatever mapping a store used, and a page that is not mapped has no lines. -/
def physRanges (s : State) (c : Nat) (r : Nat × Nat) : List (Nat × Nat) :=
  (pagesOf (r.2 / 2 ^ 16 + 2) r.1 r.2).filterMap fun p =>
    match (walk s [] (s.chain c) p.1).2 with
    | .ok t => some (t.pa, p.2)
    | .error _ => none

/-- The regions that a context's binding table binds to an object (R129). -/
def boundRegions (x : Context) (kind obj : Nat) : List (Nat × Nat) :=
  (x.binds.vals.filter fun e =>
      decide (bits e.1.toNat 63 63 = 1) && decide (bits e.1.toNat 62 60 = kind) && decide (bits e.2.toNat 47 0 = obj)).map
    fun e => (bits e.1.toNat 39 0 * 256, bits e.1.toNat 55 40 * 256)

/-- A line overlaps one of the physical ranges. -/
def overlaps (rs : List (Nat × Nat)) (l : L1Line) : Bool :=
  rs.any fun r => decide (128 * l.line < r.1 + r.2) && decide (r.1 < 128 * l.line + 128)

/-- The physical ranges bound to an object, with the regions that R131 binds to it. -/
def boundRanges (s : State) (c kind obj : Nat) (extra : List (Nat × Nat)) : List (Nat × Nat) :=
  (boundRegions (s.ctx c) kind obj ++ extra).flatMap (physRanges s c)

/-- The regions of a join block: its counter and a continuation record of `z` bytes (R131, R183). -/
def joinRegion (z join : Nat) : List (Nat × Nat) := if join = 0 then [] else [(join, 8), (join + 64, z)]

/-- The regions that R131 binds to a node's record queue in a launch: its queue memory, and the join blocks known to have
their continuation there. -/
def State.queueRegion (s : State) (l node : Nat) : List (Nat × Nat) :=
  let x := s.launch l
  match x.nodes.get? node with
  | some n =>
    let z := 32 * n.ep.recsz
    (n.base, n.cap * z) :: (x.joins.filter fun p => p.2 == node).flatMap fun p => joinRegion z p.1
  | none => []

/-- A join block becomes known to its launch, with its continuation's node. -/
def State.knowJoin (s : State) (l join node : Nat) : State :=
  let x := s.launch l
  if join = 0 || x.joins.contains (join, node) then s
  else s.setLaunch l { x with joins := (x.joins.filter fun p => p.1 != join) ++ [(join, node)] }

/-- An acquire's action on a core's L1: the clean bytes of the lines that overlap a bound region lose their valid bits
(R132). -/
def State.acquireOn (s : State) (core c kind obj : Nat) (extra : List (Nat × Nat)) : State :=
  let rs := boundRanges s c kind obj extra
  if rs.isEmpty then s else s.l1Drop core (overlaps rs)


/-- The wave has loads whose result has not arrived. -/
def Wave.loading (w : Wave) : Bool := !w.pending.isEmpty || !w.remotes.isEmpty

/-- What comes before an acquire or FENCE.G (R123, R126, R132): the store queue is drained and the earlier loads have
returned. Answers whether all that is done. -/
def State.quiet (s : State) : State × Bool :=
  let s := s.drain s.cur
  (s, s.w.storeQ.isEmpty && !s.w.loading)

/-- The work before a release or fence is performed: the store queue is drained, the earlier loads have returned, the dirty
bytes of the lines that `p` selects are at home and acknowledged (R126, R132). Answers nothing when all that is done, else
the state in which the wave waits. -/
def State.publish (s : State) (p : L1Line → Bool) : State × Bool :=
  let s := s.drain s.cur
  let w := s.w
  if !w.storeQ.isEmpty || w.loading then (s.block, false)
  else if w.scanned then (if w.wbOut = 0 then (s, true) else (s.block, false))
  else
    let r := s.l1Clean s.g.core p
    if r.2 = 0 then (r.1, true)
    else
      let w := r.1.w
      (((r.1.setW { w with scanned := true, wbOut := r.2 }).post 1 (.writeBackAcknowledge s.cur)).block, false)

/-- The acquire of an object by the issuing wave (R132), then `k`: the wave waits for its earlier accesses. DESIGN CHOICE (log
100): the binding table is read when that wait is over. -/
def State.acquireThen (s : State) (kind obj : Nat) (extra : List (Nat × Nat)) (k : State → Out) : Out :=
  let r := s.quiet
  if r.2 then k (r.1.acquireOn r.1.g.core r.1.g.ctx kind obj extra) else .next r.1.block

/-- The release of the regions bound to an object (R132), then `k`. DESIGN CHOICE (log 100): the caller reads the binding table at
each try, so that a BIND during the wait for stores and loads is seen. -/
def State.releaseThen (s : State) (ranges : List (Nat × Nat)) (k : State → Out) : Out :=
  let r := s.publish (overlaps ranges)
  if r.2 then k r.1 else .next r.1

/-! ### Moving past an instruction (R165, R169) -/

/-- The issuing lanes take the PCs `tgt`. -/
def Wave.land (w : Wave) (tgt : Nat → Word) : Wave :=
  let issuing := w.here
  w.setDuct (lanesOf fun l => if bit issuing l then tgt l else lane w.duct l)

/-- The quantum after an instruction that left `w1` (R169). -/
def Wave.quantumAfter (w w1 : Wave) (ends : Bool) : Option (Word × Nat) :=
  match w.quantum with
  | some (q, n) => if ends || decide (64 ≤ n + 1) || w1.live &&& q == 0 then none else some (q, n + 1)
  | none => none

/-- The fairness timer is reset by an instruction that left `w2`: no lane waits, or one that waited issues next (R169). -/
def Wave.timerReset (w w2 : Wave) : Bool := w2.waitingLanes == 0 || w.waitingLanes &&& w2.here != 0

/-- Some issuing lane goes to a PC at or below its own (R299). -/
def Wave.goesBack (w : Wave) (tgt : Nat → Word) : Bool :=
  (lanesIn w.here).any fun l => tgt l != 0xFFFFFFFF && decide ((tgt l).toNat ≤ w.ipc)

/-- The Nib lane of a wave whose lanes have moved: the lowest live lane once it has retired (R174). -/
def Wave.nibAfter (w : Wave) : Nat :=
  let live := maskOf fun l => lane w.dx l != 0xFFFFFFFF
  if bit live w.nib then w.nib else (lowestLane live).getD w.nib

/-- The wave `w2`, past an instruction that `w` issued: its timer, its Nib lane, and no trace of the instruction. -/
def Wave.settle (w w2 : Wave) (back : Bool) : Wave :=
  let reset := w.timerReset { w2 with stay := none }
  { w2 with
    backBranch := !reset && (w.backBranch || back), timer := if reset then 0 else w.timer, nib := w2.nibAfter
    pre := none, waiting := false, stay := none, scanned := false, checked := false, retryAt := 0, bankWait := none
    needs := [] }

/-! ### Sets and barriers (R171 to R173) -/

/-- Set `n` of a group. -/
def Group.set (g : Group) (n : Nat) : MSet := g.sets.getD n {}
/-- Replaces set `n` of a group. -/
def Group.putSet (g : Group) (n : Nat) (m : MSet) : Group := { g with sets := g.sets.set n m }
/-- Wave `wid` is a member of the set. -/
def MSet.has (m : MSet) (wid : Nat) : Bool := m.members.getLsbD wid
/-- The rank of a member: the members with a lower WID (R171). -/
def MSet.rank (m : MSet) (wid : Nat) : Nat := countIf m.has (List.range wid)

/-- The waves of a group that wait at the `k`-th barrier of set `n`, parked or not. -/
def State.atSet (s : State) (g n k : Nat) : List Nat :=
  (s.wavesOf g).filter fun j =>
    match (s.wave j).phase with
    | .bar n' k' _ => n' == n && k' == k
    | _ => false

/-- A wave departs from the barrier at which it waits: its lanes there continue after it (R169, R306). -/
def Wave.depart (w : Wave) : Wave := w.settle { w.land fun _ => w.nextPc w.barLen with phase := .run } false

/-- The waves that wait, not parked, at the `k`-th barrier of set `n` depart. -/
def State.departSet (s : State) (g n k : Nat) : State :=
  (s.wavesOf g).foldl (fun s j => if (s.wave j).phase == .bar n k none then s.setWave j (s.wave j).depart else s) s

/-- Completes the barrier of set `n` if every counted wave has arrived: the waves depart, and their departure acquires the
object (R128, R172). Waves that arrived for the next barrier are its first arrivals. DESIGN CHOICE (log 92): the members
counted for that next barrier are those at this completion, not those at the earlier moment at which such a wave came. -/
def State.checkSet (s : State) (g n : Nat) : State :=
  let x := s.group g
  let m := x.set n
  if m.begun ∧ m.arrived &&& m.counted = m.counted then
    let early := (s.atSet g n (m.k + 1)).foldl (fun (b : BitVec 16) j => setBit b (s.wave j).wid true) 0
    let s := s.setGroup g (x.putSet n
      { m with k := m.k + 1, begun := early ≠ 0, counted := if early = 0 then 0 else m.members, arrived := early })
    ((s.departSet g n m.k).acquireOn x.core x.ctx kindSet n []).progress x.ctx
  else s

/-- Key of an engine queue in its cluster (R114). -/
def engineKey (e q : Nat) : Nat := 4 * e + q

/-- Changes the operations in a cluster's queues. -/
def State.mapOps (s : State) (cl : Nat) (f : EngineOp → EngineOp) : State :=
  let k := s.cluster cl
  s.setCluster cl { k with engines := ⟨k.engines.rows.map fun p => (p.1, p.2.map f)⟩ }

/-- A wave that has not supplied its slice no longer counts toward the operations of a set (R102); their queue heads may
start. -/
def State.uncount (s : State) (g wid n : Nat) : State :=
  let cl := (s.group g).core / 4
  let mine := fun (o : EngineOp) => o.group == g && o.set == n && !o.slices.any fun x => x.wid == wid
  let k := s.cluster cl
  if k.engines.rows.any fun p => p.2.any mine then
    let s := s.mapOps cl fun o => if mine o then { o with counted := o.counted.filter (· != wid) } else o
    k.engines.rows.foldl (fun s p => if p.2.any mine then s.postOnce 1 (.copyOperationStart cl (p.1 / 4) (p.1 % 4)) else s) s
  else s

/-- A wave leaves a set (R171): it is no longer counted there (R172). -/
def State.leaveSet (s : State) (g wid n : Nat) : State :=
  let s := s.uncount g wid n
  let x := s.group g
  let m := x.set n
  (s.setGroup g (x.putSet n { m with
    members := setBit m.members wid false, counted := setBit m.counted wid false
    arrived := setBit m.arrived wid false })).checkSet g n

/-- The rotation of a list to the left. -/
def rotate {α : Type} (n : Nat) (l : List α) : List α := l.drop n ++ l.take n

/-- The clusters on which the launch has a resident wave waiting at its barrier, not parked (R218). -/
def State.barrierClusters (s : State) (launch k : Nat) : List Nat :=
  (List.range 96).filter fun cl => s.waves.rows.any fun p =>
    let g := s.group p.2.group
    decide (g.launch = launch) && decide (g.core / 4 = cl) && g.phase == .resident && p.2.phase == .lbar k none

/-- The waves of every group of a launch that the Gatherer has launched and that has not ended (R173). -/
def State.launchWaves (s : State) (l : Nat) : List Nat :=
  ((s.groups.rows.filter fun p => decide (p.2.launch = l) && p.2.phase != .ended).flatMap fun p => s.wavesOf p.1).filter
    fun k => (s.wave k).phase != .ended

/-- The waves of a launch that wait at its `k`-th barrier, parked or not. -/
def State.atLaunch (s : State) (l k : Nat) : List Nat :=
  (s.launchWaves l).filter fun j =>
    match (s.wave j).phase with
    | .lbar k' _ => k' == k
    | _ => false

/-- Completes the launch barrier if every counted wave has arrived: each cluster's departure is a start event, in the order
of R218. Waves that arrived for the next barrier are its first arrivals. DESIGN CHOICE (log 92): the waves counted for that
next barrier are those at this completion, not those at the earlier moment at which such a wave came. -/
def State.checkLaunchBarrier (s : State) (l : Nat) : State :=
  let x := s.launch l
  if x.lbegun ∧ x.lcounted.all (x.larrived.contains ·) then
    let cs := s.barrierClusters l x.lk
    let order := rotate (x.lk % max 1 cs.length) cs
    let early := s.atLaunch l (x.lk + 1)
    let s := s.setLaunch l
      { x with
        lk := x.lk + 1, lbegun := !early.isEmpty, lcounted := if early.isEmpty then [] else s.launchWaves l, larrived := early }
    (({ s with starts := s.starts ++ order.map fun c => { cluster := c, barrier := some (l, x.lk) } } : State).postOnce 0
      .startEventAdmission).progress x.ctx
  else s

/-! ### The end of a wave (R165, R302) -/

/-- The waves that hold registers on a core. -/
def State.wavesOn (s : State) (core : Nat) : List Nat :=
  ((s.resident core).flatMap s.wavesOf).filter fun k => (s.wave k).phase != .ended

/-- A wave is in register wait (R200, R201). -/
def Phase.isRegWait : Phase → Bool
  | .regWait _ _ _ => true
  | _ => false

/-- The backing count of a core may have fallen: waiting requests are looked at (R200, R201). -/
def State.qFell (s : State) (core : Nat) : State :=
  if (s.wavesOn core).any fun k => (s.wave k).phase.isRegWait then s.postOnce 0 (.growGrant core) else s

/-- A group with a stop request may have come to its stop (R244). -/
def State.noteStop (s : State) (g : Nat) : State :=
  if (s.group g).stopReq.isSome then s.postOnce 0 (.groupStop g) else s

/-- A wave with no live lane ends: it leaves its sets, its lock bits are cleared (R53), its recipes are dropped; with the
last wave of the group the group ends (R118). -/
def State.endWave (s : State) (k : Nat) : State :=
  let w := s.wave k
  let g := w.group
  let x := s.group g
  let s := s.setWave k { w with phase := .ended, handler := false, recipes := [], regen := [], slocks := [], waiting := false }
  let c := s.core x.core
  let s := s.setCore x.core { c with locks := ⟨c.locks.rows.filter fun p => p.2 != k⟩ }
  let s := (x.sets.keys.filter fun n => (x.set n).has w.wid).foldl (fun s n => s.leaveSet g w.wid n) s
  let l := s.launch x.launch
  let s := (s.setLaunch x.launch
    { l with lcounted := l.lcounted.filter (· != k), larrived := l.larrived.filter (· != k) }).checkLaunchBarrier x.launch
  let s := s.qFell x.core
  if (s.wavesOf g).all fun j => (s.wave j).phase == .ended then
    (s.setGroup g { s.group g with phase := .ending }).post 0 (.groupTeardown g)
  else s.noteStop g

/-- Every wave of a group ends (R240 KILL, R439). -/
def State.endGroup (s : State) (g : Nat) : State :=
  (s.wavesOf g).foldl (fun s k => if (s.wave k).phase == .ended then s else s.endWave k) s

/-! ### The end of an instruction (R165, R191) -/

/-- The wave after its issuing lanes took the PCs `tgt`. `moved`: the instruction moved lanes to a new PC; `branch`: by a
branch, jump, call or return; `ends`: it ends a quantum by itself (R169). -/
def Wave.moveTo (w : Wave) (tgt : Nat → Word) (moved branch ends : Bool) : Wave :=
  let w1 := w.land tgt
  w.settle { w1 with quantum := w.quantumAfter w1 (moved || ends) } (branch && w.goesBack tgt)

/-- The instruction is done: the issuing lanes take the PCs `tgt`, or a regeneration moves to its next instruction, `n`
bytes on; a wave without a live lane ends (R165, R191). -/
def State.finishAt (s : State) (n : Nat) (tgt : Nat → Word) (moved branch ends : Bool) : State :=
  let w := s.w
  match w.regen with
  | r :: rest =>
    s.setW { w with
      regen := { r with pc := r.pc + n + (if w.pre.isSome then 4 else 0), left := r.left - 1 } :: rest
      pre := none, waiting := false, scanned := false }
  | [] =>
    let s := s.setW (w.moveTo tgt moved branch ends)
    if s.w.handler = false ∧ s.w.live = 0 then s.endWave s.cur else s

/-- The issuing lanes continue at the next instruction, `n` bytes on. -/
def State.finish (s : State) (n : Nat) : State := s.finishAt n (fun _ => s.w.nextPc n) false false false

/-! ### Traps (R234 to R239) -/

/-- What a trap reports: its cause, TADDR and TINFO (R234), the context that owns the failing level of a translation fault
(R38), and the length of the instruction, for SKIP (R240). -/
structure Trap where
  cause : Nat
  addr : DWord := 0
  info : DWord := 0
  owner : Option Nat := none
  len : Nat := 4
  deriving DecidableEq, Repr

/-- The nearest context of a chain that receives faults in its ring; none means the partition's front end (R238). -/
def State.ringOf (s : State) (cs : List Nat) : Option Nat := cs.find? fun c => (s.ctx c).fltEn

/-- An event reaches a front end: it replaces the record (R436). -/
def State.notice (s : State) (f : Nat) (e : RingEntry) : State :=
  let x := s.frontEnd f
  s.setFrontEnd f { x with event := e, events := x.events + 1 }

/-- A ring entry goes to a front end in place of a ring; it is charged to its context (R239, R253). -/
def State.toFrontEnd (s : State) (f : Nat) (e : RingEntry) : State := (s.notice f e).charge e.ctx 0x10 1

/-- An entry goes to a ring, or to the front end of a partition (R239). -/
def State.toRing (s : State) (ring : Option Nat) (part : Nat) (e : RingEntry) : State :=
  match ring with
  | some c => (s.setCtx c { s.ctx c with ringQ := (s.ctx c).ringQ ++ [e] }).postOnce 0 (.faultRingWrite c)
  | none => s.toFrontEnd part e

/-- A group is in handler mode while one of its waves is (R242). -/
def State.groupHandler (s : State) (g : Nat) : Bool := (s.wavesOf g).any fun k => (s.wave k).handler

/-- The matrix commands of a group that have not started go to its frozen batch, in order (R242). -/
def State.freeze (s : State) (g : Nat) : State :=
  let x := s.group g
  let c := s.core x.core
  let mine := c.matrixQ.filter fun m => m.group == g && !m.started
  (s.setCore x.core { c with matrixQ := c.matrixQ.filter fun m => !(m.group == g && !m.started) }).setGroup g
    { x with frozen := x.frozen ++ mine }

/-- The frozen batch of a group resumes, in order (R243). -/
def State.thaw (s : State) (g : Nat) : State :=
  let x := s.group g
  let c := s.core x.core
  (s.setCore x.core { c with matrixQ := c.matrixQ ++ x.frozen }).setGroup g { x with frozen := [] }

/-- A wave drops what the trapped instruction had begun: its prefix, its scan, its regenerations, whose backing is free again
(R201), the lock bits taken by an SLOCK, which it still holds (R366). -/
def State.undo (s : State) (k : Nat) : State :=
  let w := s.wave k
  let core := (s.group w.group).core
  let c := s.core core
  let s := if w.slocks.isEmpty then s
    else s.setCore core { c with locks := ⟨c.locks.rows.filter fun p => !(p.2 == k && w.slocks.any fun q => q.1 == p.1)⟩ }
  let s := s.setWave k { w with
    pre := none, scanned := false, wbOut := 0, waiting := false, stay := none, regen := [], slocks := [], retryAt := 0
    bankWait := none, checked := false
    remoteHold := false, held := none, remoteFault := none, needs := [] }
  if w.regen.isEmpty then s else s.qFell core

/-- The wave enters handler mode (R236). -/
def Wave.enter (w : Wave) (t : Trap) (tepc : Nat) : Wave :=
  { w with
    tcause := BitVec.ofNat 64 t.cause, tepc := BitVec.ofNat 64 tepc, taddr := t.addr, tinfo := t.info
    handler := true, preempted := t.cause = 0x0C, hdx := lanesOf fun _ => w.tvec.setWidth 32
    timer := 0, backBranch := false, quantum := none, quantumDue := false }

/-- The cause goes to the group's handler (R238, rule 3). -/
def State.toHandler (s : State) (k : Nat) (t : Trap) : Bool :=
  let w := s.wave k
  let g := s.group w.group
  (t.owner.all (· == g.ctx)) && w.tvec.getLsbD 32 && !g.ep.reflect.getLsbD t.cause && !w.handler

/-- The ring entry of a wave's trap (R239). -/
def State.entryOf (s : State) (k tepc : Nat) (t : Trap) (refl : Bool) : RingEntry :=
  let w := s.wave k
  let g := s.group w.group
  { ctx := g.ctx, tcause := t.cause + 2 ^ 8 * w.handler.toNat + 2 ^ 9 * refl.toNat, tepc := tepc, taddr := t.addr
    tinfo := t.info, gid := g.gid, word2c := w.wid + 2 ^ 8 * g.node + 2 ^ 16 * (s.ctx g.ctx).depth
    ticket := s.nextTicket }

/-- The wave stops at its instruction until a verdict on a new ticket, and the entry goes to a ring (R238, R240). -/
def State.reflect (s : State) (k tepc : Nat) (t : Trap) (cs : List Nat) (refl : Bool) : State :=
  let w := s.wave k
  let g := s.group w.group
  let part := s.partition g.ctx
  let ring := s.ringOf cs
  let e := s.entryOf k tepc t refl
  let n := s.nextTicket
  let tk : Ticket := { wave := k, tepc := tepc, ring := ring.getD part, frontEnd := ring.isNone, skip := t.len }
  let s : State := { s with tickets := s.tickets.set n tk, nextTicket := n + 1 }
  ((s.setWave k { w with phase := .verdict n }).toRing ring part e).noteStop w.group

/-- The HBM row of a physical address. DESIGN CHOICE (log 90): the manual states no size; a row has 1 KiB. -/
def hbmRow (pa : Nat) : Nat := pa / 1024

/-- The unit that holds an uncorrectable word which a wave of context `c` on a core met (R241, R444): its code, and the slice,
the HBM row or the core. -/
def State.testUnit (s : State) (core c : Nat) (t : Trap) : Nat × Nat :=
  let unit := bits t.info.toNat 31 24
  (unit,
    if unit = 7 then bits t.info.toNat 23 16
    else if unit = 8 then
      match (walk s [] (s.chain c) t.addr.toNat).2 with
      | .ok w => hbmRow w.pa
      | .error _ => 0
    else core)

/-- A detected error schedules a self-test of the unit that holds the word, where it is detected, on a core for a context: of the
core, the slice or the HBM row (R444). The cluster that met an error of a slice or a row counts it as transient if the unit
passes (log 90). -/
def State.scheduleTest (s : State) (core c : Nat) (t : Trap) : State :=
  if t.cause = 0x0B then
    let u := s.testUnit core c t
    let s : State := if u.1 = 7 ∨ u.1 = 8 then { s with metIn := s.metIn.set (2 * u.2 + (u.1 - 7)) (core / 4) } else s
    s.post 0 (.selfTestStart u.1 u.2)
  else s

/-- Wave `k` takes a trap at an offset (R236, R238): to its handler, to the ring of the ancestor that owns the failing
level, or reflected to the ring of the parent. -/
def State.trapAt (s : State) (k tepc : Nat) (t : Trap) : State :=
  let s := s.undo k
  let w := s.wave k
  let g := s.group w.group
  if s.toHandler k t then
    let first := !s.groupHandler w.group
    let s := (s.setWave k (w.enter t tepc)).charge g.ctx 0x10 1
    if first then s.freeze w.group else s
  else if t.owner.any (· != g.ctx) then s.reflect k tepc t (s.chain (t.owner.getD g.ctx)) false
  else s.reflect k tepc t (s.chain g.ctx).tail true

/-- The issuing wave takes a trap at its issue PC; an XMOD before the instruction counts in its length; in a
slice the instruction that waits for it is the one that traps (R192). -/
def State.takeTrap (s : State) (t : Trap) : State :=
  let len := match s.w.regen with
    | r :: _ => r.skip
    | [] => t.len + (if s.w.pre.isSome then 4 else 0)
  s.trapAt s.cur s.w.ipc { t with len := len }

/-- The issuing wave meets the reason of a trap in its instruction and takes it; an uncorrectable word schedules a self-test of
its unit (R444). -/
def State.trap (s : State) (t : Trap) : State := (s.scheduleTest s.g.core s.g.ctx t).takeTrap t

/-- ILLEGAL_OPERAND (R275): code, field, register and lane. -/
def illegalOperand (code field reg : Nat) (lane : Nat := 0) : Trap :=
  { cause := 0x02, info := BitVec.ofNat 64 (code + 2 ^ 8 * field + 2 ^ 16 * reg + 2 ^ 24 * lane) }

/-- The trap of a memory fault (R35, R36). -/
def memTrap (f : MemFault) (a : Acc) (lane : Nat) : Trap :=
  { cause := f.cause, addr := BitVec.ofNat 64 f.addr, info := memInfo f a lane, owner := f.owner }

/-- The lane PCs of the interrupted Ductus give lanes at an offset; they move `n` bytes on (SKIP, R240). -/
def Wave.skipFrom (w : Wave) (tepc n : Nat) : Wave :=
  w.setDuct (lanesOf fun l =>
    if (lane w.duct l).toNat = tepc ∧ bit w.eligible l then BitVec.ofNat 32 (tepc + n) else lane w.duct l)

/-- The end of handler mode (R237): the handler Ductus is discarded; at the group's last TRET the frozen batch resumes
(R243). -/
def State.leaveHandler (s : State) (k : Nat) : State :=
  let w := s.wave k
  let s := s.setWave k { w with
    handler := false, preempted := false, hdx := retiredLanes, quantum := none, quantumDue := false, pre := none
    waiting := false, scanned := false, retryAt := 0, timer := 0, backBranch := false }
  if s.groupHandler w.group then s else s.thaw w.group

/-- A fault without a wave (R447): to the ring of the ancestor that owns the failing level, else to the ring of the
parent. -/
def State.lonelyFault (s : State) (c cause : Nat) (addr info : DWord) (owner : Option Nat) (word2c : Nat := 0) : State :=
  let up := owner.any (· != c)
  let cs := if up then s.chain (owner.getD c) else (s.chain c).tail
  s.toRing (s.ringOf cs) (s.partition c)
    { ctx := c, tcause := cause + (if up then 0 else 2 ^ 9), taddr := addr, tinfo := info
      word2c := word2c + 2 ^ 16 * (s.ctx c).depth }

end Sys2Proof.Machine
end

