-- ==== Sys2Proof/Machine/Operands.lean ====
section
/-!
DEFINITION. What stands before every instruction's effect: the operand checks (R273, R275), busy scalars and masks (R282),
pins (R189), empty sources (R178), demoted sources and destinations (R191), with the register backing that a regeneration
needs (R190, R200, R201).
-/

namespace Sys2Proof.Machine

/-- The kinds of a register operand (R265). `mw` is a mask that is written. -/
inductive Kind where
  | v | v2 | f | d | p | s | s2 | m | mw
  deriving DecidableEq, Repr

/-- A register operand of an instruction: its field number (R275), its kind, its register, the highest register of its
field (R270), the role in which it is read (0 va, 1 vb, 2 third source, 3 another source), and whether it is written. -/
structure Opnd where
  field : Nat
  kind : Kind
  reg : Nat
  top : Nat := 127
  src : Option Nat := none
  dst : Bool := false
  /-- of a jet, the only coefficients it touches: the first and how many; none = 0 to k -/
  sel : Option (Nat × Nat) := none
  deriving DecidableEq, Repr

/-- The group size of a jet order: the least power of two that is at least k + 1 (R86). -/
def groupSize (k : Nat) : Nat := if k = 0 then 1 else if k = 1 then 2 else if k ≤ 3 then 4 else 8

/-- Vector registers that the operand names (R66, R86). -/
def Opnd.span (o : Opnd) (k : Nat) : Nat :=
  match o.kind with
  | .v | .p => 1
  | .v2 => 2
  | .f => groupSize k
  | .d => 2 * groupSize k
  | .s | .s2 | .m | .mw => 0

/-- Vector registers that the instruction reads or writes: of a jet, those of coefficients 0 to k (R86). -/
def Opnd.used (o : Opnd) (k : Nat) : Nat :=
  match o.kind with
  | .v | .p => 1
  | .v2 => 2
  | .f => k + 1
  | .d => 2 * (k + 1)
  | .s | .s2 | .m | .mw => 0

/-- The named registers. -/
def Opnd.named (o : Opnd) (k : Nat) : List Nat := (List.range (o.span k)).map (o.reg + ·)
/-- The registers read or written. -/
def Opnd.regs (o : Opnd) (k : Nat) : List Nat :=
  match o.sel with
  | none => (List.range (o.used k)).map (o.reg + ·)
  | some (j, n) => (List.range (n * (o.used k / (k + 1)))).map (o.reg + j * (o.used k / (k + 1)) + ·)

/-- The first failing code of an operand, for a wave of `g` granules at jet order `k` (R275). -/
def Opnd.code (o : Opnd) (g k : Nat) : Option Nat :=
  match o.kind with
  | .v => if 8 * g ≤ o.reg then some 0x01 else if o.top < o.reg then some 0x06 else none
  | .p => if 8 * g ≤ o.reg then some 0x01 else if k ≠ 0 then some 0x05 else if o.top < o.reg then some 0x06 else none
  | .v2 => if 8 * g < o.reg + 2 then some 0x01 else if o.reg % 2 = 1 then some 0x03 else none
  | .f | .d =>
    if 8 * g < o.reg + o.span k then some 0x01
    else if o.reg % o.span k ≠ 0 then some 0x02
    else if o.top < o.reg + o.span k - 1 then some 0x06
    else none
  | .s2 => if o.reg % 2 = 1 then some 0x03 else none
  | .mw => if o.reg = 0 then some 0x04 else none
  | .s | .m => none

/-- The first operand check that fails, field by field (R275). -/
def operandTrap (w : Wave) (n : Nat) : List Opnd → Option Trap
  | [] => none
  | o :: t =>
    match o.code w.granules w.order with
    | some c => some { illegalOperand c o.field o.reg with len := n }
    | none => operandTrap w n t

/-- A scalar or mask operand, or the predicate mask, has an outstanding producer (R282). -/
def busy (w : Wave) (os : List Opnd) : Bool :=
  (w.pre.any fun x => w.mbusy.getLsbD x.pm) || os.any fun o =>
    match o.kind with
    | .s => w.sbusy.getLsbD o.reg
    | .s2 => w.sbusy.getLsbD o.reg || w.sbusy.getLsbD (o.reg + 1)
    | .m | .mw => w.mbusy.getLsbD o.reg
    | _ => false

/-- The lowest entry of some recipes. -/
def lowestEntry (l : List Recipe) : Nat := l.foldr (fun x n => min x.entry n) 255

/-- PIN_VIOLATION of a destination register (R189, R195). -/
def pinTrap (scalar : Bool) (r n : Nat) (l : List Recipe) : Trap :=
  { cause := 0x06, info := BitVec.ofNat 64 (r + 2 ^ 7 * scalar.toNat + 2 ^ 8 * lowestEntry l), len := n }

/-- The first pinned register among the destinations (R189); a slice that is replayed writes its own set (R191). -/
def pinned (w : Wave) (n : Nat) (os : List Opnd) : Option Trap :=
  if w.recipes.isEmpty || !w.regen.isEmpty then none
  else (os.filter (·.dst)).findSome? fun o =>
    match o.kind with
    | .s => if (w.spinned o.reg).isEmpty then none else some (pinTrap true o.reg n (w.spinned o.reg))
    | _ => (o.regs w.order).findSome? fun r =>
        if (w.vpinned r).isEmpty then none else some (pinTrap false r n (w.vpinned r))

/-! ### Register backing (R190, R200, R201) -/

/-- The names of a wave's registers that are demoted; those of a set being regenerated have their backing already (R201). -/
def Wave.demotedNames (w : Wave) : Nat :=
  sumNat ((w.recipes.filter fun x => x.demoted && !(w.regen.any fun r => r.entry == x.entry)).map (·.count))

/-- The backing count Q of a core (R200). -/
def State.backing (s : State) (core : Nat) : Nat :=
  sumNat ((s.wavesOn core).map fun k => 8 * (s.wave k).granules - (s.wave k).demotedNames)

/-- A set of a wave becomes demoted: its registers hold no values (R190). -/
def Wave.demote (w : Wave) (e : Nat) : Wave :=
  match w.recipes.find? fun x => x.entry == e && !x.demoted with
  | none => w
  | some x =>
    { w with recipes := w.recipes.map fun y => if y.entry = e then { y with demoted := true } else y
             v := x.regs.foldl (fun t r => t.erase r) w.v }

/-- The eligible materialised sets of a core, as wave and recipe: not those being regenerated, nor those that an
instruction has yet to read, nor those with a result on its way (R190). -/
def State.demotable (s : State) (core : Nat) : List (Nat × Recipe) :=
  (s.wavesOn core).flatMap fun k =>
    let w := s.wave k
    (w.recipes.filter fun x => !x.demoted && !(w.regen.any fun r => r.entry == x.entry) && !w.needs.contains x.entry &&
      x.regs.all fun r => !w.isEmpty r).map fun x => (k, x)

/-- The least recently used of some sets (R190). -/
def leastUsed : List (Nat × Recipe) → Option (Nat × Recipe)
  | [] => none
  | p :: t =>
    match leastUsed t with
    | some q => if q.2.used < p.2.used then some q else some p
    | none => some p

/-- The core demotes its least recently used eligible materialised set, if it has one; the demotion is charged (R253). -/
def State.demoteOne (s : State) (core : Nat) : Option State :=
  match leastUsed (s.demotable core) with
  | none => none
  | some (k, x) => some ((s.setWave k ((s.wave k).demote x.entry)).charge (s.group (s.wave k).group).ctx 0x09 1)

/-- Demotes until `n` more names fit in the 2,048 physical registers or nothing is left to demote (R200). -/
def State.makeRoom (s : State) (core n : Nat) : Nat → State
  | 0 => s
  | fuel + 1 =>
    if s.backing core + n ≤ Config.physRegs then s
    else match s.demoteOne core with
      | some s' => s'.makeRoom core n fuel
      | none => s

/-- The waves of a core in register wait: since when, the wave, the names it waits for, and whether a GROW waits. -/
def State.regWaiters (s : State) (core : Nat) : List (Nat × Nat × Nat × Bool) :=
  (s.wavesOn core).filterMap fun k => match (s.wave k).phase with
    | .regWait n t g => some (t, k, n, g)
    | _ => none

/-- The oldest of the waiting requests. -/
def oldestWait : List (Nat × Nat × Nat × Bool) → Option (Nat × Nat × Nat × Bool)
  | [] => none
  | p :: t =>
    match oldestWait t with
    | some q => if q.1 < p.1 then some q else some p
    | none => some p

/-- The oldest waiting request of a core, which is granted before the others, can be granted: its names fit, after demotions if
need be (R200). -/
def State.grantable (s : State) (core : Nat) : Bool :=
  match oldestWait (s.regWaiters core) with
  | some (_, _, n, _) => decide ((s.makeRoom core n Config.recipeEntries).backing core + n ≤ Config.physRegs)
  | none => false

/-- A core is in grow deadlock: every resident group has a wave in register wait, and no request can be granted (R202). -/
def State.growStuck (s : State) (core : Nat) : Bool :=
  let gs := s.resident core
  !gs.isEmpty && (gs.all fun g => (s.wavesOf g).any fun k => (s.wave k).phase.isRegWait) && !s.grantable core

/-- Notes since when a core is in grow deadlock, and when the breaker is due (R202). -/
def State.noteDeadlock (s : State) (core : Nat) : State :=
  let c := s.core core
  if s.growStuck core then
    match c.deadlockSince with
    | some _ => s
    | none => (s.setCore core { c with deadlockSince := some s.now }).post 256 (.growDeadlockBreaker core)
  else s.setCore core { c with deadlockSince := none }

/-- The issuing wave enters register wait for `n` names (R200, R201). -/
def State.registerWait (s : State) (n : Nat) (grow : Bool) : State :=
  let len := if s.w.pre.isSome then 8 else 4
  ((s.setW { s.w.keep with phase := .regWait n s.now grow, barLen := len, pre := none }).postOnce 0
    (.growGrant s.g.core)).noteDeadlock s.g.core

/-- UNCORRECTABLE of a recipe-table entry (R241): unit 9. -/
def recipeError (n : Nat) : Trap := { cause := 0x0B, info := BitVec.ofNat 64 (9 * 2 ^ 24), len := n }

/-- A regeneration of a set begins: its slice will run before the reading instruction (R191), whose lanes and PC the wave
keeps (R8, R192). The recipe-table entry is read (R44), and the set needs backing for its registers first (R201). `n` is the
length of the reading instruction. -/
def State.startRegen (s : State) (n : Nat) (x : Recipe) : State :=
  let core := s.g.core
  let skip := match s.w.regen with
    | r :: _ => r.skip
    | [] => n + (if s.w.pre.isSome then 4 else 0)
  if s.uncorr.contains (9, core, x.entry) then s.trap (recipeError n)
  else
  let s := s.makeRoom core x.count 256
  if Config.physRegs < s.backing core + x.count then s.registerWait x.count false
  else s.setW { s.w.keep with
    regen := { entry := x.entry, pc := x.slice + 4, left := x.len, skip := skip } :: s.w.regen
    needs := x.entry :: s.w.needs, pre := none }

/-- The demoted set of a register that is not being regenerated. -/
def Wave.mustRegen (w : Wave) (r : Nat) : Option Recipe :=
  match w.setOf r with
  | some x => if x.demoted && !(w.regen.any fun y => y.entry == x.entry) then some x else none
  | none => none

/-! ### Sources -/

/-- What a source register asks for before it can be read. -/
inductive Ask where
  | regen (x : Recipe)
  | wait
  | trap (t : Trap)
  deriving DecidableEq, Repr

/-- EMPTY_READ (R195). -/
def emptyRead (role r n : Nat) : Trap := { cause := 0x05, info := BitVec.ofNat 64 (r + 2 ^ 8 * role), len := n }

/-- The trap of a deferred fault at the reading instruction (R28, R36); in a slice that is replayed it is the regeneration fault
of its entry, at the consumer (R192). -/
def deferredTrap (w : Wave) (d : Deferred) (n : Nat) : Trap :=
  let info := fun (entry : Nat) => memInfo d.fault {} d.lane true entry d.ldpc
  match w.regen with
  | [] => { cause := d.fault.cause, addr := BitVec.ofNat 64 d.fault.addr, info := info 0, owner := d.fault.owner, len := n }
  | r :: _ => { cause := 0x07, addr := BitVec.ofNat 64 d.fault.addr, info := info r.entry, owner := d.fault.owner, len := n }

/-- The empty action of a role: true = trap (R178, R267). -/
def Wave.traps (w : Wave) (role : Nat) : Bool :=
  match w.pre with
  | some x => (role == 0 && x.ea) || (role == 1 && x.eb)
  | none => false

/-- UNCORRECTABLE of a register (R241): unit 0, the bank in bits [23:16], the register below. DESIGN CHOICE (log 81): the
bank is that of the name, name r in bank r mod 16. -/
def registerError (r n : Nat) : Trap := { cause := 0x0B, info := BitVec.ofNat 64 (r + 2 ^ 16 * (r % 16)), len := n }

/-- What one source register asks for (R28, R178, R191, R241). -/
def askReg (w : Wave) (n role r : Nat) : Option Ask :=
  match w.mustRegen r with
  | some x => some (.regen x)
  | none =>
    if w.isEmpty r then
      match w.deferred.get? r with
      | some d => some (.trap (deferredTrap w d n))
      | none => if w.traps role then some (.trap (emptyRead role r n)) else some .wait
    else if w.bad.getD r 0 ≠ 0 then some (.trap (registerError r n))
    else none

/-- The sources in the order va, vb, third, others, each with its registers. A jet source waits for its whole group to be full,
but of its registers only those that it reads are regenerated, or meet an uncorrectable word (R86, R241, R310). -/
def askSources (w : Wave) (n : Nat) (os : List Opnd) : Option Ask :=
  [0, 1, 2, 3].findSome? fun role =>
    (os.filter fun o => o.src == some role).findSome? fun o =>
      (o.named w.order).findSome? fun r =>
        if (o.regs w.order).contains r || ((w.mustRegen r).isNone && w.isEmpty r) then askReg w n role r else none

/-- What a destination asks for: a set with demoted registers is regenerated before it is written (R189), and a result on
its way to a register arrives before a younger write (R282). -/
def askDests (w : Wave) (os : List Opnd) : Option Ask :=
  (os.filter (·.dst)).findSome? fun o =>
    (o.regs w.order).findSome? fun r =>
      match w.mustRegen r with
      | some x => some (.regen x)
      | none =>
        if w.pending.any (fun p => p.vregs.any fun q => q.1 == r) || w.held.any (fun p => p.vregs.any fun q => q.1 == r) then some .wait
        else none

/-- The sets that the sources of an instruction name: they are not demoted while it waits (R190). -/
def Wave.keepSets (w : Wave) (os : List Opnd) : Wave :=
  if w.recipes.isEmpty then w
  else
    let rs := (os.filter (·.src.isSome)).flatMap (·.regs w.order)
    { w with needs := (w.needs ++ (w.recipes.filter fun x => x.regs.any (rs.contains ·)).map (·.entry)).eraseDups }

/-- The state in which an instruction that must not execute yet leaves its wave. -/
def State.answer (s : State) (n : Nat) : Ask → State
  | .regen x => s.startRegen n x
  | .wait => s.block
  | .trap t => s.trap t

/-- The deferred fault of a scalar that the instruction reads (R28); one that is written is read where it is a source too. -/
def scalarFault (w : Wave) (n : Nat) (os : List Opnd) : Option Trap :=
  if w.sdeferred.rows.isEmpty then none
  else (os.filter fun o => !o.dst || o.src.isSome).findSome? fun o =>
    match o.kind with
    | .s => (w.sdeferred.get? o.reg).map fun d => deferredTrap w d n
    | .s2 => ((w.sdeferred.get? o.reg).orElse fun _ => w.sdeferred.get? (o.reg + 1)).map fun d => deferredTrap w d n
    | _ => none

/-- What stands before the checks that an instruction of `n` bytes makes itself (R273): the operand checks, the wait for
operands with an outstanding producer (R282), the deferred faults of scalars (R28). -/
def beforeChecks (s : State) (n : Nat) (os : List Opnd) : Option State :=
  match operandTrap s.w n os with
  | some t => some (s.trap t)
  | none => if busy s.w os then some s.block else (scalarFault s.w n os).map s.trap

/-- Everything that stands before the effect of an instruction of `n` bytes with operands `os` and the instruction check
`chk` (R273). Answers nothing when the effect may take place, else the state that follows instead. -/
def prepare (s : State) (n : Nat) (os : List Opnd) (chk : Option Trap) : Option State :=
  match beforeChecks s n os with
  | some s' => some s'
  | none =>
    match chk with
    | some t => some (s.trap { t with len := n })
    | none =>
      match pinned s.w n os with
      | some t => some (s.trap t)
      | none =>
        match askSources s.w n os with
        | some a => some ((s.setW (s.w.keepSets os)).answer n a)
        | none =>
          match askDests s.w os with
          | some a => some ((s.setW (s.w.keepSets os)).answer n a)
          | none => none

/-- A read of a register counts as a use of its set (R190). -/
def Wave.touch (w : Wave) (now : Nat) (os : List Opnd) : Wave :=
  if w.recipes.isEmpty then w
  else
    let rs := (os.filter (·.src.isSome)).flatMap (·.regs w.order)
    { w with recipes := w.recipes.map fun x => if x.regs.any (rs.contains ·) then { x with used := now } else x }

/-- The instruction's effect, once nothing stands before it. -/
def withOperands (s : State) (n : Nat) (os : List Opnd) (chk : Option Trap) (body : State → Out) : Out :=
  match prepare s n os chk with
  | some s' => .next s'
  | none => body (s.setW (s.w.touch s.now os))

end Sys2Proof.Machine
end

