-- ==== Sys2Proof/Machine/Access.lean ====
section
/-!
DEFINITION. The accesses of the lanes: checks of every active lane before any effect (R12), reads and their results on the
way (R177, R338), stores (R121), atomics (R347) and accesses to other packages (R25, R28).
-/

namespace Sys2Proof.Machine

/-- The address of a lane (R262). -/
def laneAddr (base : DWord) (off : Word) (imm n : Nat) : Nat :=
  (base + off.signExtend 64 + BitVec.ofNat 64 (imm * n)).toNat

/-- One access of an instruction: the lane it is made and reported for, the lanes that receive its value, its address. -/
structure Req where
  lane : Nat
  lanes : Word
  addr : Nat
  deriving DecidableEq, Repr

/-- One request for each active lane (R338). -/
def State.laneReqs (s : State) (base off imm n : Nat) : List Req :=
  let v := s.vaReg off
  (lanesIn s.w.active).map fun l =>
    { lane := l, lanes := BitVec.twoPow 32 l, addr := laneAddr (s.sreg base) (lane v l) imm n }

/-- A request with its places, or its failure. -/
abbrev Located := Req × Except MemFault (List Piece)

/-- The places of all the requests (R12). -/
def locateAll (reach : Reach) (a : Acc) (n : Nat) : State → List Req → State × List Located
  | s, [] => (s, [])
  | s, r :: t =>
    let x := locate s s.w reach a r.lane r.addr n
    let u := locateAll reach a n x.1 t
    (u.1, (r, x.2) :: u.2)

/-- The first failure, the lowest lane's (R12); residency is left aside for LDR (R34). -/
def firstFault (skipAbsent : Bool) (l : List Located) : Option (Nat × MemFault) :=
  l.findSome? fun x =>
    match x.2 with
    | .ok _ => none
    | .error f => if skipAbsent && f.reason == rAbsent then none else some (x.1.lane, f)

/-- The places of a request that has them. -/
def Located.pieces (x : Located) : List Piece :=
  match x.2 with
  | .ok p => p
  | .error _ => []

/-- The offset of an address from the entry point of a group (R164). -/
def Group.offset (g : Group) (a : Nat) : Nat := (((a : Int) - (g.ep.addr + 64)) % 2 ^ 32).toNat

/-- The offset of the instruction that is executed: after its prefix, or in the slice that is regenerated. -/
def State.insnOffset (s : State) : Nat :=
  match s.w.regen with
  | r :: _ => s.g.offset r.pc + (if s.w.pre.isSome then 4 else 0)
  | [] => s.w.ipc + (if s.w.pre.isSome then 4 else 0)

/-- A memory fault of the instruction that is executed; in a slice it is a regeneration fault at the consumer (R192). -/
def State.memFault (s : State) (f : MemFault) (a : Acc) (lane : Nat) : State :=
  match s.w.regen with
  | [] => s.trap (memTrap f a lane)
  | r :: _ =>
    s.trap { cause := 0x07, addr := BitVec.ofNat 64 f.addr, info := memInfo f a lane true r.entry s.insnOffset
             owner := f.owner }

/-! ### Uncorrectable words (R44, R241) -/

/-- The uncorrectable word that an access of a core to a physical byte meets: in the L1, or at the home slice. -/
def State.badByte (s : State) (core pa : Nat) (cached : Bool) : Option (Nat × Nat) :=
  if cached then (if s.uncorr.contains (6, core, pa / 8) then some (6, 0) else none) else s.badHome pa

/-- The uncorrectable word that an access to `n` bytes of a line meets. A load that hits reads them in the L1, another takes the
dirty ones there and the rest at home (R56); of an access at home the words that hold a dirty byte have been written back
(R57). -/
def State.badPhys (s : State) (core pa n : Nat) (home : Bool) : Option (Nat × Nat) :=
  match (s.core core).l1Find (pa / 128) with
  | none => (List.range n).findSome? fun i => s.badByte core (pa + i) false
  | some l =>
    let hit := !home && l.valid &&& byteMask (pa % 128) n == byteMask (pa % 128) n
    (List.range n).findSome? fun i =>
      let o := (pa + i) % 128
      s.badByte core (pa + i) (hit || if home then l.dirty &&& byteMask (o - o % 8) 8 != 0 else l.dirty.getLsbD o)

/-- The unit, and the bank or slice, of the uncorrectable word that a read of a piece meets. -/
def State.badPiece (s : State) (core : Nat) (p : Piece) (home : Bool := false) : Option (Nat × Nat) :=
  let bad := fun unit core a => s.uncorr.any fun e => e.1 == unit && e.2.1 == core && e.2.2 == a / 8
  match p.1 with
  | .buf .s o => if bad 1 core o then some (1, o / 4 % 32) else none
  | .buf .a o => if bad 2 core o then some (2, o / 128 % 8) else none
  | .buf .w o => if bad 3 core o then some (3, o / 128 % 8) else none
  | .buf .c o => if bad 4 core o then some (4, o / 256 % 8) else none
  | .phys pa _ => s.badPhys core pa p.2 home
  | .host _ => none

/-- The first request that reads an uncorrectable word, as a trap; `home`: the words are read at their home slices. -/
def State.badRead (s : State) (l : List Located) (home : Bool := false) : Option Trap :=
  if s.uncorr.isEmpty then none
  else l.findSome? fun x => (Located.pieces x).findSome? fun p =>
    (s.badPiece s.g.core p home).map fun u =>
      { cause := 0x0B, addr := BitVec.ofNat 64 x.1.addr, info := BitVec.ofNat 64 (u.1 * 2 ^ 24 + u.2 * 2 ^ 16) }

/-! ### Results on their way (R177) -/

/-- Marks the destinations of a result empty, or busy. -/
def Wave.expect (w : Wave) (p : Pending) : Wave :=
  let w := p.vregs.foldl (fun w q =>
    let w := if w.regen.isEmpty then w.ordinary q.1 else w
    { w with empty := setBit w.empty q.1 true, deferred := w.deferred.erase q.1 }) w
  { w with
    mbusy := match p.mask with
      | some q => setBit w.mbusy q.1 true
      | none => w.mbusy
    sbusy := match p.sreg with
      | some q => setBit w.sbusy q.1 true
      | none => w.sbusy
    sdeferred := match p.sreg with
      | some q => w.sdeferred.erase q.1
      | none => w.sdeferred }

/-- The registers of a result are empty while its instruction is held (R338). -/
def Wave.hollow (w : Wave) (p : Pending) : Wave :=
  { w with empty := p.vregs.foldl (fun e q => setBit e q.1 true) w.empty }

/-- The held instruction has had no effect: its registers are full, as they were when it read them (R28). -/
def Wave.unexpect (w : Wave) (p : Pending) : Wave :=
  { w with empty := p.vregs.foldl (fun e q => setBit e q.1 false) w.empty }

/-- The result leaves: it arrives by LOAD_RESULT_RETURN, or when its last access to another package has. -/
def State.await (s : State) (p : Pending) : State :=
  let w := s.w
  let s := s.setW { w.expect p with pending := w.pending ++ [p] }
  if p.remote then s else s.post 1 (.loadResultReturn s.cur p.tag)

/-- The value `x` of `width` bytes goes into the elements of a result, from byte `off` of each element. -/
def Pending.put (p : Pending) (lanes : Word) (off width x : Nat) : Pending :=
  let word := fun (j : Nat) => BitVec.ofNat 32 (x / 2 ^ (32 * (j - off / 4)))
  let upd := fun (j : Nat) (v : Lanes) =>
    if off / 4 ≤ j ∧ j ≤ (off + width - 1) / 4 then blend lanes (lanesOf fun _ => word j) v else v
  { p with
    vregs := p.vregs.zipIdx.map fun q => (q.1.1, upd q.2 q.1.2)
    sreg := p.sreg.map fun q =>
      (q.1, BitVec.ofNat 64 (if off = 0 then (if width = 8 then x else x + q.2.toNat / 2 ^ 32 * 2 ^ 32)
        else q.2.toNat % 2 ^ 32 + x * 2 ^ 32)) }

/-- The result arrives: the elements of its lanes, its mask or its scalar are written, the registers become full unless
they are marked empty or hold a deferred fault (R28, R177). -/
def Wave.deliver (w : Wave) (p : Pending) : Wave :=
  let w := p.vregs.foldl (fun w q =>
    { w with v := w.v.set q.1 (blend p.lanes q.2 (w.vreg q.1)), bad := badCure w.bad p.lanes q.1
             empty := setBit w.empty q.1 (p.dem || (w.deferred.get? q.1).isSome) }) w
  let w := match p.mask with
    | some (m, ls, x) => { w.writeM ls m x with mbusy := setBit w.mbusy m false }
    | none => w
  let w := match p.sreg with
    | some (r, x) => { w with s := w.s.set r x, sbusy := setBit w.sbusy r false }
    | none => w
  { w with pending := w.pending.filter fun q => q.tag != p.tag }

/-- LOAD_RESULT_RETURN (R177). -/
def execLoadResultReturn (k tag : Nat) (s : State) : Out :=
  let w := s.wave k
  match w.pending.find? fun p => p.tag == tag with
  | some p => .next (s.setWave k (w.deliver p))
  | none => .next s

/-! ### Reading -/

/-- A piece that must be read in another package: it is remote and its bytes are not all valid in the L1 (R121). -/
def State.mustLeave (s : State) (p : Piece) : Bool :=
  match p.1 with
  | .phys pa _ =>
    isRemote s pa && !(((s.core s.g.core).l1Find (pa / 128)).any fun l =>
      l.valid &&& byteMask (pa % 128) p.2 == byteMask (pa % 128) p.2)
  | _ => false

/-- A byte of an access lies in an access to another package that the wave has under way: later accesses to that location
wait for it (R122). -/
def State.inFlight (s : State) (l : List Located) : Bool :=
  !s.w.remotes.isEmpty && l.any fun x => (Located.pieces x).any fun p =>
    match p.1 with
    | .phys pa _ => s.w.remotes.any fun m => decide (m.pa < pa + p.2) && decide (pa < m.pa + m.width)
    | _ => false

/-- The global addresses of the parts of a request (R17), for a later translation (R28). -/
def State.partVa (s : State) (r : Req) (n i : Nat) : Nat :=
  match apertureParts s s.w {} r.lane r.addr n with
  | .ok ps =>
    match ps[i]? with
    | some (.glob va _) => va
    | _ => 0
  | .error _ => 0

/-- The lanes of a result receive what an access of the same result to the same bytes receives (R122): it has left already. -/
def Wave.join (w : Wave) (owner pa width off : Nat) (lanes : Word) : Option Wave :=
  let same := fun (m : Remote) => m.owner == owner && m.pa == pa && m.width == width && m.off == off
  if w.remotes.any same then
    some { w with remotes := w.remotes.map fun m => if same m then { m with lanes := m.lanes ||| lanes } else m }
  else none

/-- The bytes that one instruction has read, by location: several lanes that load a location receive the same value
(R122). -/
abbrev Seen := List ((Nat × Nat) × Byte)

/-- The bytes of a place as the instruction read them before, where it did, else `x`. -/
def seenBytes (q : Seen) (p : Place) (x : List Byte) : List Byte :=
  x.zipIdx.map fun b => ((q.find? fun e => e.1 == p.at b.2).map (·.2)).getD b.1

/-- The instruction has read every byte of a piece. -/
def allSeen (q : Seen) (p : Piece) : Bool := (List.range p.2).all fun i => q.any fun e => e.1 == p.1.at i

/-- Reads a piece for a result, or takes the bytes from what the instruction has read. -/
def State.readSeen (s : State) (q : Seen) (p : Piece) : State × Seen × List Byte :=
  if allSeen q p then (s, q, seenBytes q p.1 (List.replicate p.2 0))
  else
    let r := s.readPiece s.g.core s.g.ctx p
    let x := seenBytes q p.1 r.2
    (r.1, q ++ x.zipIdx.map fun b => (p.1.at b.2, b.1), x)

/-- Reads the pieces of a request into a result, from byte `off` of the element; those of other packages leave. What the
instruction has read is kept, so that lanes which load one location receive one value (R122). DESIGN CHOICE (log 84): a
scalar load takes the bytes of the wave's queued stores, also without a fence between them (R125). -/
def readInto (r : Req) (n : Nat) : State → Seen → Pending → Nat → Nat → List Piece → State × Seen × Pending
  | s, z, p, _, _, [] => (s, z, p)
  | s, z, p, i, off, q :: t =>
    if s.mustLeave q && !allSeen z q then
      match q.1 with
      | .phys pa exp =>
        let w := s.w
        match w.join p.tag pa q.2 off r.lanes with
        | some w => readInto r n (s.setW w) z p (i + 1) (off + q.2) t
        | none =>
          let m : Remote :=
            { tag := w.nextTag, owner := p.tag, va := s.partVa r n i, pa := pa, exp := exp, width := q.2, lane := r.lane
              lanes := r.lanes, off := off, pc := s.insnOffset }
          let s := (s.setW { w with nextTag := w.nextTag + 1, remotes := w.remotes ++ [m] }).post 560
            (.remoteAccessArrival s.cur m.tag)
          readInto r n s z { p with remote := true } (i + 1) (off + q.2) t
      | _ => readInto r n s z p (i + 1) (off + q.2) t
    else
      let x := s.readSeen z q
      let p := p.put r.lanes off q.2 (leNat (forward s.w.storeQ q.1 x.2.2))
      readInto r n x.1 x.2.1 p (i + 1) (off + q.2) t

/-- Reads all requests, in ascending order. -/
def readAll (n : Nat) : State → Seen → Pending → List Located → State × Pending
  | s, _, p, [] => (s, p)
  | s, z, p, x :: t =>
    let u := readInto x.1 n s z p 0 0 (Located.pieces x)
    readAll n u.1 u.2.1 u.2.2 t

/-- Some request reaches the host window. -/
def anyHost (l : List Located) : Bool := l.any fun x => (Located.pieces x).any fun p =>
  match p.1 with
  | .host _ => true
  | _ => false

/-- What a load waits for once its checks are made: the stores queued before it where it reaches the host window (R121), and
an access of the wave that is under way to the same bytes of another package (R122). Answers whether it waits. -/
def State.loadWaits (s : State) (l : List Located) : State × Bool :=
  let s := if anyHost l then s.drain s.cur else s
  (s, anyHost l && !s.w.storeQ.isEmpty || s.inFlight l)

/-- A run of reads under the wave's own ordering, as loads of `n` bytes: the bytes, or the state that follows instead, a fault,
an uncorrectable word or a wait. -/
def State.readRun (s : State) (reach : Reach) (n : Nat) (reqs : List Req) : State × Except State (List Byte) :=
  let r := locateAll reach {} n s reqs
  match firstFault false r.2 with
  | some (l, f) => (r.1, .error (r.1.memFault f {} l))
  | none =>
    match r.1.badRead r.2 with
    | some t => (r.1, .error (r.1.trap t))
    | none =>
      let u := r.1.loadWaits r.2
      if u.2 then (u.1, .error u.1.block)
      else
        let x := u.1.readPieces u.1.g.core u.1.g.ctx u.1.w.storeQ (r.2.flatMap Located.pieces)
        (x.1, .ok x.2)

/-- A load of `n` bytes: the checks of every lane, then the reads; host-window loads follow the queued stores (R121). `p`
is the result before it is read. DESIGN CHOICE (log 83): every load of this package is performed when it issues, so that
the reorderings of loads which R123, R154 and R155 permit do not occur. -/
def State.loadThen (s : State) (reach : Reach) (n : Nat) (reqs : List Req) (p : State → Pending) (mask : List Located → Pending → Pending)
    (absent : Bool) : Out :=
  let r := locateAll reach {} n s reqs
  match firstFault absent r.2 with
  | some (l, f) => .next (r.1.memFault f {} l)
  | none =>
    match r.1.badRead r.2 with
    | some t => .next (r.1.trap t)
    | none =>
      let u := r.1.loadWaits r.2
      let s := u.1
      if u.2 then .next s.block
      else
        let w := s.w
        let s := s.setW { w with nextTag := w.nextTag + 1 }
        let u := readAll n s [] { p s with tag := w.nextTag, dem := w.dem } r.2
        .next ((u.1.await (mask r.2 u.2)).finish 4)

/-! ### Storing -/

/-- Puts stores at the end of the wave's queue (R121). -/
def State.enqueue (s : State) (l : List (Place × List Byte)) : State :=
  if l.isEmpty then s
  else (s.setW { s.w with storeQ := s.w.storeQ ++ l }).postOnce 1 (.storeQueueDrain s.cur)

/-- STORE_QUEUE_DRAIN: the oldest store is performed, or waits for a lock bit and is presented again two cycles later, after
the older retries at its bank (R52, R121). -/
def execStoreQueueDrain (k : Nat) (s : State) : Out :=
  let w := s.wave k
  match w.storeQ with
  | [] => .next s
  | (p, x) :: t =>
    let turn := w.storeWait.all fun y => s.lockTurn (s.group w.group).core ((1, k), y)
    let early := (w.storeWait.map (·.due)).getD 0
    if s.now < early then .next (s.post (early - s.now) (.storeQueueDrain k))
    else if !turn then .next (s.post 1 (.storeQueueDrain k))
    else
      let u := s.presentStore k p x t
      .next (if (u.wave k).storeWait.isSome then u.post 2 (.storeQueueDrain k)
        else if t.isEmpty then u else u.post 1 (.storeQueueDrain k))

/-- The window offset of the write-protected tile that a piece falls in, while the group is in handler mode (R242, R243). -/
def State.protectedTile (s : State) (p : Piece) : Option Nat :=
  match p.1 with
  | .buf .c o =>
    let g := s.g
    let t := (o - g.rc.base) / 16384
    if s.groupHandler s.w.group && !(decide (g.ep.htFirst ≤ t) && decide (t < g.ep.htFirst + g.ep.htCount)) then
      some (16384 * t)
    else none
  | _ => none

/-- A store's checks of the matrix protection (R243). -/
def State.tileTrap (s : State) (l : List Located) : Option Trap :=
  l.findSome? fun x => (Located.pieces x).findSome? fun p =>
    (s.protectedTile p).map fun o => { cause := 0x0E, addr := BitVec.ofNat 64 o, info := 0x01 }

/-- An access to another package leaves, and the wave is held until it is acknowledged (R28). -/
def State.leave (s : State) (m : Remote) : State :=
  let w := s.w
  (s.setW { w.keep with
    nextTag := w.nextTag + 1, remotes := w.remotes ++ [{ m with tag := w.nextTag }], remoteHold := true }).post 560 (.remoteAccessArrival s.cur w.nextTag)

/-- The pieces of a store that go to another package leave. -/
def storeAway (r : Req) (n : Nat) : State → Nat → List (Place × List Byte) → State
  | s, _, [] => s
  | s, i, (p, x) :: t =>
    match p with
    | .phys pa exp =>
      if isRemote s pa then
        storeAway r n (s.leave { tag := 0, owner := 0, va := s.partVa r n i, pa := pa, exp := exp, width := x.length
                                 lane := r.lane, lanes := 0, op := .store x }) (i + 1) t
      else storeAway r n s (i + 1) t
    | _ => storeAway r n s (i + 1) t

/-- The place is in another package. -/
def Place.remote (s : State) : Place → Bool
  | .phys pa _ => isRemote s pa
  | _ => false

/-- A store of `n` bytes: the checks of every lane, then its bytes enter the queue; those for other packages leave after the
queue has drained, and hold the wave (R28). -/
def State.storeThen (s : State) (reach : Reach) (n : Nat) (reqs : List Req) (data : Nat → Nat) : Out :=
  let a : Acc := { write := true }
  let r := locateAll reach a n s reqs
  match firstFault false r.2 with
  | some (l, f) => .next (r.1.memFault f a l)
  | none =>
    match r.1.tileTrap r.2 with
    | some t => .next (r.1.trap t)
    | none =>
      let s := r.1
      let out := r.2.map fun x => (x.1, cutPieces (Located.pieces x) (leBytes n (data x.1.lane)))
      let banks := ((out.flatMap fun x => x.2).filter fun p => lockWait s s.g.core s.cur p.1).map fun p => p.1.bank
      if !banks.isEmpty then .next (s.blockAtBank banks)
      else if s.inFlight r.2 then .next s.block
      else
        let away := out.any fun x => x.2.any fun p => p.1.remote s
        if away && !(s.drain s.cur).w.storeQ.isEmpty then .next (s.drain s.cur).block
        else
          let s := (if away then s.drain s.cur else s).enqueue
            ((out.flatMap fun x => x.2).filter fun p => !(p.1.remote s))
          let s := if away then out.foldl (fun s x => storeAway x.1 n s 0 x.2) s else s
          .next (if away then s else s.finish 4)

/-! ### Atomics (R347, R348) -/

/-- The operation on `n` bytes: operation code, old value, operand, comparand. -/
def atomicOp (code n old x cmp : Nat) : Nat :=
  let m := 2 ^ (8 * n)
  let F := if n = 8 then fp64 else fp32
  match code with
  | 0 => (old + x) % m
  | 1 => old &&& x
  | 2 => old ||| x
  | 3 => old ^^^ x
  | 4 => if sextNat (8 * n) old < sextNat (8 * n) x then old else x
  | 5 => if sextNat (8 * n) old < sextNat (8 * n) x then x else old
  | 6 => min old x
  | 7 => max old x
  | 8 => x
  | 9 => if old = cmp then x else old
  | _ => (Fp.add { F := F } old x).1

/-- The dirty bytes of the line of an access go home, and the line leaves the core's L1 (R57). -/
def State.l1Expel (s : State) (core pa : Nat) : State :=
  let k := s.core core
  match k.l1Find (pa / 128) with
  | some l => (s.setCore core { k with l1 := k.l1Others (pa / 128) }).writeBack l
  | none => s

/-- Reads the physical ranges of an element at their homes. -/
def State.homeReads (s : State) (c : Nat) : List (Nat × Nat) → State × List Byte
  | [] => (s, [])
  | (pa, n) :: t =>
    let r := s.homeRead c pa n
    let u := r.1.homeReads c t
    (u.1, r.2 ++ u.2)

/-- Writes the bytes of an element to its physical ranges, at their homes. -/
def State.homeWrites (s : State) (c : Nat) : List (Nat × Nat) → List Byte → State
  | [], _ => s
  | (pa, n) :: t, x => (s.homeWrite c pa (x.take n)).homeWrites c t (x.drop n)

/-- An atomic at the home slice: one read-modify-write of an element, an 8-byte stack value in two ranges (R17); its lines
leave the issuing L1 first (R57, R138). Answers the old value. -/
def State.atHome (s : State) (core c : Nat) (ps : List (Nat × Nat)) (f : Nat → Nat) : State × Nat :=
  let s := ps.foldl (fun s p => s.l1Expel core p.1) s
  let r := s.homeReads c ps
  let old := leNat r.2
  (r.1.homeWrites c ps (leBytes (sumNat (ps.map (·.2))) (f old)), old)

/-! ### Accesses to other packages (R28) -/

/-- Writes bytes into the valid bytes of the issuing L1 (R121, remote store). -/
def State.l1Update (s : State) (core pa : Nat) (x : List Byte) : State :=
  let k := s.core core
  s.setCore core { k with l1 := k.l1.map fun l =>
    if l.line = pa / 128 then
      { l with data := mergeBytes (l.valid &&& byteMask (pa % 128) x.length) l.data (putBytes l.data (pa % 128) x) }
    else l }

/-- The wave's accesses under way have all come back: a held instruction completes, or takes the fault of its
retranslation (R28). -/
def State.remoteDone (s : State) (k : Nat) : State :=
  let w := s.wave k
  if w.remoteHold = false || !w.remotes.all (fun m => m.op == .load) then s
  else
    let cur := s.cur
    let s := { s with cur := k }
    let s := match w.remoteFault with
      | some (f, atomic, lane) =>
        (s.setW (w.held.elim w w.unexpect)).trap (memTrap f { write := true, atomic := atomic } lane)
      | none =>
        let s := s.setW { w with remoteHold := false, held := none }
        let s := match w.held with
          | some p => s.await p
          | none => s
        s.finish 4
    { s with cur := cur }

/-- A result's last access has come back. -/
def State.resultDone (s : State) (k owner : Nat) : State :=
  let w := s.wave k
  if w.remotes.any (fun m => m.owner == owner && m.op == .load) then s else s.post 1 (.loadResultReturn k owner)

/-- REMOTE_ACKNOWLEDGE: the access has been acknowledged (R28). -/
def execRemoteAcknowledge (k tag : Nat) (s : State) : Out :=
  let w := s.wave k
  match w.remotes.find? fun m => m.tag == tag with
  | none => .next s
  | some m =>
    let s := s.setWave k { w with remotes := w.remotes.filter fun q => q.tag != tag }
    .next (if m.op == .load then s.resultDone k m.owner else s.remoteDone k)

/-- A value goes into a result; the lanes of an LDR that found their page not resident keep their zeros (R345). -/
def Pending.take (p : Pending) (m : Remote) (x : Nat) : Pending :=
  if p.tag = m.owner then p.put (m.lanes &&& ~~~((p.mask.map (·.2.2)).getD 0)) m.off m.width x else p

/-- The value of a load or an atomic goes into the result that awaits it. -/
def Wave.receive (w : Wave) (m : Remote) (x : Nat) : Wave :=
  { w with pending := w.pending.map (·.take m x), held := w.held.map (·.take m x) }

/-- The parts of an access to another package: physical address and bytes (R17). -/
def Remote.parts (m : Remote) : List (Nat × Nat) :=
  match m.upper with
  | some (_, pa, _) => [(m.pa, 4), (pa, 4)]
  | none => [(m.pa, m.width)]

/-- The access arrives after the nominal expiry of a mapping that translated it (R28). -/
def Remote.late (m : Remote) (now : Nat) : Bool :=
  decide (m.exp < now) || m.upper.any fun u => decide (u.2.2 < now)

/-- A load that came to a place: through the issuing L1, or at the host where a later translation leads there (R28, R121). -/
def State.loadAt (s : State) (core c pa n : Nat) : State × List Byte := s.readPiece core c (placeOf pa 0, n)

/-- A store that came to a place (R28, R121). -/
def State.storeAt (s : State) (core c pa : Nat) (x : List Byte) : State :=
  match placeOf pa 0 with
  | .host a => { s with host := memWriteN s.host a x }
  | _ => (s.homeWrite c pa x).l1Update core pa x

/-- REMOTE_ACCESS_ARRIVAL: the access is performed at the home slice of its package, or refused there after its nominal
expiry (R25, R28). -/
def execRemoteAccessArrival (k tag : Nat) (s : State) : Out :=
  let w := s.wave k
  let g := s.group w.group
  match w.remotes.find? fun m => m.tag == tag with
  | none => .next s
  | some m =>
    if m.late s.now then .next (s.post 0 (.remoteAccessRefused k tag))
    else
      let s := match m.op with
        | .load =>
          let r := s.loadAt g.core g.ctx m.pa m.width
          r.1.setWave k ((r.1.wave k).receive m (leNat r.2))
        | .store x => s.storeAt g.core g.ctx m.pa x
        | .atomic code x cmp =>
          let r := s.atHome g.core g.ctx m.parts fun old => atomicOp code m.width old x cmp
          r.1.setWave k ((r.1.wave k).receive m r.2)
      .next (s.post 0 (.remoteAcknowledge k tag))

/-- The registers and the scalar of a result hold a deferred fault (R28). -/
def Wave.defer (w : Wave) (owner : Nat) (d : Deferred) : Wave :=
  let p := w.pending.find? fun p => p.tag == owner
  { w with
    deferred := (p.map (·.vregs)).getD [] |>.foldl (fun t q => if (t.get? q.1).isSome then t else t.set q.1 d) w.deferred
    sdeferred := match p.bind (·.sreg) with
      | some q => w.sdeferred.set q.1 d
      | none => w.sdeferred }

/-- The lanes of an LDR find their page not resident: zeros in every register of the result, and the lanes' bits in its mask
(R34, R345); nothing for a result without a mask. -/
def Wave.absentLanes (w : Wave) (m : Remote) : Option Wave :=
  if w.pending.any fun p => p.tag == m.owner && p.mask.isSome then
    some { w with pending := w.pending.map fun p =>
      if p.tag = m.owner then
        { p with
          vregs := p.vregs.map fun q => (q.1, blend m.lanes zeroLanes q.2)
          mask := p.mask.map fun q => (q.1, q.2.1, q.2.2 ||| m.lanes) }
      else p }
  else none

/-- The new translation of a refused access, with that of its upper part. -/
def retranslate (s : State) (core c : Nat) (m : Remote) (a : Acc) : State × Except MemFault Remote :=
  match translate s core c m.va a with
  | (s, .error f) => (s, .error f)
  | (s, .ok (pa, exp)) =>
    match m.upper with
    | none => (s, .ok { m with pa := pa, exp := exp })
    | some (va, _, _) =>
      match translate s core c va a with
      | (s, .error f) => (s, .error f)
      | (s, .ok (pa2, exp2)) => (s, .ok { m with pa := pa, exp := exp, upper := some (va, pa2, exp2) })

/-- What the fault of a retranslation leaves: zeros and a mask bit for an LDR whose page is not resident (R34), a deferred
fault for another load, the fault of the held instruction for a store or an atomic (R28). -/
def Wave.retranslated (w : Wave) (m : Remote) (f : MemFault) : Wave :=
  let fail := if w.remoteFault.isSome then w else { w with remoteFault := some (f, m.op matches .atomic _ _ _, m.lane) }
  let late := w.defer m.owner { fault := f, lane := m.lane, ldpc := m.pc }
  match m.op with
  | .load => if f.reason = rAbsent then (w.absentLanes m).getD late else late
  | _ => fail

/-- REMOTE_ACCESS_REFUSED: the core translates the access again and reissues it; a fault is deferred to the reader of a
load, and reported at a store or an atomic (R28). -/
def execRemoteAccessRefused (k tag : Nat) (s : State) : Out :=
  let w := s.wave k
  let g := s.group w.group
  match w.remotes.find? fun m => m.tag == tag with
  | none => .next s
  | some m =>
    if m.late s.now = false then .next s
    else
      match retranslate s g.core g.ctx m { write := m.op != .load, atomic := m.op matches .atomic _ _ _ } with
      | (s, .ok m') =>
        .next ((s.setWave k { w with remotes := w.remotes.map fun q => if q.tag = tag then m' else q }).post 560
          (.remoteAccessArrival k tag))
      | (s, .error f) => .next ((s.setWave k (w.retranslated m f)).post 0 (.remoteAcknowledge k tag))

end Sys2Proof.Machine
end

