-- ==== Sys2Proof/WellFormed.lean ====
section
/-!
DEFINITION. Which instructions the encodings admit: each field within the width the field tables give it (R260, R265),
reserved sub-field values out (R268, R274). A move without an encoding is well-formed.
-/

namespace Sys2Proof

/-- The numbers of the control and status register map (R398). -/
def csrAssigned (n : Nat) : Bool :=
  decide (n ≤ 0x04) || (decide (0x08 ≤ n) && decide (n ≤ 0x0C)) || (decide (0x10 ≤ n) && decide (n ≤ 0x12)) ||
    (decide (0x14 ≤ n) && decide (n ≤ 0x16)) || (decide (0x20 ≤ n) && decide (n ≤ 0x2F))

/-- The fields of an XMOD are within their widths and take no reserved value (R266, R268, R274). -/
def Xmod.inRange (x : Xmod) : Bool :=
  decide (x.vc < 128) && decide (x.pm < 8) && (x.pm != 0 || !x.inv) &&
    (match x.pk with
     | 0 => x.pp == 0
     | 1 => decide (1 ≤ x.pp) && decide (x.pp < 32)
     | 2 => decide (1 ≤ x.pp) && decide (x.pp ≤ 7)
     | 3 => x.pp == 0
     | 4 => decide (x.pp < 32)
     | _ => false)

/-- The fields of an instruction are ones that its encoding admits. -/
def Instr.wellFormed : Instr → Bool
  | .iadd d a b => decide (d < 128) && decide (a < 128) && decide (b < 128)
  | .isub d a b => decide (d < 128) && decide (a < 128) && decide (b < 128)
  | .imul d a b => decide (d < 128) && decide (a < 128) && decide (b < 128)
  | .imulhI32 d a b => decide (d < 128) && decide (a < 128) && decide (b < 128)
  | .imulhN32 d a b => decide (d < 128) && decide (a < 128) && decide (b < 128)
  | .imin d a b => decide (d < 128) && decide (a < 128) && decide (b < 128)
  | .imax d a b => decide (d < 128) && decide (a < 128) && decide (b < 128)
  | .and d a b => decide (d < 128) && decide (a < 128) && decide (b < 128)
  | .or d a b => decide (d < 128) && decide (a < 128) && decide (b < 128)
  | .xor d a b => decide (d < 128) && decide (a < 128) && decide (b < 128)
  | .andn d a b => decide (d < 128) && decide (a < 128) && decide (b < 128)
  | .shl d a b => decide (d < 128) && decide (a < 128) && decide (b < 128)
  | .shr d a b => decide (d < 128) && decide (a < 128) && decide (b < 128)
  | .sar d a b => decide (d < 128) && decide (a < 128) && decide (b < 128)
  | .rot d a b => decide (d < 128) && decide (a < 128) && decide (b < 128)
  | .imad d a b => decide (d < 128) && decide (a < 128) && decide (b < 128)
  | .iabs d a => decide (d < 128) && decide (a < 128)
  | .ineg d a => decide (d < 128) && decide (a < 128)
  | .not d a => decide (d < 128) && decide (a < 128)
  | .clz d a => decide (d < 128) && decide (a < 128)
  | .popc d a => decide (d < 128) && decide (a < 128)
  | .brev d a => decide (d < 128) && decide (a < 128)
  | .mov d a => decide (d < 128) && decide (a < 128)
  | .sel d a b => decide (d < 128) && decide (a < 128) && decide (b < 128)
  | .bfxI32 d a b => decide (d < 128) && decide (a < 128) && decide (b < 128)
  | .bfxN32 d a b => decide (d < 128) && decide (a < 128) && decide (b < 128)
  | .bfi d a b => decide (d < 128) && decide (a < 128) && decide (b < 128)
  | .icvtI8 d a => decide (d < 128) && decide (a < 128)
  | .icvtI16 d a => decide (d < 128) && decide (a < 128)
  | .icvtI64 d a => decide (d < 128) && decide (a < 128)
  | .icvtI32 d a => decide (d < 128) && decide (a < 128)
  | .icmpEq d a b => decide (d < 16) && decide (a < 128) && decide (b < 128)
  | .icmpLtI32 d a b => decide (d < 16) && decide (a < 128) && decide (b < 128)
  | .icmpLtN32 d a b => decide (d < 16) && decide (a < 128) && decide (b < 128)
  | .iaddI64 d a b => decide (d < 128) && decide (a < 128) && decide (b < 128)
  | .isubI64 d a b => decide (d < 128) && decide (a < 128) && decide (b < 128)
  | .imulI64 d a b => decide (d < 128) && decide (a < 128) && decide (b < 128)
  | .iaddImm d a i => decide (d < 128) && decide (a < 128) && decide (i < 2048)
  | .shlImm d a i => decide (d < 128) && decide (a < 128) && decide (i < 32)
  | .movi d i => decide (d < 128) && decide (i < 262144)
  | .lih d i => decide (d < 128) && decide (i < 65536)
  | .sadd d a b => decide (d < 32) && decide (a < 32) && decide (b < 32)
  | .ssub d a b => decide (d < 32) && decide (a < 32) && decide (b < 32)
  | .smul d a b => decide (d < 32) && decide (a < 32) && decide (b < 32)
  | .sand d a b => decide (d < 32) && decide (a < 32) && decide (b < 32)
  | .sor d a b => decide (d < 32) && decide (a < 32) && decide (b < 32)
  | .sxor d a b => decide (d < 32) && decide (a < 32) && decide (b < 32)
  | .sshl d a b => decide (d < 32) && decide (a < 32) && decide (b < 32)
  | .sshr d a b => decide (d < 32) && decide (a < 32) && decide (b < 32)
  | .smov d a => decide (d < 32) && decide (a < 32)
  | .scmpEq d a b => decide (d < 32) && decide (a < 32) && decide (b < 32)
  | .scmpLtI64 d a b => decide (d < 32) && decide (a < 32) && decide (b < 32)
  | .scmpLtN64 d a b => decide (d < 32) && decide (a < 32) && decide (b < 32)
  | .saddImm d a i => decide (d < 32) && decide (a < 32) && decide (i < 32768)
  | .sandImm d a i => decide (d < 32) && decide (a < 32) && decide (i < 32768)
  | .sshlImm d a i => decide (d < 32) && decide (a < 32) && decide (i < 64)
  | .smovi d i => decide (d < 32) && decide (i < 1048576)
  | .slih d i => decide (d < 32) && decide (i < 1048576)
  | .vlid d => decide (d < 128)
  | .lperm d a b => decide (d < 128) && decide (a < 128) && decide (b < 128)
  | .vote d a => decide (d < 16) && decide (a < 16)
  | .mpop d a => decide (d < 32) && decide (a < 16)
  | .reduceAddI32 d a => decide (d < 128) && decide (a < 128)
  | .reduceMaxI32 d a => decide (d < 128) && decide (a < 128)
  | .reduceAddF32 d a => decide (d < 128) && decide (a < 128)
  | .reduceMaxF32 d a => decide (d < 128) && decide (a < 128)
  | .reduceAddF64 d a => decide (d < 128) && decide (a < 128)
  | .mand d a b => decide (d < 16) && decide (a < 16) && decide (b < 16)
  | .mor d a b => decide (d < 16) && decide (a < 16) && decide (b < 16)
  | .mxor d a b => decide (d < 16) && decide (a < 16) && decide (b < 16)
  | .mnot d a => decide (d < 16) && decide (a < 16)
  | .mmov d a => decide (d < 16) && decide (a < 16)
  | .br c w => decide (c < 16) && decide (w < 2097152)
  | .call c w => decide (c < 16) && decide (w < 2097152)
  | .brsZ c w => decide (c < 16) && decide (w < 2097152)
  | .brsNz c w => decide (c < 16) && decide (w < 2097152)
  | .jmp a => decide (a < 128)
  | .ret a => decide (a < 128)
  | .exit => true
  | .yield => true
  | .sleep => true
  | .wake d => decide (d < 16)
  | .elect d a => decide (d < 16) && decide (a < 16)
  | .nop => true
  | .join d => decide (d < 16)
  | .leave d => decide (d < 16)
  | .bar d => decide (d < 16)
  | .lbar => true
  | .nopH1 d a b => decide (d < 128) && decide (a < 128) && decide (b < 128)
  | .nopH2 d a b => decide (d < 128) && decide (a < 128) && decide (b < 128)
  | .faddF32 d a b => decide (d < 128) && decide (a < 128) && decide (b < 128)
  | .fsubF32 d a b => decide (d < 128) && decide (a < 128) && decide (b < 128)
  | .fmulF32 d a b => decide (d < 128) && decide (a < 128) && decide (b < 128)
  | .ffmaF32 d a b => decide (d < 128) && decide (a < 128) && decide (b < 128)
  | .fdivF32 d a b => decide (d < 128) && decide (a < 128) && decide (b < 128)
  | .fminF32 d a b => decide (d < 128) && decide (a < 128) && decide (b < 128)
  | .fmaxF32 d a b => decide (d < 128) && decide (a < 128) && decide (b < 128)
  | .frcpF32 d a => decide (d < 128) && decide (a < 128)
  | .fsqrtF32 d a => decide (d < 128) && decide (a < 128)
  | .frsqF32 d a => decide (d < 128) && decide (a < 128)
  | .fabsF32 d a => decide (d < 128) && decide (a < 128)
  | .fnegF32 d a => decide (d < 128) && decide (a < 128)
  | .fclassF32 d a => decide (d < 128) && decide (a < 128)
  | .froundF32 d a => decide (d < 128) && decide (a < 128)
  | .ffmaF32Rn d a b => decide (d < 128) && decide (a < 128) && decide (b < 128)
  | .ffmaF32Rz d a b => decide (d < 128) && decide (a < 128) && decide (b < 128)
  | .faddF64 d a b => decide (d < 128) && decide (a < 128) && decide (b < 128)
  | .fsubF64 d a b => decide (d < 128) && decide (a < 128) && decide (b < 128)
  | .fmulF64 d a b => decide (d < 128) && decide (a < 128) && decide (b < 128)
  | .ffmaF64 d a b => decide (d < 128) && decide (a < 128) && decide (b < 128)
  | .fdivF64 d a b => decide (d < 128) && decide (a < 128) && decide (b < 128)
  | .fminF64 d a b => decide (d < 128) && decide (a < 128) && decide (b < 128)
  | .fmaxF64 d a b => decide (d < 128) && decide (a < 128) && decide (b < 128)
  | .fsqrtF64 d a => decide (d < 128) && decide (a < 128)
  | .fabsF64 d a => decide (d < 128) && decide (a < 128)
  | .fnegF64 d a => decide (d < 128) && decide (a < 128)
  | .fexpF32 d a => decide (d < 128) && decide (a < 128)
  | .flogF32 d a => decide (d < 128) && decide (a < 128)
  | .fsinF32 d a => decide (d < 128) && decide (a < 128)
  | .fcosF32 d a => decide (d < 128) && decide (a < 128)
  | .ftanhF32 d a => decide (d < 128) && decide (a < 128)
  | .fcmpEqF32 d a b => decide (d < 16) && decide (a < 128) && decide (b < 128)
  | .fcmpLtF32 d a b => decide (d < 16) && decide (a < 128) && decide (b < 128)
  | .fcmpLeF32 d a b => decide (d < 16) && decide (a < 128) && decide (b < 128)
  | .fcmpEqF64 d a b => decide (d < 16) && decide (a < 128) && decide (b < 128)
  | .fcmpLtF64 d a b => decide (d < 16) && decide (a < 128) && decide (b < 128)
  | .fcmpLeF64 d a b => decide (d < 16) && decide (a < 128) && decide (b < 128)
  | .fcvtF64F32 d a => decide (d < 128) && decide (a < 128)
  | .fcvtF32F64 d a => decide (d < 128) && decide (a < 128)
  | .fcvtF32I32 d a => decide (d < 128) && decide (a < 128)
  | .fcvtF32N32 d a => decide (d < 128) && decide (a < 128)
  | .fcvtI32F32 d a => decide (d < 128) && decide (a < 128)
  | .fcvtN32F32 d a => decide (d < 128) && decide (a < 128)
  | .fcvtBf16F32 d a b => decide (d < 128) && decide (a < 128) && decide (b < 128)
  | .fcvtF16F32 d a b => decide (d < 128) && decide (a < 128) && decide (b < 128)
  | .fcvtF32F16 d a e => decide (d < 128) && decide (a < 128) && decide (e < 2)
  | .hadd2Bf16 d a b => decide (d < 128) && decide (a < 128) && decide (b < 128)
  | .hmul2Bf16 d a b => decide (d < 128) && decide (a < 128) && decide (b < 128)
  | .hfma2Bf16 d a b => decide (d < 128) && decide (a < 128) && decide (b < 128)
  | .hadd2F16 d a b => decide (d < 128) && decide (a < 128) && decide (b < 128)
  | .hmul2F16 d a b => decide (d < 128) && decide (a < 128) && decide (b < 128)
  | .hfma2F16 d a b => decide (d < 128) && decide (a < 128) && decide (b < 128)
  | .jseedF32 d a => decide (d < 128) && decide (a < 128)
  | .jseedF64 d a => decide (d < 128) && decide (a < 128)
  | .jextF32 d a n => decide (d < 128) && decide (a < 128) && decide (n < 8)
  | .jextF64 d a n => decide (d < 128) && decide (a < 128) && decide (n < 8)
  | .jinsF32 d a n => decide (d < 128) && decide (a < 128) && decide (n < 8)
  | .jinsF64 d a n => decide (d < 128) && decide (a < 128) && decide (n < 8)
  | .jdiffF32 d a => decide (d < 128) && decide (a < 128)
  | .jdiffF64 d a => decide (d < 128) && decide (a < 128)
  | .jintegF32 d a => decide (d < 128) && decide (a < 128)
  | .jintegF64 d a => decide (d < 128) && decide (a < 128)
  | .jfactF32 d a => decide (d < 128) && decide (a < 128)
  | .jfactF64 d a => decide (d < 128) && decide (a < 128)
  | .setjord k => decide (k < 8)
  | .jsrr d => decide (d < 32)
  | .jsrc a => decide (a < 32)
  | .ld d s o w h i => decide (d < 128) && decide (s < 32) && decide (o < 128) && decide (w < 4) && decide (h < 4) && decide (i < 4)
  | .st d s o w h i => decide (d < 128) && decide (s < 32) && decide (o < 128) && decide (w < 4) && decide (h < 3) && decide (i < 4)
  | .stX d s o w i => decide (d < 32) && decide (s < 32) && decide (o < 128) && decide (w < 4) && decide (i < 4)
  | .ldb d s o w h i => decide (d < 128) && decide (s < 32) && decide (o < 128) && decide (w < 4) && decide (h < 3) && decide (i < 4)
  | .ldbX d s o w i => decide (d < 32) && decide (s < 32) && decide (o < 128) && decide (w < 4) && decide (i < 4)
  | .ldr d s o w m => decide (d < 128) && decide (s < 32) && decide (o < 128) && decide (w < 4) && decide (m < 16)
  | .atom d s o w p => decide (d < 128) && decide (s < 32) && decide (o < 128) && decide (w < 2) && decide (p ≤ 10)
  | .spatom d s o p => decide (d < 128) && decide (s < 32) && decide (o < 128) && decide (p ≤ 10)
  | .slock d s o m => decide (d < 128) && decide (s < 32) && decide (o < 128) && decide (m < 16)
  | .sunlk d s o => decide (d < 128) && decide (s < 32) && decide (o < 128)
  | .pref s o w h i => decide (s < 32) && decide (o < 128) && decide (w < 4) && decide (h < 4) && decide (i < 4)
  | .bind a b => decide (a < 32) && decide (b < 32)
  | .unbind a => decide (a < 32)
  | .acq a b => decide (a < 32) && decide (b < 32)
  | .rel a b => decide (a < 32) && decide (b < 32)
  | .lock a => decide (a < 32)
  | .unlock a => decide (a < 32)
  | .signal a b => decide (a < 32) && decide (b < 32)
  | .waitge a b => decide (a < 32) && decide (b < 32)
  | .fenceW => true
  | .fenceG => true
  | .fenceC => true
  | .fenceD => true
  | .fenceS => true
  | .ifence => true
  | .qfence a => decide (a < 32)
  | .rdrop d => decide (d < 128)
  | .rmat d => decide (d < 128)
  | .rdemote d => decide (d < 128)
  | .grow n => decide (n < 16)
  | .shrink n => decide (n < 16)
  | .rmark d i => decide (d < 128) && decide (i < 262144)
  | .cpy v h g c q e => decide (v < 128) && decide (h < 64) && decide (g < 16) && decide (c < 32) && decide (q < 4) && decide (e < 2)
  | .cpyd v h g c q e => decide (v < 128) && decide (h < 64) && decide (g < 16) && decide (c < 32) && decide (q < 4) && decide (e < 2)
  | .hwait h => decide (h < 64)
  | .hstat d h => decide (d < 32) && decide (h < 64)
  | .hfree h => decide (h < 64)
  | .pagereqFill h a => decide (h < 64) && decide (a < 32)
  | .pagereqSettle h => decide (h < 64)
  | .cbset c a => decide (c < 8) && decide (a < 32)
  | .cbwait d c => decide (d < 32) && decide (c < 8)
  | .cbrel c => decide (c < 8)
  | .spush a => decide (a < 128)
  | .spop d => decide (d < 128)
  | .spcnt d => decide (d < 32)
  | .spushRoltik2 a => decide (a < 128)
  | .spopRoltik2 d => decide (d < 128)
  | .spcntRoltik2 d => decide (d < 32)
  | .mmaPtBf16 d a b _ => decide (d < 32) && decide (a < 32) && decide (b < 32)
  | .mmaPtDpw8 d a b _ => decide (d < 32) && decide (a < 32) && decide (b < 32)
  | .mmaPtF32 d a b _ => decide (d < 32) && decide (a < 32) && decide (b < 32)
  | .mmaMinpF32 d a b _ => decide (d < 32) && decide (a < 32) && decide (b < 32)
  | .mmaMaxpF32 d a b _ => decide (d < 32) && decide (a < 32) && decide (b < 32)
  | .mmaMaxtF32 d a b _ => decide (d < 32) && decide (a < 32) && decide (b < 32)
  | .mmaOrandBits d a b => decide (d < 32) && decide (a < 32) && decide (b < 32)
  | .mgather a b => decide (a < 128) && decide (b < 32)
  | .mzero a => decide (a < 32)
  | .mflags d a => decide (d < 32) && decide (a < 32)
  | .mflagsClr d a => decide (d < 32) && decide (a < 32)
  | .rqalloc d a b => decide (d < 128) && decide (a < 32) && decide (b < 16)
  | .rqcommit a => decide (a < 128)
  | .rqjoin a => decide (a < 128)
  | .rqinfo d a n => decide (d < 32) && decide (a < 32) && decide (n < 16)
  | .ctxnew d a => decide (d < 32) && decide (a < 32)
  | .ctxgrantCores d a b => decide (d < 32) && decide (a < 32) && decide (b < 32)
  | .ctxgrantMem d a b => decide (d < 32) && decide (a < 32) && decide (b < 32)
  | .ctxgrantQmem d a b => decide (d < 32) && decide (a < 32) && decide (b < 32)
  | .ctxgrantBind d a b => decide (d < 32) && decide (a < 32) && decide (b < 32)
  | .ctxgrantEnergyIpeak d a b => decide (d < 32) && decide (a < 32) && decide (b < 32)
  | .ctxgrantBandwidth d a b => decide (d < 32) && decide (a < 32) && decide (b < 32)
  | .ctxgrantRoot d a b => decide (d < 32) && decide (a < 32) && decide (b < 32)
  | .ctxgrantResume d a b => decide (d < 32) && decide (a < 32) && decide (b < 32)
  | .ctxtakeCores h a b => decide (h < 64) && decide (a < 32) && decide (b < 32)
  | .ctxtakeMem h a b => decide (h < 64) && decide (a < 32) && decide (b < 32)
  | .ctxtakeQmem h a b => decide (h < 64) && decide (a < 32) && decide (b < 32)
  | .ctxtakeBind h a b => decide (h < 64) && decide (a < 32) && decide (b < 32)
  | .ctxtakeEnergyIpeak h a b => decide (h < 64) && decide (a < 32) && decide (b < 32)
  | .ctxtakeBandwidth h a b => decide (h < 64) && decide (a < 32) && decide (b < 32)
  | .ctxstat d a n => decide (d < 32) && decide (a < 32) && decide (n < 16)
  | .ctxfree h a => decide (h < 64) && decide (a < 32)
  | .tret => true
  | .predone a => decide (a < 32)
  | .csrr d c => decide (d < 32) && csrAssigned c && c != 4
  | .csrrDx d => decide (d < 128)
  | .csrw c a => csrAssigned c && c != 4 && decide (a < 32)
  | .csrwDx a => decide (a < 128)
  | .pmcr d n => decide (d < 32) && decide (n < 16)
  | .pwrreqGate d a => decide (d < 32) && decide (a < 32)
  | .pwrreqWake d a => decide (d < 32) && decide (a < 32)
  | .pwrreqPoint d a => decide (d < 32) && decide (a < 32)
  | .pwrreqMode d a => decide (d < 32) && decide (a < 32)
  | .pwrreqHold d a => decide (d < 32) && decide (a < 32)
  | .pwrreqQuery d a => decide (d < 32) && decide (a < 32)
  | .trap i => decide (i < 262144)
  | .xmod x => x.inRange
  | .iaddC16 d b => decide (d < 64) && decide (b < 32) && (d != 0 || b != 0)
  | .isubC16 d b => decide (d < 64) && decide (b < 32)
  | .imulC16 d b => decide (d < 64) && decide (b < 32)
  | .andC16 d b => decide (d < 64) && decide (b < 32)
  | .orC16 d b => decide (d < 64) && decide (b < 32)
  | .xorC16 d b => decide (d < 64) && decide (b < 32)
  | .shlC16 d b => decide (d < 64) && decide (b < 32)
  | .shrC16 d b => decide (d < 64) && decide (b < 32)
  | .sarC16 d b => decide (d < 64) && decide (b < 32)
  | .movC16 d b => decide (d < 64) && decide (b < 32)
  | .iminC16 d b => decide (d < 64) && decide (b < 32)
  | .imaxC16 d b => decide (d < 64) && decide (b < 32)
  | .faddF32C16 d b => decide (d < 64) && decide (b < 32)
  | .fsubF32C16 d b => decide (d < 64) && decide (b < 32)
  | .fmulF32C16 d b => decide (d < 64) && decide (b < 32)
  | .fmaxF32C16 d b => decide (d < 64) && decide (b < 32)
  | .notC16Roltik1 d b => decide (d < 64) && decide (b < 32)
  | .loadResultReturn _ _ | .storeQueueDrain _ | .remoteAccessArrival _ _ | .remoteAccessRefused _ _
  | .remoteAcknowledge _ _ | .mappingLeaseExpiry _ | .l1LeaseWriteback _ _ | .pagereqRewalk _ _
  | .pagereqSettleExpiry _ _ | .lockBitRetry _ | .bankDrowsyEntry _ _ | .bankWake _ _ | .spineEntryArrival _
  | .spineCreditReturn _ | .spinePairFolioRestore _ _ | .gateGrant _ | .domainWakeComplete _
  | .cbSlotClaim _ _ _ | .copyOperationStart _ _ _ | .copyOperationComplete _ _ _ | .multicastDelivery _ _ _ _
  | .multicastWaitExpiry _ _ _ _ | .followOnPlacement _ _ _ _ | .mmaStart _ _ | .mmaAccumulationComplete _
  | .mzeroExecute _ _ | .mflagsExecute _ _ | .mgatherExecute _ | .quantumStart _ | .gathererTimerExpiry _ _ _
  | .gathererDispatch | .groupPlacement _ | .launchStructureReread _ _ | .continuationEnqueue _
  | .groupTeardown _ | .reservationZeroingDone _ _ | .launchCompletion _ | .completionInterrupt _
  | .growGrant _ | .growDeadlockBreaker _ | .controlIntervalBoundary _ _ | .energyBudgetExhausted _
  | .droopTrip _ | .droopHoldExpiry _ | .voltageSlewComplete _ | .frequencySwitch _ | .governorSample _ _
  | .thermalClampStep _ _ | .clusterClockGate _ | .startEventAdmission | .bandwidthInterval _ _ _
  | .hangWatchdogExpiry _ | .sliceExpiry _ | .groupStop _ | .preemptTimeout _ | .predoneTimeout _
  | .groupRestore _ | .faultRingWrite _ | .revocationComplete _ _ | .lockRetry _ | .waitgePoll _ | .feEnable _
  | .feDisable _ | .feProducerCountWrite _ _ | .feSubmissionEntry _ | .feVerdictWrite _ _
  | .feSettingsWrite _ _ _ | .powerOnBringup | .attestationRequest _ | .ageingMonitorUpdate _ _ _
  | .selfTestStart _ _ | .selfTestComplete _ _ _ | .illegalInstr _ | .fetchFault _ | .writeBackAcknowledge _
  | .hostStoreAcknowledge _ => true

/-- The instruction is well-formed. -/
abbrev WellFormed (i : Instr) : Prop := i.wellFormed = true

end Sys2Proof
end

