-- ==== Sys2Proof/Decode.lean ====
section
/-!
DEFINITION. The decoder and the encoder, from the field tables and the opcode map of spec/09_instruction_encoding.md.

The decoder is total on any bytes: it answers an instruction and its length in bytes, or nothing where the bits are not an
instruction (R272 to R274). The generation (1, 2 or 3) is the Endpaper's GEN (R277). Under the legacy generations the V3
fields are first brought to their Roltik-3 places (R278), and what R279 and R280 withdraw does not decode.

Rows of the table that share an encoding (CTXGRANT, CTXTAKE, PWRREQ) decode to their first row: the KIND in a scalar
register tells them apart when the instruction executes (log 12).
-/

namespace Sys2Proof

open Sys2Proof.Machine (bits leNat leBytes)

/-- An instruction, if its reserved bits are as the map says. -/
def guardI (c : Bool) (i : Instr) : Option Instr := if c then some i else none

/-- V3 major 0x01 (R271). -/
def decodeV3x01 (fn vd va vb : Nat) : Option Instr :=
  match fn with
  | 0 => some (.iadd vd va vb)
  | 1 => some (.isub vd va vb)
  | 2 => some (.imul vd va vb)
  | 3 => some (.imulhI32 vd va vb)
  | 4 => some (.imulhN32 vd va vb)
  | 5 => some (.imin vd va vb)
  | 6 => some (.imax vd va vb)
  | 7 => some (.and vd va vb)
  | 8 => some (.or vd va vb)
  | 9 => some (.xor vd va vb)
  | 10 => some (.andn vd va vb)
  | 11 => some (.shl vd va vb)
  | 12 => some (.shr vd va vb)
  | 13 => some (.sar vd va vb)
  | 14 => some (.rot vd va vb)
  | 15 => some (.imad vd va vb)
  | _ => none

/-- V3 major 0x02 (R271). -/
def decodeV3x02 (fn vd va vb : Nat) : Option Instr :=
  match fn with
  | 0 => guardI (decide (vb = 0)) (.iabs vd va)
  | 1 => guardI (decide (vb = 0)) (.ineg vd va)
  | 2 => guardI (decide (vb = 0)) (.not vd va)
  | 3 => guardI (decide (vb = 0)) (.clz vd va)
  | 4 => guardI (decide (vb = 0)) (.popc vd va)
  | 5 => guardI (decide (vb = 0)) (.brev vd va)
  | 6 => guardI (decide (vb = 0)) (.mov vd va)
  | 7 => some (.sel vd va vb)
  | 8 => some (.bfxI32 vd va vb)
  | 9 => some (.bfxN32 vd va vb)
  | 10 => some (.bfi vd va vb)
  | 11 => guardI (decide (vb = 0)) (.icvtI8 vd va)
  | 12 => guardI (decide (vb = 0)) (.icvtI16 vd va)
  | 13 => guardI (decide (vb = 0)) (.icvtI64 vd va)
  | 14 => guardI (decide (vb = 0)) (.icvtI32 vd va)
  | _ => none

/-- V3 major 0x03 (R271). -/
def decodeV3x03 (fn vd va vb : Nat) : Option Instr :=
  match fn with
  | 0 => guardI (decide (vd < 16)) (.icmpEq vd va vb)
  | 1 => guardI (decide (vd < 16)) (.icmpLtI32 vd va vb)
  | 2 => guardI (decide (vd < 16)) (.icmpLtN32 vd va vb)
  | 3 => some (.iaddI64 vd va vb)
  | 4 => some (.isubI64 vd va vb)
  | 5 => some (.imulI64 vd va vb)
  | _ => none

/-- V3 major 0x0E (R271). -/
def decodeV3x0E (fn vd va vb : Nat) : Option Instr :=
  match fn with
  | 0 => guardI (decide (va = 0) && decide (vb = 0)) (.vlid vd)
  | 1 => some (.lperm vd va vb)
  | 2 => guardI (decide (vd < 16) && decide (va < 16) && decide (vb = 0)) (.vote vd va)
  | 3 => guardI (decide (vd < 32) && decide (va < 16) && decide (vb = 0)) (.mpop vd va)
  | 4 => guardI (decide (vb = 0)) (.reduceAddI32 vd va)
  | 5 => guardI (decide (vb = 0)) (.reduceMaxI32 vd va)
  | 6 => guardI (decide (vb = 0)) (.reduceAddF32 vd va)
  | 7 => guardI (decide (vb = 0)) (.reduceMaxF32 vd va)
  | 8 => guardI (decide (vb = 0)) (.reduceAddF64 vd va)
  | _ => none

/-- V3 major 0x0F (R271). -/
def decodeV3x0F (fn vd va vb : Nat) : Option Instr :=
  match fn with
  | 0 => guardI (decide (vd < 16) && decide (va < 16) && decide (vb < 16)) (.mand vd va vb)
  | 1 => guardI (decide (vd < 16) && decide (va < 16) && decide (vb < 16)) (.mor vd va vb)
  | 2 => guardI (decide (vd < 16) && decide (va < 16) && decide (vb < 16)) (.mxor vd va vb)
  | 3 => guardI (decide (vd < 16) && decide (va < 16) && decide (vb = 0)) (.mnot vd va)
  | 4 => guardI (decide (vd < 16) && decide (va < 16) && decide (vb = 0)) (.mmov vd va)
  | _ => none

/-- V3 major 0x14 (R271). -/
def decodeV3x14 (fn vd va vb : Nat) : Option Instr :=
  match fn with
  | 0 => guardI (decide (vd = 0) && decide (vb = 0)) (.jmp va)
  | 1 => guardI (decide (vd = 0) && decide (vb = 0)) (.ret va)
  | 2 => guardI (decide (vd = 0) && decide (va = 0) && decide (vb = 0)) (.exit)
  | 3 => guardI (decide (vd = 0) && decide (va = 0) && decide (vb = 0)) (.yield)
  | 4 => guardI (decide (vd = 0) && decide (va = 0) && decide (vb = 0)) (.sleep)
  | 5 => guardI (decide (vd < 16) && decide (va = 0) && decide (vb = 0)) (.wake vd)
  | 6 => guardI (decide (vd < 16) && decide (va < 16) && decide (vb = 0)) (.elect vd va)
  | 7 => guardI (decide (vd = 0) && decide (va = 0) && decide (vb = 0)) (.nop)
  | 8 => guardI (decide (vd < 16) && decide (va = 0) && decide (vb = 0)) (.join vd)
  | 9 => guardI (decide (vd < 16) && decide (va = 0) && decide (vb = 0)) (.leave vd)
  | 10 => guardI (decide (vd < 16) && decide (va = 0) && decide (vb = 0)) (.bar vd)
  | 11 => guardI (decide (vd = 0) && decide (va = 0) && decide (vb = 0)) (.lbar)
  | 14 => some (.nopH1 vd va vb)
  | 15 => some (.nopH2 vd va vb)
  | _ => none

/-- V3 major 0x18 (R271). -/
def decodeV3x18 (fn vd va vb : Nat) : Option Instr :=
  match fn with
  | 0 => some (.faddF32 vd va vb)
  | 1 => some (.fsubF32 vd va vb)
  | 2 => some (.fmulF32 vd va vb)
  | 3 => some (.ffmaF32 vd va vb)
  | 4 => some (.fdivF32 vd va vb)
  | 5 => some (.fminF32 vd va vb)
  | 6 => some (.fmaxF32 vd va vb)
  | 7 => guardI (decide (vb = 0)) (.frcpF32 vd va)
  | 8 => guardI (decide (vb = 0)) (.fsqrtF32 vd va)
  | 9 => guardI (decide (vb = 0)) (.frsqF32 vd va)
  | 10 => guardI (decide (vb = 0)) (.fabsF32 vd va)
  | 11 => guardI (decide (vb = 0)) (.fnegF32 vd va)
  | 12 => guardI (decide (vb = 0)) (.fclassF32 vd va)
  | 13 => guardI (decide (vb = 0)) (.froundF32 vd va)
  | 14 => some (.ffmaF32Rn vd va vb)
  | 15 => some (.ffmaF32Rz vd va vb)
  | _ => none

/-- V3 major 0x19 (R271). -/
def decodeV3x19 (fn vd va vb : Nat) : Option Instr :=
  match fn with
  | 0 => some (.faddF64 vd va vb)
  | 1 => some (.fsubF64 vd va vb)
  | 2 => some (.fmulF64 vd va vb)
  | 3 => some (.ffmaF64 vd va vb)
  | 4 => some (.fdivF64 vd va vb)
  | 5 => some (.fminF64 vd va vb)
  | 6 => some (.fmaxF64 vd va vb)
  | 8 => guardI (decide (vb = 0)) (.fsqrtF64 vd va)
  | 10 => guardI (decide (vb = 0)) (.fabsF64 vd va)
  | 11 => guardI (decide (vb = 0)) (.fnegF64 vd va)
  | _ => none

/-- V3 major 0x1A (R271). -/
def decodeV3x1A (fn vd va vb : Nat) : Option Instr :=
  match fn with
  | 0 => guardI (decide (vb = 0)) (.fexpF32 vd va)
  | 1 => guardI (decide (vb = 0)) (.flogF32 vd va)
  | 2 => guardI (decide (vb = 0)) (.fsinF32 vd va)
  | 3 => guardI (decide (vb = 0)) (.fcosF32 vd va)
  | 4 => guardI (decide (vb = 0)) (.ftanhF32 vd va)
  | 8 => guardI (decide (vd < 16)) (.fcmpEqF32 vd va vb)
  | 9 => guardI (decide (vd < 16)) (.fcmpLtF32 vd va vb)
  | 10 => guardI (decide (vd < 16)) (.fcmpLeF32 vd va vb)
  | 12 => guardI (decide (vd < 16)) (.fcmpEqF64 vd va vb)
  | 13 => guardI (decide (vd < 16)) (.fcmpLtF64 vd va vb)
  | 14 => guardI (decide (vd < 16)) (.fcmpLeF64 vd va vb)
  | _ => none

/-- V3 major 0x1B (R271). -/
def decodeV3x1B (fn vd va vb : Nat) : Option Instr :=
  match fn with
  | 0 => guardI (decide (vb = 0)) (.fcvtF64F32 vd va)
  | 1 => guardI (decide (vb = 0)) (.fcvtF32F64 vd va)
  | 2 => guardI (decide (vb = 0)) (.fcvtF32I32 vd va)
  | 3 => guardI (decide (vb = 0)) (.fcvtF32N32 vd va)
  | 4 => guardI (decide (vb = 0)) (.fcvtI32F32 vd va)
  | 5 => guardI (decide (vb = 0)) (.fcvtN32F32 vd va)
  | 6 => some (.fcvtBf16F32 vd va vb)
  | 7 => some (.fcvtF16F32 vd va vb)
  | 8 => guardI (decide (vb < 2)) (.fcvtF32F16 vd va vb)
  | _ => none

/-- V3 major 0x1C (R271). -/
def decodeV3x1C (fn vd va vb : Nat) : Option Instr :=
  match fn with
  | 0 => some (.hadd2Bf16 vd va vb)
  | 1 => some (.hmul2Bf16 vd va vb)
  | 2 => some (.hfma2Bf16 vd va vb)
  | 4 => some (.hadd2F16 vd va vb)
  | 5 => some (.hmul2F16 vd va vb)
  | 6 => some (.hfma2F16 vd va vb)
  | _ => none

/-- V3 major 0x1D (R271). -/
def decodeV3x1D (fn vd va vb : Nat) : Option Instr :=
  match fn with
  | 0 => guardI (decide (vb = 0)) (.jseedF32 vd va)
  | 1 => guardI (decide (vb = 0)) (.jseedF64 vd va)
  | 2 => guardI (decide (vb < 8)) (.jextF32 vd va vb)
  | 3 => guardI (decide (vb < 8)) (.jextF64 vd va vb)
  | 4 => guardI (decide (vb < 8)) (.jinsF32 vd va vb)
  | 5 => guardI (decide (vb < 8)) (.jinsF64 vd va vb)
  | 6 => guardI (decide (vb = 0)) (.jdiffF32 vd va)
  | 7 => guardI (decide (vb = 0)) (.jdiffF64 vd va)
  | 8 => guardI (decide (vb = 0)) (.jintegF32 vd va)
  | 9 => guardI (decide (vb = 0)) (.jintegF64 vd va)
  | 10 => guardI (decide (vb = 0)) (.jfactF32 vd va)
  | 11 => guardI (decide (vb = 0)) (.jfactF64 vd va)
  | _ => none

/-- V3 major 0x2A (R271). -/
def decodeV3x2A (fn vd va vb : Nat) : Option Instr :=
  match fn with
  | 0 => guardI (decide (va = 0) && decide (vb = 0)) (.rdrop vd)
  | 1 => guardI (decide (va = 0) && decide (vb = 0)) (.rmat vd)
  | 2 => guardI (decide (va = 0) && decide (vb = 0)) (.rdemote vd)
  | 3 => guardI (decide (vd = 0) && decide (va < 16) && decide (vb = 0)) (.grow va)
  | 4 => guardI (decide (vd = 0) && decide (va < 16) && decide (vb = 0)) (.shrink va)
  | _ => none

/-- V3 major 0x32 (R271). -/
def decodeV3x32 (fn vd va vb : Nat) : Option Instr :=
  match fn with
  | 0 => guardI (decide (vd < 64) && decide (va = 0) && decide (vb = 0)) (.hwait vd)
  | 1 => guardI (decide (vd < 32) && decide (va < 64) && decide (vb = 0)) (.hstat vd va)
  | 2 => guardI (decide (vd < 64) && decide (va = 0) && decide (vb = 0)) (.hfree vd)
  | 3 => guardI (decide (vd < 64) && decide (va < 32) && decide (vb = 0)) (.pagereqFill vd va)
  | 4 => guardI (decide (vd < 64) && decide (va = 0) && decide (vb = 0)) (.pagereqSettle vd)
  | 5 => guardI (decide (vd < 8) && decide (va < 32) && decide (vb = 0)) (.cbset vd va)
  | 6 => guardI (decide (vd < 32) && decide (va < 8) && decide (vb = 0)) (.cbwait vd va)
  | 7 => guardI (decide (vd < 8) && decide (va = 0) && decide (vb = 0)) (.cbrel vd)
  | _ => none

/-- V3 major 0x33 (R271). -/
def decodeV3x33 (fn vd va vb : Nat) : Option Instr :=
  match fn with
  | 0 => guardI (decide (vd = 0) && decide (vb = 0)) (.spush va)
  | 1 => guardI (decide (va = 0) && decide (vb = 0)) (.spop vd)
  | 2 => guardI (decide (vd < 32) && decide (va = 0) && decide (vb = 0)) (.spcnt vd)
  | _ => none

/-- V3 major 0x34 (R271). -/
def decodeV3x34 (fn vd va vb : Nat) : Option Instr :=
  match fn with
  | 0 => guardI (decide (vd % 64 < 32) && decide (va < 32) && decide (vb < 32)) (.mmaPtBf16 (vd % 32) va vb (decide (64 ≤ vd)))
  | 1 => guardI (decide (vd % 64 < 32) && decide (va < 32) && decide (vb < 32)) (.mmaPtDpw8 (vd % 32) va vb (decide (64 ≤ vd)))
  | 2 => guardI (decide (vd % 64 < 32) && decide (va < 32) && decide (vb < 32)) (.mmaPtF32 (vd % 32) va vb (decide (64 ≤ vd)))
  | 3 => guardI (decide (vd % 64 < 32) && decide (va < 32) && decide (vb < 32)) (.mmaMinpF32 (vd % 32) va vb (decide (64 ≤ vd)))
  | 4 => guardI (decide (vd % 64 < 32) && decide (va < 32) && decide (vb < 32)) (.mmaMaxpF32 (vd % 32) va vb (decide (64 ≤ vd)))
  | 5 => guardI (decide (vd % 64 < 32) && decide (va < 32) && decide (vb < 32)) (.mmaMaxtF32 (vd % 32) va vb (decide (64 ≤ vd)))
  | 6 => guardI (decide (vd < 32) && decide (va < 32) && decide (vb < 32)) (.mmaOrandBits vd va vb)
  | _ => none

/-- V3 major 0x35 (R271). -/
def decodeV3x35 (fn vd va vb : Nat) : Option Instr :=
  match fn with
  | 0 => guardI (decide (vd = 0) && decide (vb < 32)) (.mgather va vb)
  | 1 => guardI (decide (vd = 0) && decide (va < 32) && decide (vb = 0)) (.mzero va)
  | 2 => guardI (decide (vd < 32) && decide (va < 32) && decide (vb = 0)) (.mflags vd va)
  | 3 => guardI (decide (vd < 32) && decide (va < 32) && decide (vb = 0)) (.mflagsClr vd va)
  | _ => none

/-- V3 major 0x36 (R271). -/
def decodeV3x36 (fn vd va vb : Nat) : Option Instr :=
  match fn with
  | 0 => guardI (decide (va < 32) && decide (vb < 16)) (.rqalloc vd va vb)
  | 1 => guardI (decide (vd = 0) && decide (vb = 0)) (.rqcommit va)
  | 2 => guardI (decide (vd = 0) && decide (vb = 0)) (.rqjoin va)
  | 3 => guardI (decide (vd < 32) && decide (va < 32) && decide (vb < 16)) (.rqinfo vd va vb)
  | _ => none

/-- V3 major 0x37 (R271). -/
def decodeV3x37 (fn vd va vb : Nat) : Option Instr :=
  match fn with
  | 0 => guardI (decide (vd < 32) && decide (va < 32) && decide (vb = 0)) (.ctxnew vd va)
  | 1 => guardI (decide (vd < 32) && decide (va < 32) && decide (vb < 32)) (.ctxgrantCores vd va vb)
  | 2 => guardI (decide (vd < 64) && decide (va < 32) && decide (vb < 32)) (.ctxtakeCores vd va vb)
  | 3 => guardI (decide (vd < 32) && decide (va < 32) && decide (vb < 16)) (.ctxstat vd va vb)
  | 4 => guardI (decide (vd < 64) && decide (va < 32) && decide (vb = 0)) (.ctxfree vd va)
  | _ => none

/-- V3 major 0x38 (R271). -/
def decodeV3x38 (fn vd va vb : Nat) : Option Instr :=
  match fn with
  | 0 => guardI (decide (vd = 0) && decide (va = 0) && decide (vb = 0)) (.tret)
  | 1 => guardI (decide (vd = 0) && decide (va < 32) && decide (vb = 0)) (.predone va)
  | 2 => if decide (va = 4) && decide (vb = 0) then some (.csrrDx vd)
    else guardI (decide (vd < 32) && decide (vb = 0) && csrAssigned va) (.csrr vd va)
  | 3 => if decide (vd = 4) && decide (vb = 0) then some (.csrwDx va)
    else guardI (decide (va < 32) && decide (vb = 0) && csrAssigned vd) (.csrw vd va)
  | 4 => guardI (decide (vd < 32) && decide (va < 16) && decide (vb = 0)) (.pmcr vd va)
  | 5 => guardI (decide (vd < 32) && decide (va < 32) && decide (vb = 0)) (.pwrreqGate vd va)
  | _ => none

/-- S3 major 0x08 (R271). -/
def decodeS3x08 (fn sd sa sb : Nat) : Option Instr :=
  match fn with
  | 0 => some (.sadd sd sa sb)
  | 1 => some (.ssub sd sa sb)
  | 2 => some (.smul sd sa sb)
  | 3 => some (.sand sd sa sb)
  | 4 => some (.sor sd sa sb)
  | 5 => some (.sxor sd sa sb)
  | 6 => some (.sshl sd sa sb)
  | 7 => some (.sshr sd sa sb)
  | 8 => guardI (decide (sb = 0)) (.smov sd sa)
  | 9 => some (.scmpEq sd sa sb)
  | 10 => some (.scmpLtI64 sd sa sb)
  | 11 => some (.scmpLtN64 sd sa sb)
  | _ => none

/-- S3 major 0x1E (R271). -/
def decodeS3x1E (fn sd sa sb : Nat) : Option Instr :=
  match fn with
  | 0 => guardI (decide (sd < 8) && decide (sa = 0) && decide (sb = 0)) (.setjord sd)
  | 1 => guardI (decide (sa = 0) && decide (sb = 0)) (.jsrr sd)
  | 2 => guardI (decide (sd = 0) && decide (sb = 0)) (.jsrc sa)
  | _ => none

/-- S3 major 0x29 (R271). -/
def decodeS3x29 (fn sd sa sb : Nat) : Option Instr :=
  match fn with
  | 0 => guardI (decide (sd = 0)) (.bind sa sb)
  | 1 => guardI (decide (sd = 0) && decide (sb = 0)) (.unbind sa)
  | 2 => guardI (decide (sd = 0)) (.acq sa sb)
  | 3 => guardI (decide (sd = 0)) (.rel sa sb)
  | 4 => guardI (decide (sd = 0) && decide (sb = 0)) (.lock sa)
  | 5 => guardI (decide (sd = 0) && decide (sb = 0)) (.unlock sa)
  | 6 => guardI (decide (sd = 0)) (.signal sa sb)
  | 7 => guardI (decide (sd = 0)) (.waitge sa sb)
  | 8 => if decide (sd = 0) && decide (sa = 0) && decide (sb = 0) then some (.fenceW)
    else if decide (sd = 1) && decide (sa = 0) && decide (sb = 0) then some (.fenceG)
    else if decide (sd = 2) && decide (sa = 0) && decide (sb = 0) then some (.fenceC)
    else if decide (sd = 3) && decide (sa = 0) && decide (sb = 0) then some (.fenceD)
    else guardI (decide (sd = 4) && decide (sa = 0) && decide (sb = 0)) (.fenceS)
  | 9 => guardI (decide (sd = 0) && decide (sa = 0) && decide (sb = 0)) (.ifence)
  | 10 => guardI (decide (sd = 0) && decide (sb = 0)) (.qfence sa)
  | _ => none

/-- The V3 majors (R271). -/
def decodeV3 (major fn vd va vb : Nat) : Option Instr :=
  match major with
  | 0x01 => decodeV3x01 fn vd va vb
  | 0x02 => decodeV3x02 fn vd va vb
  | 0x03 => decodeV3x03 fn vd va vb
  | 0x0E => decodeV3x0E fn vd va vb
  | 0x0F => decodeV3x0F fn vd va vb
  | 0x14 => decodeV3x14 fn vd va vb
  | 0x18 => decodeV3x18 fn vd va vb
  | 0x19 => decodeV3x19 fn vd va vb
  | 0x1A => decodeV3x1A fn vd va vb
  | 0x1B => decodeV3x1B fn vd va vb
  | 0x1C => decodeV3x1C fn vd va vb
  | 0x1D => decodeV3x1D fn vd va vb
  | 0x2A => decodeV3x2A fn vd va vb
  | 0x32 => decodeV3x32 fn vd va vb
  | 0x33 => decodeV3x33 fn vd va vb
  | 0x34 => decodeV3x34 fn vd va vb
  | 0x35 => decodeV3x35 fn vd va vb
  | 0x36 => decodeV3x36 fn vd va vb
  | 0x37 => decodeV3x37 fn vd va vb
  | 0x38 => decodeV3x38 fn vd va vb
  | _ => none

/-- The S3 majors (R260: bits [27:22] are zero). -/
def decodeS3 (major x : Nat) : Option Instr :=
  let fn := bits x 31 28
  let sd := bits x 11 7
  let sa := bits x 16 12
  let sb := bits x 21 17
  if bits x 27 22 = 0 then
    match major with
    | 0x08 => decodeS3x08 fn sd sa sb
    | 0x1E => decodeS3x1E fn sd sa sb
    | 0x29 => decodeS3x29 fn sd sa sb
    | _ => none
  else none

/-- The VI and SI majors (R260, R261). -/
def decodeImm (major x : Nat) : Option Instr :=
  let vd := bits x 13 7
  let va := bits x 20 14
  let sd := bits x 11 7
  let sa := bits x 16 12
  match major with
  | 0x04 => some (.iaddImm vd va (bits x 31 21))
  | 0x05 => guardI (decide (bits x 31 26 = 0)) (.shlImm vd va (bits x 25 21))
  | 0x06 => some (.movi vd (bits x 31 14))
  | 0x07 => guardI (decide (bits x 31 30 = 0)) (.lih vd (bits x 29 14))
  | 0x09 => some (.saddImm sd sa (bits x 31 17))
  | 0x0A => some (.sandImm sd sa (bits x 31 17))
  | 0x0B => guardI (decide (bits x 31 23 = 0)) (.sshlImm sd sa (bits x 22 17))
  | 0x0C => some (.smovi sd (bits x 31 12))
  | 0x0D => some (.slih sd (bits x 31 12))
  | 0x2B => some (.rmark vd (bits x 31 14))
  | 0x39 => guardI (decide (vd = 0)) (.trap (bits x 31 14))
  | _ => none

/-- The M majors (R260, R262, R337; reserved widths and operation codes R274). -/
def decodeM (major x : Nat) : Option Instr :=
  let d := bits x 13 7
  let s := bits x 18 14
  let o := bits x 25 19
  let w := bits x 27 26
  let h := bits x 29 28
  let i := bits x 31 30
  let p := bits x 31 28
  match major with
  | 0x20 => some (.ld d s o w h i)
  | 0x21 => if h = 3 then guardI (decide (d < 32)) (.stX d s o w i) else some (.st d s o w h i)
  | 0x22 => if h = 3 then guardI (decide (d < 32)) (.ldbX d s o w i) else some (.ldb d s o w h i)
  | 0x23 => some (.ldr d s o w p)
  | 0x24 => guardI (decide (2 ≤ w) && decide (p ≤ 10)) (.atom d s o (w - 2) p)
  | 0x25 => guardI (decide (w = 2) && decide (p ≤ 10)) (.spatom d s o p)
  | 0x26 => guardI (decide (w = 2)) (.slock d s o p)
  | 0x27 => guardI (decide (w = 2) && decide (p = 0)) (.sunlk d s o)
  | 0x28 => guardI (decide (d = 0)) (.pref s o w h i)
  | _ => none

/-- The B, E and XMOD majors (R260, R263, R264, R266). -/
def decodeBEX (major x : Nat) : Option Instr :=
  match major with
  | 0x10 => some (.br (bits x 10 7) (bits x 31 11))
  | 0x11 => some (.call (bits x 10 7) (bits x 31 11))
  | 0x12 => some (.brsZ (bits x 10 7) (bits x 31 11))
  | 0x13 => some (.brsNz (bits x 10 7) (bits x 31 11))
  | 0x30 => some (.cpy (bits x 13 7) (bits x 19 14) (bits x 23 20) (bits x 28 24) (bits x 30 29) (bits x 31 31))
  | 0x31 => some (.cpyd (bits x 13 7) (bits x 19 14) (bits x 23 20) (bits x 28 24) (bits x 30 29) (bits x 31 31))
  | 0x3E =>
    let m : Xmod :=
      { vc := bits x 31 25, dem := bits x 21 21 = 1, eb := bits x 20 20 = 1, ea := bits x 19 19 = 1
        pp := bits x 18 14, pk := bits x 13 11, inv := bits x 10 10 = 1, pm := bits x 9 7 }
    guardI (decide (bits x 24 22 = 0) && m.inRange) (.xmod m)
  | _ => none

/-- The majors of each format (R271). -/
def isV3 (major : Nat) : Bool := [0x01, 0x02, 0x03, 0x0E, 0x0F, 0x14, 0x18, 0x19, 0x1A, 0x1B, 0x1C, 0x1D, 0x2A, 0x32, 0x33, 0x34, 0x35, 0x36, 0x37, 0x38, 0x15].contains major
/-- S3 majors. -/
def isS3 (major : Nat) : Bool := [0x08, 0x1E, 0x29].contains major
/-- VI and SI majors. -/
def isImm (major : Nat) : Bool := [0x04, 0x05, 0x06, 0x07, 0x09, 0x0A, 0x0B, 0x0C, 0x0D, 0x2B, 0x39].contains major
/-- M majors. -/
def isM (major : Nat) : Bool := decide (0x20 ≤ major) && decide (major ≤ 0x28)

/-- What the legacy generations withdraw from the map (R279, R280), by major and fn. -/
def withdrawn (gen major fn : Nat) : Bool :=
  (decide (gen ≤ 2) &&
    ([0x1D, 0x1E, 0x33].contains major || (major == 0x18 && decide (14 ≤ fn)) || (major == 0x1A && fn == 4) ||
      (major == 0x34 && fn == 1))) ||
  (decide (gen ≤ 1) &&
    (major == 0x2B || (major == 0x2A && decide (fn ≤ 2)) || (major == 0x34 && decide (3 ≤ fn) && decide (fn ≤ 6)) ||
      (major == 0x0E && fn == 8)))

/-- A V3 word of a generation: the fields stand where R278 places them. -/
def decodeV3Gen (gen major x : Nat) : Option Instr :=
  let fn := if gen = 3 then bits x 31 28 else bits x 10 7
  let vd := if gen = 3 then bits x 13 7 else bits x 17 11
  let va := if gen = 3 then bits x 20 14 else bits x 24 18
  let vb := if gen = 3 then bits x 27 21 else bits x 31 25
  if major = 0x15 then
    if gen = 3 then none
    else match fn with
      | 0 => guardI (decide (vd = 0) && decide (vb = 0)) (.spushRoltik2 va)
      | 1 => guardI (decide (va = 0) && decide (vb = 0)) (.spopRoltik2 vd)
      | 2 => guardI (decide (vd < 32) && decide (va = 0) && decide (vb = 0)) (.spcntRoltik2 vd)
      | _ => none
  else if withdrawn gen major fn then none
  else decodeV3 major fn vd va vb

/-- A 32-bit instruction of a generation, from its word (R255, R260). -/
def decodeWord (gen x : Nat) : Option Instr :=
  let major := bits x 6 1
  if isV3 major then decodeV3Gen gen major x
  else if withdrawn gen major 0 then none
  else if isS3 major then decodeS3 major x
  else if isImm major then decodeImm major x
  else if isM major then decodeM major x
  else if gen = 1 && major == 0x3E && decide (bits x 31 25 ≠ 0) then none
  else decodeBEX major x

/-- A C16 parcel of a generation (R257, R258, R280); the parcel 0 is not an instruction. -/
def decodeParcel (gen x : Nat) : Option Instr :=
  let b := bits x 15 11
  let d := bits x 10 5
  if x = 0 then none
  else if gen = 1 then
    match bits x 4 1 with
    | 0 => some (.iaddC16 d b) | 1 => some (.isubC16 d b) | 2 => some (.andC16 d b) | 3 => some (.orC16 d b)
    | 4 => some (.xorC16 d b) | 5 => some (.shlC16 d b) | 6 => some (.shrC16 d b) | 7 => some (.movC16 d b)
    | 8 => some (.faddF32C16 d b) | 9 => some (.fmulF32C16 d b) | 10 => some (.fsubF32C16 d b)
    | 11 => some (.imulC16 d b) | 12 => some (.sarC16 d b) | 13 => some (.iminC16 d b) | 14 => some (.imaxC16 d b)
    | _ => some (.notC16Roltik1 d b)
  else
    match bits x 4 1 with
    | 0 => some (.iaddC16 d b) | 1 => some (.isubC16 d b) | 2 => some (.imulC16 d b) | 3 => some (.andC16 d b)
    | 4 => some (.orC16 d b) | 5 => some (.xorC16 d b) | 6 => some (.shlC16 d b) | 7 => some (.shrC16 d b)
    | 8 => some (.sarC16 d b) | 9 => some (.movC16 d b) | 10 => some (.iminC16 d b) | 11 => some (.imaxC16 d b)
    | 12 => some (.faddF32C16 d b) | 13 => some (.fsubF32C16 d b) | 14 => some (.fmulF32C16 d b)
    | _ => some (.fmaxF32C16 d b)

/-- The instruction at the start of the bytes and its length, under a generation; nothing where they hold none (too few
bytes, or bits that are not an instruction). -/
def decode (gen : Nat) (bs : List Byte) : Option (Instr × Nat) :=
  match bs with
  | b0 :: b1 :: t =>
    if b0.getLsbD 0 then
      match t with
      | b2 :: b3 :: _ => (decodeWord gen (leNat [b0, b1, b2, b3])).map (·, 4)
      | _ => none
    else (decodeParcel gen (leNat [b0, b1])).map (·, 2)
  | _ => none

/-! ### The roles of R267 -/

/-- Which XMOD roles an instruction has, each holding a vector register, and whether it takes a third source from vc. -/
structure Roles where
  /-- an XMOD may stand before it (R269) -/
  ok : Bool := true
  /-- pk and pp are used -/
  perm : Bool := false
  /-- ea is used -/
  va : Bool := false
  vb : Bool := false
  dst : Bool := false
  vc : Bool := false
  /-- the predicate fields may be set -/
  pred : Bool := true
  deriving DecidableEq, Repr

/-- One vector source and a vector destination. -/
def Roles.un : Roles := { perm := true, va := true, dst := true }
/-- Two vector sources and a vector destination. -/
def Roles.bin : Roles := { perm := true, va := true, vb := true, dst := true }
/-- Two vector sources, and a third that vc may name. -/
def Roles.tern : Roles := { perm := true, va := true, vb := true, dst := true, vc := true }
/-- Two vector sources and a mask destination. -/
def Roles.cmp : Roles := { perm := true, va := true, vb := true }
/-- One vector source only. -/
def Roles.src : Roles := { perm := true, va := true }
/-- A vector destination only. -/
def Roles.dstOnly : Roles := { dst := true }
/-- No vector register. -/
def Roles.bare : Roles := {}
/-- An XMOD may not stand before it. -/
def Roles.no : Roles := { ok := false }

/-- The XMOD roles of each instruction (R267). The events have none: an XMOD stands before a decoded instruction only. -/
def Instr.roles : Instr → Roles
  | .iadd _ _ _ | .isub _ _ _ | .imul _ _ _ | .imulhI32 _ _ _ | .imulhN32 _ _ _ | .imin _ _ _ | .imax _ _ _
  | .and _ _ _ | .or _ _ _ | .xor _ _ _ | .andn _ _ _ | .shl _ _ _ | .shr _ _ _ | .sar _ _ _ | .rot _ _ _
  | .sel _ _ _ | .bfxI32 _ _ _ | .bfxN32 _ _ _ | .bfi _ _ _ | .iaddI64 _ _ _ | .isubI64 _ _ _ | .imulI64 _ _ _
  | .lperm _ _ _ | .faddF32 _ _ _ | .fsubF32 _ _ _ | .fmulF32 _ _ _ | .fdivF32 _ _ _ | .fminF32 _ _ _
  | .fmaxF32 _ _ _ | .faddF64 _ _ _ | .fsubF64 _ _ _ | .fmulF64 _ _ _ | .fdivF64 _ _ _ | .fminF64 _ _ _
  | .fmaxF64 _ _ _ | .fcvtBf16F32 _ _ _ | .fcvtF16F32 _ _ _ | .hadd2Bf16 _ _ _ | .hmul2Bf16 _ _ _
  | .hadd2F16 _ _ _ | .hmul2F16 _ _ _ | .atom _ _ _ _ _ | .spatom _ _ _ _ | .iaddC16 _ _ | .isubC16 _ _
  | .imulC16 _ _ | .andC16 _ _ | .orC16 _ _ | .xorC16 _ _ | .shlC16 _ _ | .shrC16 _ _ | .sarC16 _ _
  | .iminC16 _ _ | .imaxC16 _ _ | .faddF32C16 _ _ | .fsubF32C16 _ _ | .fmulF32C16 _ _ | .fmaxF32C16 _ _ => .bin
  | .imad _ _ _ | .ffmaF32 _ _ _ | .ffmaF32Rn _ _ _ | .ffmaF32Rz _ _ _ | .ffmaF64 _ _ _ | .hfma2Bf16 _ _ _
  | .hfma2F16 _ _ _ => .tern
  | .iabs _ _ | .ineg _ _ | .not _ _ | .clz _ _ | .popc _ _ | .brev _ _ | .mov _ _ | .icvtI8 _ _ | .icvtI16 _ _
  | .icvtI64 _ _ | .icvtI32 _ _ | .iaddImm _ _ _ | .shlImm _ _ _ | .reduceAddI32 _ _ | .reduceMaxI32 _ _
  | .reduceAddF32 _ _ | .reduceMaxF32 _ _ | .reduceAddF64 _ _ | .frcpF32 _ _ | .fsqrtF32 _ _ | .frsqF32 _ _
  | .fabsF32 _ _ | .fnegF32 _ _ | .fclassF32 _ _ | .froundF32 _ _ | .fsqrtF64 _ _ | .fabsF64 _ _ | .fnegF64 _ _
  | .fexpF32 _ _ | .flogF32 _ _ | .fsinF32 _ _ | .fcosF32 _ _ | .ftanhF32 _ _ | .fcvtF64F32 _ _
  | .fcvtF32F64 _ _ | .fcvtF32I32 _ _ | .fcvtF32N32 _ _ | .fcvtI32F32 _ _ | .fcvtN32F32 _ _ | .fcvtF32F16 _ _ _
  | .jseedF32 _ _ | .jseedF64 _ _ | .jextF32 _ _ _ | .jextF64 _ _ _ | .jinsF32 _ _ _ | .jinsF64 _ _ _
  | .jdiffF32 _ _ | .jdiffF64 _ _ | .jintegF32 _ _ | .jintegF64 _ _ | .jfactF32 _ _ | .jfactF64 _ _
  | .ld _ _ _ _ _ _ | .ldr _ _ _ _ _ | .slock _ _ _ _ | .movC16 _ _ | .notC16Roltik1 _ _ => .un
  | .icmpEq _ _ _ | .icmpLtI32 _ _ _ | .icmpLtN32 _ _ _ | .fcmpEqF32 _ _ _ | .fcmpLtF32 _ _ _
  | .fcmpLeF32 _ _ _ | .fcmpEqF64 _ _ _ | .fcmpLtF64 _ _ _ | .fcmpLeF64 _ _ _ | .sunlk _ _ _ => .cmp
  | .movi _ _ | .lih _ _ | .vlid _ | .ldb _ _ _ _ _ _ | .rdrop _ | .rmat _ | .rdemote _ | .rmark _ _ | .spop _
  | .spopRoltik2 _ | .rqalloc _ _ _ | .csrrDx _ => .dstOnly
  | .sadd _ _ _ | .ssub _ _ _ | .smul _ _ _ | .sand _ _ _ | .sor _ _ _ | .sxor _ _ _ | .sshl _ _ _
  | .sshr _ _ _ | .smov _ _ | .scmpEq _ _ _ | .scmpLtI64 _ _ _ | .scmpLtN64 _ _ _ | .saddImm _ _ _
  | .sandImm _ _ _ | .sshlImm _ _ _ | .smovi _ _ | .slih _ _ | .br _ _ | .call _ _ | .brsZ _ _ | .brsNz _ _
  | .setjord _ | .jsrr _ | .jsrc _ | .stX _ _ _ _ _ | .ldbX _ _ _ _ _ | .bind _ _ | .unbind _ | .acq _ _
  | .rel _ _ | .lock _ | .unlock _ | .signal _ _ | .waitge _ _ | .fenceW | .fenceG | .fenceC | .fenceD
  | .fenceS | .ifence | .qfence _ | .xmod _ => .no
  | .vote _ _ | .mpop _ _ | .mand _ _ _ | .mor _ _ _ | .mxor _ _ _ | .mnot _ _ | .mmov _ _ | .exit | .yield
  | .sleep | .wake _ | .elect _ _ | .nop | .join _ | .leave _ | .bar _ | .lbar | .grow _ | .shrink _ | .hwait _
  | .hstat _ _ | .hfree _ | .pagereqFill _ _ | .pagereqSettle _ | .cbset _ _ | .cbwait _ _ | .cbrel _
  | .spcnt _ | .spcntRoltik2 _ | .mmaPtBf16 _ _ _ _ | .mmaPtDpw8 _ _ _ _ | .mmaPtF32 _ _ _ _
  | .mmaMinpF32 _ _ _ _ | .mmaMaxpF32 _ _ _ _ | .mmaMaxtF32 _ _ _ _ | .mmaOrandBits _ _ _ | .mzero _
  | .mflags _ _ | .mflagsClr _ _ | .rqinfo _ _ _ | .ctxnew _ _ | .ctxgrantCores _ _ _ | .ctxgrantMem _ _ _
  | .ctxgrantQmem _ _ _ | .ctxgrantBind _ _ _ | .ctxgrantEnergyIpeak _ _ _ | .ctxgrantBandwidth _ _ _
  | .ctxgrantRoot _ _ _ | .ctxgrantResume _ _ _ | .ctxtakeCores _ _ _ | .ctxtakeMem _ _ _ | .ctxtakeQmem _ _ _
  | .ctxtakeBind _ _ _ | .ctxtakeEnergyIpeak _ _ _ | .ctxtakeBandwidth _ _ _ | .ctxstat _ _ _ | .ctxfree _ _
  | .tret | .predone _ | .csrr _ _ | .csrw _ _ | .pmcr _ _ | .pwrreqGate _ _ | .pwrreqWake _ _
  | .pwrreqPoint _ _ | .pwrreqMode _ _ | .pwrreqHold _ _ | .pwrreqQuery _ _ | .trap _ => .bare
  | .jmp _ | .ret _ | .pref _ _ _ _ _ | .spush _ | .spushRoltik2 _ | .mgather _ _ | .rqcommit _ | .rqjoin _
  | .csrwDx _ => .src
  | .nopH1 _ _ _ | .nopH2 _ _ _ => { pred := false }
  | .st _ _ _ _ _ _ => { perm := true, va := true, vb := true }
  | .cpy _ _ _ _ _ _ | .cpyd _ _ _ _ _ _ => { va := true }
  | .loadResultReturn _ _ | .storeQueueDrain _ | .remoteAccessArrival _ _ | .remoteAccessRefused _ _
  | .remoteAcknowledge _ _ | .mappingLeaseExpiry _ | .l1LeaseWriteback _ _ | .pagereqRewalk _ _
  | .pagereqSettleExpiry _ _ | .lockBitRetry _ | .bankDrowsyEntry _ _ | .bankWake _ _ | .spineEntryArrival _
  | .spineCreditReturn _ | .spinePairFolioRestore _ _ | .gateGrant _ | .domainWakeComplete _
  | .cbSlotClaim _ _ _ | .copyOperationStart _ _ _ | .copyOperationComplete _ _ _ | .multicastDelivery _ _ _ _
  | .multicastWaitExpiry _ _ _ _ | .followOnPlacement _ _ _ _ | .mmaStart _ _ | .mmaAccumulationComplete _
  | .mzeroExecute _ _ | .mflagsExecute _ _ | .mgatherExecute _ | .quantumStart _ | .gathererTimerExpiry _ _ _
  | .gathererDispatch | .groupPlacement _ | .launchStructureReread _ _ | .continuationEnqueue _
  | .groupTeardown _ | .reservationZeroingDone _ _ | .launchCompletion _ | .completionInterrupt _
  | .growGrant _ | .growDeadlockBreaker _ | .controlIntervalBoundary _ _ | .energyBudgetExhausted _
  | .droopTrip _ | .droopHoldExpiry _ | .voltageSlewComplete _ | .frequencySwitch _ | .governorSample _ _
  | .thermalClampStep _ _ | .clusterClockGate _ | .startEventAdmission | .bandwidthInterval _ _ _
  | .hangWatchdogExpiry _ | .sliceExpiry _ | .groupStop _ | .preemptTimeout _ | .predoneTimeout _
  | .groupRestore _ | .faultRingWrite _ | .revocationComplete _ _ | .lockRetry _ | .waitgePoll _ | .feEnable _
  | .feDisable _ | .feProducerCountWrite _ _ | .feSubmissionEntry _ | .feVerdictWrite _ _
  | .feSettingsWrite _ _ _ | .powerOnBringup | .attestationRequest _ | .ageingMonitorUpdate _ _ _
  | .selfTestStart _ _ | .selfTestComplete _ _ _ | .illegalInstr _ | .fetchFault _ | .writeBackAcknowledge _
  | .hostStoreAcknowledge _ => .no

/-- The XMOD may stand before the instruction: its fields are used only where their roles exist (R267, R269, R276). -/
def Xmod.pairs (x : Xmod) (i : Instr) : Bool :=
  let r := i.roles
  r.ok && (r.perm || (x.pk == 0 && x.pp == 0)) && (r.va || !x.ea) && (r.vb || !x.eb) && (r.dst || !x.dem) &&
    (r.vc || x.vc == 0) && (r.pred || (x.pm == 0 && !x.inv))

/-! ### The encoder -/

/-- The low bits of a 32-bit word: bit 0 and the major (R260). -/
def encMajor (major : Nat) : Nat := 1 + 2 * major
/-- A V3 word (R260). -/
def encV3 (major fn vd va vb : Nat) : Nat :=
  encMajor major + 2 ^ 7 * vd + 2 ^ 14 * va + 2 ^ 21 * vb + 2 ^ 28 * fn
/-- A V3 word under Roltik-2 and Roltik-1 (R278). -/
def encV3Old (major fn vd va vb : Nat) : Nat :=
  encMajor major + 2 ^ 7 * fn + 2 ^ 11 * vd + 2 ^ 18 * va + 2 ^ 25 * vb
/-- A VI word (R260). -/
def encVI (major vd va imm : Nat) : Nat := encMajor major + 2 ^ 7 * vd + 2 ^ 14 * va + 2 ^ 21 * imm
/-- A VI word with the wide immediate (R261). -/
def encVIw (major vd imm : Nat) : Nat := encMajor major + 2 ^ 7 * vd + 2 ^ 14 * imm
/-- An S3 word (R260). -/
def encS3 (major fn sd sa sb : Nat) : Nat :=
  encMajor major + 2 ^ 7 * sd + 2 ^ 12 * sa + 2 ^ 17 * sb + 2 ^ 28 * fn
/-- An SI word (R260). -/
def encSI (major sd sa imm : Nat) : Nat := encMajor major + 2 ^ 7 * sd + 2 ^ 12 * sa + 2 ^ 17 * imm
/-- An SI word with the wide immediate (R261). -/
def encSIw (major sd imm : Nat) : Nat := encMajor major + 2 ^ 7 * sd + 2 ^ 12 * imm
/-- An M word; `top` is bits [31:28] (R260, R262). -/
def encM (major d s o w top : Nat) : Nat :=
  encMajor major + 2 ^ 7 * d + 2 ^ 14 * s + 2 ^ 19 * o + 2 ^ 26 * w + 2 ^ 28 * top
/-- A B word (R260). -/
def encB (major c woff : Nat) : Nat := encMajor major + 2 ^ 7 * c + 2 ^ 11 * woff
/-- An E word (R260). -/
def encE (major v h g c q e : Nat) : Nat :=
  encMajor major + 2 ^ 7 * v + 2 ^ 14 * h + 2 ^ 20 * g + 2 ^ 24 * c + 2 ^ 29 * q + 2 ^ 31 * e
/-- A C16 parcel (R257). -/
def encC16 (op d b : Nat) : Nat := 2 * op + 2 ^ 5 * d + 2 ^ 11 * b
/-- An XMOD word (R266). -/
def encXmod (x : Xmod) : Nat :=
  encMajor 0x3E + 2 ^ 7 * x.pm + 2 ^ 10 * x.inv.toNat + 2 ^ 11 * x.pk + 2 ^ 14 * x.pp + 2 ^ 19 * x.ea.toNat +
    2 ^ 20 * x.eb.toNat + 2 ^ 21 * x.dem.toNat + 2 ^ 25 * x.vc

/-- The word or parcel of an instruction and its length in bytes (R255 to R271); none for a move without an encoding. -/
def encodeWord : Instr → Option (Nat × Nat)
  | .iadd d a b => some (encV3 0x01 0 d a b, 4)
  | .isub d a b => some (encV3 0x01 1 d a b, 4)
  | .imul d a b => some (encV3 0x01 2 d a b, 4)
  | .imulhI32 d a b => some (encV3 0x01 3 d a b, 4)
  | .imulhN32 d a b => some (encV3 0x01 4 d a b, 4)
  | .imin d a b => some (encV3 0x01 5 d a b, 4)
  | .imax d a b => some (encV3 0x01 6 d a b, 4)
  | .and d a b => some (encV3 0x01 7 d a b, 4)
  | .or d a b => some (encV3 0x01 8 d a b, 4)
  | .xor d a b => some (encV3 0x01 9 d a b, 4)
  | .andn d a b => some (encV3 0x01 10 d a b, 4)
  | .shl d a b => some (encV3 0x01 11 d a b, 4)
  | .shr d a b => some (encV3 0x01 12 d a b, 4)
  | .sar d a b => some (encV3 0x01 13 d a b, 4)
  | .rot d a b => some (encV3 0x01 14 d a b, 4)
  | .imad d a b => some (encV3 0x01 15 d a b, 4)
  | .iabs d a => some (encV3 0x02 0 d a 0, 4)
  | .ineg d a => some (encV3 0x02 1 d a 0, 4)
  | .not d a => some (encV3 0x02 2 d a 0, 4)
  | .clz d a => some (encV3 0x02 3 d a 0, 4)
  | .popc d a => some (encV3 0x02 4 d a 0, 4)
  | .brev d a => some (encV3 0x02 5 d a 0, 4)
  | .mov d a => some (encV3 0x02 6 d a 0, 4)
  | .sel d a b => some (encV3 0x02 7 d a b, 4)
  | .bfxI32 d a b => some (encV3 0x02 8 d a b, 4)
  | .bfxN32 d a b => some (encV3 0x02 9 d a b, 4)
  | .bfi d a b => some (encV3 0x02 10 d a b, 4)
  | .icvtI8 d a => some (encV3 0x02 11 d a 0, 4)
  | .icvtI16 d a => some (encV3 0x02 12 d a 0, 4)
  | .icvtI64 d a => some (encV3 0x02 13 d a 0, 4)
  | .icvtI32 d a => some (encV3 0x02 14 d a 0, 4)
  | .icmpEq d a b => some (encV3 0x03 0 d a b, 4)
  | .icmpLtI32 d a b => some (encV3 0x03 1 d a b, 4)
  | .icmpLtN32 d a b => some (encV3 0x03 2 d a b, 4)
  | .iaddI64 d a b => some (encV3 0x03 3 d a b, 4)
  | .isubI64 d a b => some (encV3 0x03 4 d a b, 4)
  | .imulI64 d a b => some (encV3 0x03 5 d a b, 4)
  | .iaddImm d a i => some (encVI 0x04 d a i, 4)
  | .shlImm d a i => some (encVI 0x05 d a i, 4)
  | .movi d i => some (encVIw 0x06 d i, 4)
  | .lih d i => some (encVIw 0x07 d i, 4)
  | .sadd d a b => some (encS3 0x08 0 d a b, 4)
  | .ssub d a b => some (encS3 0x08 1 d a b, 4)
  | .smul d a b => some (encS3 0x08 2 d a b, 4)
  | .sand d a b => some (encS3 0x08 3 d a b, 4)
  | .sor d a b => some (encS3 0x08 4 d a b, 4)
  | .sxor d a b => some (encS3 0x08 5 d a b, 4)
  | .sshl d a b => some (encS3 0x08 6 d a b, 4)
  | .sshr d a b => some (encS3 0x08 7 d a b, 4)
  | .smov d a => some (encS3 0x08 8 d a 0, 4)
  | .scmpEq d a b => some (encS3 0x08 9 d a b, 4)
  | .scmpLtI64 d a b => some (encS3 0x08 10 d a b, 4)
  | .scmpLtN64 d a b => some (encS3 0x08 11 d a b, 4)
  | .saddImm d a i => some (encSI 0x09 d a i, 4)
  | .sandImm d a i => some (encSI 0x0A d a i, 4)
  | .sshlImm d a i => some (encSI 0x0B d a i, 4)
  | .smovi d i => some (encSIw 0x0C d i, 4)
  | .slih d i => some (encSIw 0x0D d i, 4)
  | .vlid d => some (encV3 0x0E 0 d 0 0, 4)
  | .lperm d a b => some (encV3 0x0E 1 d a b, 4)
  | .vote d a => some (encV3 0x0E 2 d a 0, 4)
  | .mpop d a => some (encV3 0x0E 3 d a 0, 4)
  | .reduceAddI32 d a => some (encV3 0x0E 4 d a 0, 4)
  | .reduceMaxI32 d a => some (encV3 0x0E 5 d a 0, 4)
  | .reduceAddF32 d a => some (encV3 0x0E 6 d a 0, 4)
  | .reduceMaxF32 d a => some (encV3 0x0E 7 d a 0, 4)
  | .reduceAddF64 d a => some (encV3 0x0E 8 d a 0, 4)
  | .mand d a b => some (encV3 0x0F 0 d a b, 4)
  | .mor d a b => some (encV3 0x0F 1 d a b, 4)
  | .mxor d a b => some (encV3 0x0F 2 d a b, 4)
  | .mnot d a => some (encV3 0x0F 3 d a 0, 4)
  | .mmov d a => some (encV3 0x0F 4 d a 0, 4)
  | .br c w => some (encB 0x10 c w, 4)
  | .call c w => some (encB 0x11 c w, 4)
  | .brsZ c w => some (encB 0x12 c w, 4)
  | .brsNz c w => some (encB 0x13 c w, 4)
  | .jmp a => some (encV3 0x14 0 0 a 0, 4)
  | .ret a => some (encV3 0x14 1 0 a 0, 4)
  | .exit => some (encV3 0x14 2 0 0 0, 4)
  | .yield => some (encV3 0x14 3 0 0 0, 4)
  | .sleep => some (encV3 0x14 4 0 0 0, 4)
  | .wake d => some (encV3 0x14 5 d 0 0, 4)
  | .elect d a => some (encV3 0x14 6 d a 0, 4)
  | .nop => some (encV3 0x14 7 0 0 0, 4)
  | .join d => some (encV3 0x14 8 d 0 0, 4)
  | .leave d => some (encV3 0x14 9 d 0 0, 4)
  | .bar d => some (encV3 0x14 10 d 0 0, 4)
  | .lbar => some (encV3 0x14 11 0 0 0, 4)
  | .nopH1 d a b => some (encV3 0x14 14 d a b, 4)
  | .nopH2 d a b => some (encV3 0x14 15 d a b, 4)
  | .faddF32 d a b => some (encV3 0x18 0 d a b, 4)
  | .fsubF32 d a b => some (encV3 0x18 1 d a b, 4)
  | .fmulF32 d a b => some (encV3 0x18 2 d a b, 4)
  | .ffmaF32 d a b => some (encV3 0x18 3 d a b, 4)
  | .fdivF32 d a b => some (encV3 0x18 4 d a b, 4)
  | .fminF32 d a b => some (encV3 0x18 5 d a b, 4)
  | .fmaxF32 d a b => some (encV3 0x18 6 d a b, 4)
  | .frcpF32 d a => some (encV3 0x18 7 d a 0, 4)
  | .fsqrtF32 d a => some (encV3 0x18 8 d a 0, 4)
  | .frsqF32 d a => some (encV3 0x18 9 d a 0, 4)
  | .fabsF32 d a => some (encV3 0x18 10 d a 0, 4)
  | .fnegF32 d a => some (encV3 0x18 11 d a 0, 4)
  | .fclassF32 d a => some (encV3 0x18 12 d a 0, 4)
  | .froundF32 d a => some (encV3 0x18 13 d a 0, 4)
  | .ffmaF32Rn d a b => some (encV3 0x18 14 d a b, 4)
  | .ffmaF32Rz d a b => some (encV3 0x18 15 d a b, 4)
  | .faddF64 d a b => some (encV3 0x19 0 d a b, 4)
  | .fsubF64 d a b => some (encV3 0x19 1 d a b, 4)
  | .fmulF64 d a b => some (encV3 0x19 2 d a b, 4)
  | .ffmaF64 d a b => some (encV3 0x19 3 d a b, 4)
  | .fdivF64 d a b => some (encV3 0x19 4 d a b, 4)
  | .fminF64 d a b => some (encV3 0x19 5 d a b, 4)
  | .fmaxF64 d a b => some (encV3 0x19 6 d a b, 4)
  | .fsqrtF64 d a => some (encV3 0x19 8 d a 0, 4)
  | .fabsF64 d a => some (encV3 0x19 10 d a 0, 4)
  | .fnegF64 d a => some (encV3 0x19 11 d a 0, 4)
  | .fexpF32 d a => some (encV3 0x1A 0 d a 0, 4)
  | .flogF32 d a => some (encV3 0x1A 1 d a 0, 4)
  | .fsinF32 d a => some (encV3 0x1A 2 d a 0, 4)
  | .fcosF32 d a => some (encV3 0x1A 3 d a 0, 4)
  | .ftanhF32 d a => some (encV3 0x1A 4 d a 0, 4)
  | .fcmpEqF32 d a b => some (encV3 0x1A 8 d a b, 4)
  | .fcmpLtF32 d a b => some (encV3 0x1A 9 d a b, 4)
  | .fcmpLeF32 d a b => some (encV3 0x1A 10 d a b, 4)
  | .fcmpEqF64 d a b => some (encV3 0x1A 12 d a b, 4)
  | .fcmpLtF64 d a b => some (encV3 0x1A 13 d a b, 4)
  | .fcmpLeF64 d a b => some (encV3 0x1A 14 d a b, 4)
  | .fcvtF64F32 d a => some (encV3 0x1B 0 d a 0, 4)
  | .fcvtF32F64 d a => some (encV3 0x1B 1 d a 0, 4)
  | .fcvtF32I32 d a => some (encV3 0x1B 2 d a 0, 4)
  | .fcvtF32N32 d a => some (encV3 0x1B 3 d a 0, 4)
  | .fcvtI32F32 d a => some (encV3 0x1B 4 d a 0, 4)
  | .fcvtN32F32 d a => some (encV3 0x1B 5 d a 0, 4)
  | .fcvtBf16F32 d a b => some (encV3 0x1B 6 d a b, 4)
  | .fcvtF16F32 d a b => some (encV3 0x1B 7 d a b, 4)
  | .fcvtF32F16 d a e => some (encV3 0x1B 8 d a e, 4)
  | .hadd2Bf16 d a b => some (encV3 0x1C 0 d a b, 4)
  | .hmul2Bf16 d a b => some (encV3 0x1C 1 d a b, 4)
  | .hfma2Bf16 d a b => some (encV3 0x1C 2 d a b, 4)
  | .hadd2F16 d a b => some (encV3 0x1C 4 d a b, 4)
  | .hmul2F16 d a b => some (encV3 0x1C 5 d a b, 4)
  | .hfma2F16 d a b => some (encV3 0x1C 6 d a b, 4)
  | .jseedF32 d a => some (encV3 0x1D 0 d a 0, 4)
  | .jseedF64 d a => some (encV3 0x1D 1 d a 0, 4)
  | .jextF32 d a n => some (encV3 0x1D 2 d a n, 4)
  | .jextF64 d a n => some (encV3 0x1D 3 d a n, 4)
  | .jinsF32 d a n => some (encV3 0x1D 4 d a n, 4)
  | .jinsF64 d a n => some (encV3 0x1D 5 d a n, 4)
  | .jdiffF32 d a => some (encV3 0x1D 6 d a 0, 4)
  | .jdiffF64 d a => some (encV3 0x1D 7 d a 0, 4)
  | .jintegF32 d a => some (encV3 0x1D 8 d a 0, 4)
  | .jintegF64 d a => some (encV3 0x1D 9 d a 0, 4)
  | .jfactF32 d a => some (encV3 0x1D 10 d a 0, 4)
  | .jfactF64 d a => some (encV3 0x1D 11 d a 0, 4)
  | .setjord k => some (encS3 0x1E 0 k 0 0, 4)
  | .jsrr d => some (encS3 0x1E 1 d 0 0, 4)
  | .jsrc a => some (encS3 0x1E 2 0 a 0, 4)
  | .ld d s o w h i => some (encM 0x20 d s o w (h + 4 * i), 4)
  | .st d s o w h i => some (encM 0x21 d s o w (h + 4 * i), 4)
  | .stX d s o w i => some (encM 0x21 d s o w (3 + 4 * i), 4)
  | .ldb d s o w h i => some (encM 0x22 d s o w (h + 4 * i), 4)
  | .ldbX d s o w i => some (encM 0x22 d s o w (3 + 4 * i), 4)
  | .ldr d s o w m => some (encM 0x23 d s o w m, 4)
  | .atom d s o w p => some (encM 0x24 d s o (w + 2) p, 4)
  | .spatom d s o p => some (encM 0x25 d s o 2 p, 4)
  | .slock d s o m => some (encM 0x26 d s o 2 m, 4)
  | .sunlk d s o => some (encM 0x27 d s o 2 0, 4)
  | .pref s o w h i => some (encM 0x28 0 s o w (h + 4 * i), 4)
  | .bind a b => some (encS3 0x29 0 0 a b, 4)
  | .unbind a => some (encS3 0x29 1 0 a 0, 4)
  | .acq a b => some (encS3 0x29 2 0 a b, 4)
  | .rel a b => some (encS3 0x29 3 0 a b, 4)
  | .lock a => some (encS3 0x29 4 0 a 0, 4)
  | .unlock a => some (encS3 0x29 5 0 a 0, 4)
  | .signal a b => some (encS3 0x29 6 0 a b, 4)
  | .waitge a b => some (encS3 0x29 7 0 a b, 4)
  | .fenceW => some (encS3 0x29 8 0 0 0, 4)
  | .fenceG => some (encS3 0x29 8 1 0 0, 4)
  | .fenceC => some (encS3 0x29 8 2 0 0, 4)
  | .fenceD => some (encS3 0x29 8 3 0 0, 4)
  | .fenceS => some (encS3 0x29 8 4 0 0, 4)
  | .ifence => some (encS3 0x29 9 0 0 0, 4)
  | .qfence a => some (encS3 0x29 10 0 a 0, 4)
  | .rdrop d => some (encV3 0x2A 0 d 0 0, 4)
  | .rmat d => some (encV3 0x2A 1 d 0 0, 4)
  | .rdemote d => some (encV3 0x2A 2 d 0 0, 4)
  | .grow n => some (encV3 0x2A 3 0 n 0, 4)
  | .shrink n => some (encV3 0x2A 4 0 n 0, 4)
  | .rmark d i => some (encVIw 0x2B d i, 4)
  | .cpy v h g c q e => some (encE 0x30 v h g c q e, 4)
  | .cpyd v h g c q e => some (encE 0x31 v h g c q e, 4)
  | .hwait h => some (encV3 0x32 0 h 0 0, 4)
  | .hstat d h => some (encV3 0x32 1 d h 0, 4)
  | .hfree h => some (encV3 0x32 2 h 0 0, 4)
  | .pagereqFill h a => some (encV3 0x32 3 h a 0, 4)
  | .pagereqSettle h => some (encV3 0x32 4 h 0 0, 4)
  | .cbset c a => some (encV3 0x32 5 c a 0, 4)
  | .cbwait d c => some (encV3 0x32 6 d c 0, 4)
  | .cbrel c => some (encV3 0x32 7 c 0 0, 4)
  | .spush a => some (encV3 0x33 0 0 a 0, 4)
  | .spop d => some (encV3 0x33 1 d 0 0, 4)
  | .spcnt d => some (encV3 0x33 2 d 0 0, 4)
  | .spushRoltik2 a => some (encV3Old 0x15 0 0 a 0, 4)
  | .spopRoltik2 d => some (encV3Old 0x15 1 d 0 0, 4)
  | .spcntRoltik2 d => some (encV3Old 0x15 2 d 0 0, 4)
  | .mmaPtBf16 d a b sat => some (encV3 0x34 0 (d + 64 * sat.toNat) a b, 4)
  | .mmaPtDpw8 d a b sat => some (encV3 0x34 1 (d + 64 * sat.toNat) a b, 4)
  | .mmaPtF32 d a b sat => some (encV3 0x34 2 (d + 64 * sat.toNat) a b, 4)
  | .mmaMinpF32 d a b sat => some (encV3 0x34 3 (d + 64 * sat.toNat) a b, 4)
  | .mmaMaxpF32 d a b sat => some (encV3 0x34 4 (d + 64 * sat.toNat) a b, 4)
  | .mmaMaxtF32 d a b sat => some (encV3 0x34 5 (d + 64 * sat.toNat) a b, 4)
  | .mmaOrandBits d a b => some (encV3 0x34 6 d a b, 4)
  | .mgather a b => some (encV3 0x35 0 0 a b, 4)
  | .mzero a => some (encV3 0x35 1 0 a 0, 4)
  | .mflags d a => some (encV3 0x35 2 d a 0, 4)
  | .mflagsClr d a => some (encV3 0x35 3 d a 0, 4)
  | .rqalloc d a b => some (encV3 0x36 0 d a b, 4)
  | .rqcommit a => some (encV3 0x36 1 0 a 0, 4)
  | .rqjoin a => some (encV3 0x36 2 0 a 0, 4)
  | .rqinfo d a n => some (encV3 0x36 3 d a n, 4)
  | .ctxnew d a => some (encV3 0x37 0 d a 0, 4)
  | .ctxgrantCores d a b => some (encV3 0x37 1 d a b, 4)
  | .ctxgrantMem d a b => some (encV3 0x37 1 d a b, 4)
  | .ctxgrantQmem d a b => some (encV3 0x37 1 d a b, 4)
  | .ctxgrantBind d a b => some (encV3 0x37 1 d a b, 4)
  | .ctxgrantEnergyIpeak d a b => some (encV3 0x37 1 d a b, 4)
  | .ctxgrantBandwidth d a b => some (encV3 0x37 1 d a b, 4)
  | .ctxgrantRoot d a b => some (encV3 0x37 1 d a b, 4)
  | .ctxgrantResume d a b => some (encV3 0x37 1 d a b, 4)
  | .ctxtakeCores h a b => some (encV3 0x37 2 h a b, 4)
  | .ctxtakeMem h a b => some (encV3 0x37 2 h a b, 4)
  | .ctxtakeQmem h a b => some (encV3 0x37 2 h a b, 4)
  | .ctxtakeBind h a b => some (encV3 0x37 2 h a b, 4)
  | .ctxtakeEnergyIpeak h a b => some (encV3 0x37 2 h a b, 4)
  | .ctxtakeBandwidth h a b => some (encV3 0x37 2 h a b, 4)
  | .ctxstat d a n => some (encV3 0x37 3 d a n, 4)
  | .ctxfree h a => some (encV3 0x37 4 h a 0, 4)
  | .tret => some (encV3 0x38 0 0 0 0, 4)
  | .predone a => some (encV3 0x38 1 0 a 0, 4)
  | .csrr d c => some (encV3 0x38 2 d c 0, 4)
  | .csrrDx d => some (encV3 0x38 2 d 4 0, 4)
  | .csrw c a => some (encV3 0x38 3 c a 0, 4)
  | .csrwDx a => some (encV3 0x38 3 4 a 0, 4)
  | .pmcr d n => some (encV3 0x38 4 d n 0, 4)
  | .pwrreqGate d a => some (encV3 0x38 5 d a 0, 4)
  | .pwrreqWake d a => some (encV3 0x38 5 d a 0, 4)
  | .pwrreqPoint d a => some (encV3 0x38 5 d a 0, 4)
  | .pwrreqMode d a => some (encV3 0x38 5 d a 0, 4)
  | .pwrreqHold d a => some (encV3 0x38 5 d a 0, 4)
  | .pwrreqQuery d a => some (encV3 0x38 5 d a 0, 4)
  | .trap i => some (encVIw 0x39 0 i, 4)
  | .xmod x => some (encXmod x, 4)
  | .iaddC16 d b => some (encC16 0 d b, 2)
  | .isubC16 d b => some (encC16 1 d b, 2)
  | .imulC16 d b => some (encC16 2 d b, 2)
  | .andC16 d b => some (encC16 3 d b, 2)
  | .orC16 d b => some (encC16 4 d b, 2)
  | .xorC16 d b => some (encC16 5 d b, 2)
  | .shlC16 d b => some (encC16 6 d b, 2)
  | .shrC16 d b => some (encC16 7 d b, 2)
  | .sarC16 d b => some (encC16 8 d b, 2)
  | .movC16 d b => some (encC16 9 d b, 2)
  | .iminC16 d b => some (encC16 10 d b, 2)
  | .imaxC16 d b => some (encC16 11 d b, 2)
  | .faddF32C16 d b => some (encC16 12 d b, 2)
  | .fsubF32C16 d b => some (encC16 13 d b, 2)
  | .fmulF32C16 d b => some (encC16 14 d b, 2)
  | .fmaxF32C16 d b => some (encC16 15 d b, 2)
  | .notC16Roltik1 d b => some (encC16 15 d b, 2)
  | .loadResultReturn _ _ | .storeQueueDrain _ | .remoteAccessArrival _ _ | .remoteAccessRefused _ _
  | .remoteAcknowledge _ _ | .mappingLeaseExpiry _ | .l1LeaseWriteback _ _ | .pagereqRewalk _ _
  | .pagereqSettleExpiry _ _ | .lockBitRetry _ | .bankDrowsyEntry _ _ | .bankWake _ _ | .spineEntryArrival _
  | .spineCreditReturn _ | .spinePairFolioRestore _ _ | .gateGrant _ | .domainWakeComplete _
  | .cbSlotClaim _ _ _ | .copyOperationStart _ _ _ | .copyOperationComplete _ _ _ | .multicastDelivery _ _ _ _
  | .multicastWaitExpiry _ _ _ _ | .followOnPlacement _ _ _ _ | .mmaStart _ _ | .mmaAccumulationComplete _
  | .mzeroExecute _ _ | .mflagsExecute _ _ | .mgatherExecute _ | .quantumStart _ | .gathererTimerExpiry _ _ _
  | .gathererDispatch | .groupPlacement _ | .launchStructureReread _ _ | .continuationEnqueue _
  | .groupTeardown _ | .reservationZeroingDone _ _ | .launchCompletion _ | .completionInterrupt _
  | .growGrant _ | .growDeadlockBreaker _ | .controlIntervalBoundary _ _ | .energyBudgetExhausted _
  | .droopTrip _ | .droopHoldExpiry _ | .voltageSlewComplete _ | .frequencySwitch _ | .governorSample _ _
  | .thermalClampStep _ _ | .clusterClockGate _ | .startEventAdmission | .bandwidthInterval _ _ _
  | .hangWatchdogExpiry _ | .sliceExpiry _ | .groupStop _ | .preemptTimeout _ | .predoneTimeout _
  | .groupRestore _ | .faultRingWrite _ | .revocationComplete _ _ | .lockRetry _ | .waitgePoll _ | .feEnable _
  | .feDisable _ | .feProducerCountWrite _ _ | .feSubmissionEntry _ | .feVerdictWrite _ _
  | .feSettingsWrite _ _ _ | .powerOnBringup | .attestationRequest _ | .ageingMonitorUpdate _ _ _
  | .selfTestStart _ _ | .selfTestComplete _ _ _ | .illegalInstr _ | .fetchFault _ | .writeBackAcknowledge _
  | .hostStoreAcknowledge _ => none

/-- The bytes of an instruction (R255: each parcel little-endian, the first at the lowest address). -/
def encode (i : Instr) : List Byte :=
  match encodeWord i with
  | some (x, n) => leBytes n x
  | none => []

/-- The generation under which an instruction has its encoding: the rows of R279 and R280 have theirs under the legacy
decoders only. -/
def Instr.gen : Instr → Nat
  | .spushRoltik2 _ | .spopRoltik2 _ | .spcntRoltik2 _ => 2
  | .notC16Roltik1 _ _ => 1
  | _ => 3

/-- The row that the decoder answers: of rows that share an encoding, the first. -/
def Instr.row : Instr → Instr
  | .ctxgrantMem d a b | .ctxgrantQmem d a b | .ctxgrantBind d a b | .ctxgrantEnergyIpeak d a b
  | .ctxgrantBandwidth d a b | .ctxgrantRoot d a b | .ctxgrantResume d a b => .ctxgrantCores d a b
  | .ctxtakeMem h a b | .ctxtakeQmem h a b | .ctxtakeBind h a b | .ctxtakeEnergyIpeak h a b
  | .ctxtakeBandwidth h a b => .ctxtakeCores h a b
  | .pwrreqWake d a | .pwrreqPoint d a | .pwrreqMode d a | .pwrreqHold d a | .pwrreqQuery d a => .pwrreqGate d a
  | i => i

/-- The generation under which a word given by the opcode table's numbering is read: Roltik-3 where it decodes there, else
the youngest generation under which it does (log 12). -/
def tableGen (bs : List Byte) : Nat :=
  if (decode 3 bs).isSome then 3 else if (decode 2 bs).isSome then 2 else if (decode 1 bs).isSome then 1 else 3

/-- The bytes of an instruction given by the opcode table's numbering of its bits: the word's bytes, little-endian parcels
from the lowest address, then zeros up to the longest instruction (an XMOD pair, 8 bytes). -/
def tableBytes (nbits w : Nat) : List Byte := leBytes 8 (w % 2 ^ nbits)

/-- The instruction that the decoder reads from an instruction whose bits are `w`, numbered as spec/opcode_table.json
numbers them. -/
def decodeTableWord (nbits w : Nat) : Option Instr :=
  (decode (tableGen (tableBytes nbits w)) (tableBytes nbits w)).map (·.1)

end Sys2Proof
end

