-- ==== Sys2Proof/Machine/Scalar.lean ====
section
/-!
DEFINITION. The scalar instructions (R292 to R294): once per issue, whatever lanes are active.
-/

namespace Sys2Proof.Machine

/-- sd, sa, sb. -/
def opsS3 (d a b : Nat) : List Opnd :=
  [{ field := 0, kind := .s, reg := d, dst := true }, { field := 1, kind := .s, reg := a },
   { field := 2, kind := .s, reg := b }]
/-- sd, sa. -/
def opsS2 (d a : Nat) : List Opnd :=
  [{ field := 0, kind := .s, reg := d, dst := true }, { field := 1, kind := .s, reg := a }]
/-- sd alone. -/
def opsS1 (d : Nat) : List Opnd := [{ field := 0, kind := .s, reg := d, dst := true }]

/-- Writes sd and moves on. -/
def State.putS (s : State) (d : Nat) (x : DWord) : Out := .next ((s.writeS d x).finish 4)

/-- sd := f(s[sa], s[sb]). -/
def scalarBin (d a b : Nat) (f : DWord → DWord → DWord) (s : State) : Out :=
  withOperands s 4 (opsS3 d a b) none fun s => s.putS d (f (s.sreg a) (s.sreg b))
/-- sd := f(s[sa]). -/
def scalarUn (d a : Nat) (f : DWord → DWord) (s : State) : Out :=
  withOperands s 4 (opsS2 d a) none fun s => s.putS d (f (s.sreg a))

/-- 1 or 0. -/
def oneIf (b : Bool) : DWord := if b then 1 else 0
/-- The shift count: the low 8 bits of the operand (R292). -/
def scalarCount (y : DWord) : Nat := y.toNat % 256

/-- SADD (R293). -/
def execSadd (d a b : Nat) (s : State) : Out := scalarBin d a b (· + ·) s
/-- SSUB (R293). -/
def execSsub (d a b : Nat) (s : State) : Out := scalarBin d a b (· - ·) s
/-- SMUL (R293). -/
def execSmul (d a b : Nat) (s : State) : Out := scalarBin d a b (· * ·) s
/-- SAND (R293). -/
def execSand (d a b : Nat) (s : State) : Out := scalarBin d a b (· &&& ·) s
/-- SOR (R293). -/
def execSor (d a b : Nat) (s : State) : Out := scalarBin d a b (· ||| ·) s
/-- SXOR (R293). -/
def execSxor (d a b : Nat) (s : State) : Out := scalarBin d a b (· ^^^ ·) s
/-- SSHL (R293). -/
def execSshl (d a b : Nat) (s : State) : Out := scalarBin d a b (fun x y => x <<< scalarCount y) s
/-- SSHR (R293). -/
def execSshr (d a b : Nat) (s : State) : Out := scalarBin d a b (fun x y => x >>> scalarCount y) s
/-- SMOV (R293). -/
def execSmov (d a : Nat) (s : State) : Out := scalarUn d a id s
/-- SCMP.EQ (R293). -/
def execScmpEq (d a b : Nat) (s : State) : Out := scalarBin d a b (fun x y => oneIf (x == y)) s
/-- SCMP.LT.i64 (R293). -/
def execScmpLtI64 (d a b : Nat) (s : State) : Out := scalarBin d a b (fun x y => oneIf (x.slt y)) s
/-- SCMP.LT.n64 (R293). -/
def execScmpLtN64 (d a b : Nat) (s : State) : Out := scalarBin d a b (fun x y => oneIf (x.ult y)) s

/-- SADD with an immediate (R294). -/
def execSaddImm (d a i : Nat) (s : State) : Out := scalarUn d a (fun x => x + BitVec.ofInt 64 (sextNat 15 i)) s
/-- SAND with an immediate (R294). -/
def execSandImm (d a i : Nat) (s : State) : Out := scalarUn d a (fun x => x &&& BitVec.ofInt 64 (sextNat 15 i)) s
/-- SSHL with an immediate (R294). -/
def execSshlImm (d a i : Nat) (s : State) : Out := scalarUn d a (fun x => x <<< i) s
/-- SMOVI (R294). -/
def execSmovi (d i : Nat) (s : State) : Out :=
  withOperands s 4 (opsS1 d) none fun s => s.putS d (BitVec.ofInt 64 (sextNat 20 i))
/-- SLIH (R294): it reads its own destination, and so takes a deferred fault that stands there (R28). -/
def execSlih (d i : Nat) (s : State) : Out :=
  withOperands s 4 [{ field := 0, kind := .s, reg := d, src := some 3, dst := true }] none fun s => s.putS d ((s.sreg d <<< 20) ||| BitVec.ofNat 64 (i % 2 ^ 20))

end Sys2Proof.Machine
end

