-- ==== Sys2Proof/Machine/Control.lean ====
section
/-!
DEFINITION. Branches, calls and the Ductus (R299 to R304), and membership sets and barriers (R305 to R308).
-/

namespace Sys2Proof.Machine

/-! ### Branches (R263, R299 to R301) -/

/-- The target of a B-format instruction: PC + 2 × sext(woff, 21). -/
def Wave.target (w : Wave) (woff : Nat) : Word := BitVec.ofInt 32 ((w.ipc : Int) + 2 * sextNat 21 woff)

/-- The lanes of `m` that issue go to `t`, the other issuing lanes continue. -/
def State.transfer (s : State) (m : Word) (t : Nat → Word) : Out :=
  let w := s.w
  .next (s.finishAt 4 (fun l => if bit m l then t l else w.nextPc 4) (w.issuing &&& m != 0) true false)

/-- BR (R299). -/
def execBr (c w : Nat) (s : State) : Out :=
  withOperands s 4 [{ field := 0, kind := .m, reg := c }] none fun s => s.transfer (s.mreg c) fun _ => s.w.target w

/-- The register that receives CALL's link (R263). -/
def Wave.linkReg (w : Wave) : Nat := 8 * w.granules - 1

/-- CALL (R299): the moved lanes receive their link. -/
def execCall (c w : Nat) (s : State) : Out :=
  withOperands s 4 [{ field := 0, kind := .m, reg := c }, { field := 7, kind := .v, reg := s.w.linkReg, dst := true }] none
    fun s =>
      let x := s.w
      let m := s.mreg c
      (s.setW (x.writeV (x.issuing &&& m) x.linkReg (lanesOf fun _ => x.nextPc 4))).transfer m fun _ => x.target w

/-- BRS moves every issuing lane together (R300). -/
def scalarBranch (c w : Nat) (taken : DWord → Bool) (s : State) : Out :=
  withOperands s 4 [{ field := 0, kind := .s, reg := c }] none fun s =>
    s.transfer (if taken (s.sreg c) then 0xFFFFFFFF else 0) fun _ => s.w.target w
/-- BRS.Z (R300). -/
def execBrsZ (c w : Nat) (s : State) : Out := scalarBranch c w (· == 0) s
/-- BRS.NZ (R300). -/
def execBrsNz (c w : Nat) (s : State) : Out := scalarBranch c w (· != 0) s

/-- JMP and RET (R301): an odd target in an active lane is refused. -/
def jump (a : Nat) (s : State) : Out :=
  withOperands s 4 [{ field := 1, kind := .v, reg := a, src := some 0 }] none fun s =>
    let x := s.vaReg a
    match (lanesIn s.w.active).find? fun l => (lane x l).toNat % 2 == 1 with
    | some l => .next (s.trap (illegalOperand 0x10 1 a l))
    | none => s.transfer s.w.active (lane x)
/-- JMP (R301). -/
def execJmp (a : Nat) (s : State) : Out := jump a s
/-- RET has exactly the effect of JMP (R301). -/
def execRet (a : Nat) (s : State) : Out := jump a s

/-! ### The other instructions of major 0x14 (R302 to R304) -/

/-- A check that reads no operand (R275). -/
def refusal (code : Nat) : Trap := illegalOperand code 7 0

/-- Refused in handler mode (R308). -/
def handlerCheck (w : Wave) : Option Trap := if w.handler then some (refusal 0x13) else none
/-- Refused by the wave's membership of a set, or in handler mode (R305, R308): the lower code first. -/
def memberCheck (s : State) (n : Nat) (member : Bool) : Option Trap :=
  if (s.g.set n).has s.w.wid != member then some (illegalOperand 0x11 0 n) else handlerCheck s.w
/-- Every eligible lane is at the issue PC (R306). -/
def Wave.together (w : Wave) : Bool := (lanesIn w.eligible).all fun l => (lane w.duct l).toNat == w.ipc

/-- EXIT (R302). -/
def execExit (s : State) : Out :=
  withOperands s 4 [] (handlerCheck s.w) fun s =>
    let w := s.w
    .next (s.finishAt 4 (fun l => if bit w.active l then 0xFFFFFFFF else w.nextPc 4) false false false)

/-- YIELD (R170): a quantum begins at the next issue if a lane is waiting. -/
def execYield (s : State) : Out :=
  withOperands s 4 [] none fun s =>
    let s := s.finishAt 4 (fun _ => s.w.nextPc 4) false false true
    .next (if s.w.waitingLanes = 0 then s else s.setW { s.w with quantumDue := true })

/-- The timer is reset when no lane waits, or when a lane that waited issues (R169). -/
def Wave.resetTimer (w : Wave) (before : Word) : Wave :=
  if w.waitingLanes == 0 || before &&& w.here != 0 then { w with timer := 0, backBranch := false } else w

/-- SLEEP (R175, R303). -/
def execSleep (s : State) : Out :=
  withOperands s 4 [] (handlerCheck s.w) fun s =>
    let before := s.w.waitingLanes
    let m := s.w.active
    let s := s.finishAt 4 (fun _ => s.w.nextPc 4) false false true
    .next (s.setW ({ s.w with sleeping := s.w.sleeping ||| m }.resetTimer before))

/-- Every sleeping lane of the members of set `n` becomes eligible; a reached lane is a progress event (R175, R223). -/
def State.wakeSet (s : State) (n : Nat) : State :=
  let g := s.w.group
  let ks := (s.wavesOf g).filter fun k => (s.g.set n).has (s.wave k).wid && (s.wave k).sleeping != 0
  if ks.isEmpty then s
  else (ks.foldl (fun s k => s.setWave k { s.wave k with sleeping := 0 }) s).progress s.g.ctx
/-- WAKE (R175, R303). -/
def execWake (n : Nat) (s : State) : Out := withOperands s 4 [] none fun s => .next ((s.finish 4).wakeSet n)

/-- ELECT (R304): the lowest active lane becomes the Nib lane and the wave the set's tile issuer. -/
def execElect (n m : Nat) (s : State) : Out :=
  withOperands s 4 [{ field := 1, kind := .mw, reg := m }] (memberCheck s n true) fun s =>
    match lowestLane s.w.active with
    | none => .next ((s.setW { s.w with m := s.w.m.set m 0 }).finish 4)
    | some l =>
      let w := s.w
      let s := s.setW { w with nib := l, m := w.m.set m (BitVec.twoPow 32 l) }
      .next ((s.setG (s.g.putSet n { s.g.set n with issuer := some w.wid })).finish 4)

/-- NOP (R303). -/
def execNop (s : State) : Out := withOperands s 4 [] none fun s => .next (s.finish 4)
/-- NOP.H1 (R276). -/
def execNopH1 (_ _ _ : Nat) (s : State) : Out := withOperands s 4 [] none fun s => .next (s.finish 4)
/-- NOP.H2 (R276). -/
def execNopH2 (_ _ _ : Nat) (s : State) : Out := withOperands s 4 [] none fun s => .next (s.finish 4)

/-! ### Sets and barriers (R305 to R307) -/

/-- Operations begun on set `n`: the slices that its furthest wave has issued (R102). -/
def Group.opsBegun (g : Group) (n : Nat) : Nat :=
  (List.range 16).foldr (fun w k => max (g.copies.getD (16 * n + w) 0) k) 0

/-- JOIN (R171, R305): a wave that joins counts toward the set's next operation (R102). -/
def execJoin (n : Nat) (s : State) : Out :=
  withOperands s 4 [] (memberCheck s n false) fun s =>
    let x := s.g.set n
    let g := s.g.putSet n { x with members := setBit x.members s.w.wid true }
    .next ((s.setG { g with copies := g.copies.set (16 * n + s.w.wid) (g.opsBegun n) }).finish 4)
/-- LEAVE (R171, R305). -/
def execLeave (n : Nat) (s : State) : Out :=
  withOperands s 4 [] (memberCheck s n true) fun s => .next ((s.finish 4).leaveSet s.w.group s.w.wid n)

/-- The liveness entry of the barrier at the issue PC, when the wave parks there: a stop request is pending and the group
holds no lock bit (R244). The entries are those read at the launch check (R414). -/
def State.liveAt (s : State) : Option Nat :=
  let g := s.g
  let held := (s.core g.core).locks.vals.any fun k => k / 16 == s.w.group
  if g.stopReq.isNone || held then none
  else
    let es := ((s.launch g.launch).nodes.getD g.node {}).live
    let at' := s.w.ipc + (if s.w.pre.isSome then 4 else 0)
    (List.range es.length).find? fun i => (es.getD i {}).off == at'

/-- ADMISSION at a barrier, when it is armed (R206); it is then disarmed. -/
def State.admissionTrap (s : State) : State :=
  (s.setG { s.g with admission := false }).trap { cause := 0x0A, info := BitVec.ofNat 64 s.g.node }

/-- The wave has arrived: it issues nothing until the barrier completes, and the lanes that arrived will depart. -/
def Wave.arrive (w : Wave) (p : Phase) : Wave :=
  { w.keep with
    phase := p, barLen := if w.pre.isSome then 8 else 4, quantum := none, quantumDue := false, pre := none
    waiting := false, scanned := false, checked := false, timer := 0, backBranch := false }

/-- BAR and LBAR refuse lanes at another PC and handler mode (R306 to R308). -/
def barrierCheck (w : Wave) : Option Trap := if w.together then handlerCheck w else some (refusal 0x12)

/-- The arrival at the current barrier of set `n` (R172). -/
def State.arriveSet (s : State) (n : Nat) : State :=
  let g := s.w.group
  let x := s.g
  let m := x.set n
  let live := s.liveAt
  let first := !m.begun
  if first ∨ m.counted.getLsbD s.w.wid then
    let wid := s.w.wid
    let s := s.setW (s.w.arrive (.bar n m.k live))
    let counted := if first then m.members else m.counted
    ((s.setGroup g (x.putSet n { m with begun := true, counted := counted, arrived := setBit m.arrived wid true })).checkSet g n).noteStop g
  else (s.setW (s.w.arrive (.bar n (m.k + 1) live))).noteStop g

/-- BAR and LBAR: the checks and an armed admission fault are looked at once, when the instruction issues (R206, R273); then
the arrival releases its object, which may take a while, and takes place. -/
def barrierThen (s : State) (chk : Option Trap) (ranges : State → List (Nat × Nat)) (arrive : State → State) : Out :=
  withOperands s 4 [] (if s.w.checked then none else chk) fun s =>
    if s.g.admission && !s.w.checked then .next s.admissionTrap
    else
      let s := s.setW { s.w with checked := true }
      s.releaseThen (ranges s) fun s => .next (arrive s)

/-- BAR (R172, R306): the arrival releases the set-barrier object. -/
def execBar (n : Nat) (s : State) : Out :=
  barrierThen s (if (s.g.set n).has s.w.wid then barrierCheck s.w else some (illegalOperand 0x11 0 n))
    (fun s => boundRanges s s.g.ctx kindSet n []) fun s => s.arriveSet n

/-- The arrival at the launch's current barrier (R173). -/
def State.arriveLaunch (s : State) : State :=
  let l := s.g.launch
  let x := s.launch l
  let live := s.liveAt
  if x.lbegun = false ∨ x.lcounted.contains s.cur then
    let counted := if x.lbegun then x.lcounted else s.launchWaves l
    let s := s.setW (s.w.arrive (.lbar x.lk live))
    ((s.setLaunch l { x with lbegun := true, lcounted := counted, larrived := x.larrived ++ [s.cur] }).checkLaunchBarrier l).noteStop s.w.group
  else (s.setW (s.w.arrive (.lbar (x.lk + 1) live))).noteStop s.w.group

/-- LBAR (R173, R307): the arrival releases the launch-barrier object. -/
def execLbar (s : State) : Out :=
  barrierThen s (barrierCheck s.w) (fun s => boundRanges s s.g.ctx kindLaunch 0 []) State.arriveLaunch

end Sys2Proof.Machine
end

