-- ==== Sys2Proof/Machine/Sync.lean ====
section
/-!
DEFINITION. Binding, sync objects and fences (R126, R352 to R361).
-/

namespace Sys2Proof.Machine

/-! ### The binding table (R129, R130, R353) -/

/-- An object of a kind is well formed (R129). -/
def objOk (kind obj : Nat) : Bool :=
  match kind with
  | 0 | 1 => decide (obj % 8 = 0) && decide (obj < Config.stackBase)
  | 2 => decide (obj < 16)
  | 3 => decide (obj = 0)
  | 4 => decide (obj < 256)
  | 5 => decide (obj < 64)
  | _ => false

/-- An entry breaks no rule of R130. -/
def entryOk (lo hi : DWord) : Bool :=
  let base := bits lo.toNat 39 0 * 256
  let len := bits lo.toNat 55 40 * 256
  decide (bits lo.toNat 62 60 < 6) && decide (len ≠ 0) && decide (bits lo.toNat 59 56 = 0) && decide (hi.toNat < 2 ^ 48) &&
    decide (base + len ≤ Config.stackBase) && objOk (bits lo.toNat 62 60) hi.toNat

/-- BIND (R353). -/
def execBind (a b : Nat) (s : State) : Out :=
  let x := s.ctx s.g.ctx
  let i := (s.sreg a).toNat
  let chk :=
    if x.bindCount ≤ i then some (illegalOperand 0x34 1 a)
    else if entryOk (s.sreg b) (s.sreg (b + 1)) then none
    else some (illegalOperand 0x34 2 b)
  withOperands s 4 [{ field := 1, kind := .s, reg := a }, { field := 2, kind := .s2, reg := b }] chk fun s =>
    let c := s.g.ctx
    .next ((s.setCtx c { s.ctx c with binds := (s.ctx c).binds.set i (s.sreg b, s.sreg (b + 1)) }).finish 4)

/-- UNBIND clears V (R353). -/
def execUnbind (a : Nat) (s : State) : Out :=
  let i := (s.sreg a).toNat
  let chk := if (s.ctx s.g.ctx).bindCount ≤ i then some (illegalOperand 0x34 1 a) else none
  withOperands s 4 [{ field := 1, kind := .s, reg := a }] chk fun s =>
    let c := s.g.ctx
    let e := (s.ctx c).binds.getD i (0, 0)
    .next ((s.setCtx c { s.ctx c with binds := (s.ctx c).binds.set i (setBit e.1 63 false, e.2) }).finish 4)

/-! ### ACQ and REL (R354) -/

/-- The implicit regions of an object, for the issuing wave's launch. -/
def State.implicit (s : State) (kind obj : Nat) : List (Nat × Nat) :=
  if kind = kindQueue then s.queueRegion s.g.launch obj else []

/-- The checks of ACQ and REL (R340 code 0x36). -/
def objectCheck (s : State) (a b : Nat) : Option Trap :=
  if 5 < (s.sreg a).toNat then some (illegalOperand 0x36 1 a)
  else if objOk (s.sreg a).toNat (s.sreg b).toNat then none
  else some (illegalOperand 0x36 2 b)
/-- sa, sb. -/
def opsAB (a b : Nat) : List Opnd := [{ field := 1, kind := .s, reg := a }, { field := 2, kind := .s, reg := b }]

/-- ACQ (R354): it waits for the wave's earlier loads, and its earlier stores leave the queue (R123, R132). -/
def execAcq (a b : Nat) (s : State) : Out :=
  withOperands s 4 (opsAB a b) (objectCheck s a b) fun s =>
    let k := (s.sreg a).toNat
    let o := (s.sreg b).toNat
    s.acquireThen k o (s.implicit k o) fun s => .next (s.finish 4)
/-- REL (R354). -/
def execRel (a b : Nat) (s : State) : Out :=
  withOperands s 4 (opsAB a b) (objectCheck s a b) fun s =>
    let k := (s.sreg a).toNat
    let o := (s.sreg b).toNat
    s.releaseThen (boundRanges s s.g.ctx k o (s.implicit k o)) fun s => .next (s.finish 4)

/-! ### Lock words and counters (R355 to R358) -/

/-- The address must be in the global window and 8-byte aligned (R340 code 0x35). -/
def wordCheck (s : State) (a : Nat) : Option Trap :=
  let x := (s.sreg a).toNat
  if x < Config.stackBase ∧ x % 8 = 0 then none else some (illegalOperand 0x35 1 a)

/-- The word's physical address, or the fault of the access. -/
def State.wordThen (s : State) (a : Nat) (acc : Acc) (k : State → Nat → Out) : Out :=
  match translate s s.g.core s.g.ctx (s.sreg a).toNat acc with
  | (s', .error f) => .next (s'.memFault f acc 0)
  | (s', .ok (pa, _)) => k s' pa

/-- The word of a lock or counter is uncorrectable at its home slice (R241). -/
def State.badWord (s : State) (pa : Nat) (addr : DWord) : Option Trap :=
  (s.badPhys s.g.core pa 8 true).map fun u => { cause := 0x0B, addr := addr, info := BitVec.ofNat 64 (u.1 * 2 ^ 24 + u.2 * 2 ^ 16) }

/-- The permission that LOCK, UNLOCK and SIGNAL need (R358). -/
def lockAcc : Acc := { write := true, atomic := true }

/-- The tag of a wave (R355). -/
def State.lockTag (s : State) : Nat := s.g.ctx % 2 ^ 16 * 2 ^ 48 + s.g.gid % 2 ^ 32 * 2 ^ 8 + s.w.wid * 2 ^ 4 + 1

/-- The wave tries again after `d` cycles. -/
def State.retryIn (s : State) (d : Nat) (e : Event) : State := (s.setW { s.w with retryAt := s.now + d }).block.postOnce d e

/-- LOCK (R355). -/
def execLock (a : Nat) (s : State) : Out :=
  withOperands s 4 [{ field := 1, kind := .s, reg := a }] (wordCheck s a) fun s =>
    s.wordThen a lockAcc fun s pa =>
      let q := s.quiet
      let s := q.1
      if !q.2 then .next s.block
      else if let some t := s.badWord pa (s.sreg a) then .next (s.trap t)
      else
        let tag := s.lockTag
        let r := s.atHome s.g.core s.g.ctx [(pa, 8)] fun old => if old = 0 then tag else old
        if r.2 = 0 then
          .next (((r.1.acquireOn s.g.core s.g.ctx kindLock (s.sreg a).toNat []).progress s.g.ctx).finish 4)
        else if r.2 = tag then .next (r.1.trap (illegalOperand 0x33 1 a))
        else .next (r.1.retryIn 64 (.lockRetry s.cur))

/-- UNLOCK (R356). -/
def execUnlock (a : Nat) (s : State) : Out :=
  withOperands s 4 [{ field := 1, kind := .s, reg := a }] (wordCheck s a) fun s =>
    s.wordThen a lockAcc fun s _ =>
      s.releaseThen (boundRanges s s.g.ctx kindLock (s.sreg a).toNat []) fun s =>
        s.wordThen a lockAcc fun s pa =>
          let tag := s.lockTag
          if let some t := s.badWord pa (s.sreg a) then .next (s.trap t)
          else
          let r := s.atHome s.g.core s.g.ctx [(pa, 8)] fun old => if old = tag then 0 else old
          if r.2 = tag then .next (r.1.finish 4) else .next (r.1.trap (illegalOperand 0x32 1 a))

/-- SIGNAL (R357). -/
def execSignal (a b : Nat) (s : State) : Out :=
  withOperands s 4 (opsAB a b) (wordCheck s a) fun s =>
    s.wordThen a lockAcc fun s _ =>
      s.releaseThen (boundRanges s s.g.ctx kindCounter (s.sreg a).toNat []) fun s =>
        s.wordThen a lockAcc fun s pa =>
          let n := (s.sreg b).toNat
          if let some t := s.badWord pa (s.sreg a) then .next (s.trap t)
          else .next ((s.atHome s.g.core s.g.ctx [(pa, 8)] fun old => (old + n) % 2 ^ 64).1.finish 4)

/-- WAITGE (R358): it reads the counter at its home slice every 64 cycles; what the core has stored there goes home first
(R136; log 84). -/
def execWaitge (a b : Nat) (s : State) : Out :=
  withOperands s 4 (opsAB a b) (wordCheck s a) fun s =>
    s.wordThen a { atomic := true } fun s pa =>
      let q := s.quiet
      let s := q.1
      if !q.2 then .next s.block
      else if let some t := s.badWord pa (s.sreg a) then .next (s.trap t)
      else
        let s := s.l1Expel s.g.core pa
        let r := s.homeRead s.g.ctx pa 8
        if sextNat 64 (s.sreg b).toNat ≤ sextNat 64 (leNat r.2) then
          .next (((r.1.acquireOn s.g.core s.g.ctx kindCounter (s.sreg a).toNat []).progress s.g.ctx).finish 4)
        else .next (r.1.retryIn 64 (.waitgePoll s.cur))

/-- The wave may try again. -/
def State.tryAgain (s : State) (k : Nat) : State := s.setWave k { s.wave k with retryAt := 0, waiting := false }
/-- LOCK_RETRY (R355). -/
def execLockRetry (k : Nat) (s : State) : Out := .next (s.tryAgain k)
/-- WAITGE_POLL (R358). -/
def execWaitgePoll (k : Nat) (s : State) : Out := .next (s.tryAgain k)

/-! ### Fences (R126, R359 to R361) -/

/-- FENCE.W: the earlier loads have returned. -/
def execFenceW (s : State) : Out :=
  withOperands s 4 [] none fun s => if s.w.loading then .next s.block else .next (s.finish 4)
/-- FENCE.G: the store queue has drained as well. -/
def execFenceG (s : State) : Out :=
  withOperands s 4 [] none fun s =>
    let q := s.quiet
    if q.2 then .next (q.1.finish 4) else .next q.1.block
/-- FENCE.C: every dirty byte of the L1 is at home. -/
def execFenceC (s : State) : Out :=
  withOperands s 4 [] none fun s =>
    let r := s.publish fun _ => true
    if r.2 then .next (r.1.finish 4) else .next r.1
/-- FENCE.D: and every valid byte is invalidated. -/
def execFenceD (s : State) : Out :=
  withOperands s 4 [] none fun s =>
    let r := s.publish fun _ => true
    if r.2 then .next ((r.1.l1Drop s.g.core fun _ => true).finish 4) else .next r.1
/-- FENCE.S: and every host-window store is acknowledged. -/
def execFenceS (s : State) : Out :=
  withOperands s 4 [] none fun s =>
    let r := s.publish fun _ => true
    if !r.2 then .next r.1
    else if r.1.w.hostOut ≠ 0 then .next (r.1.setW { r.1.w with scanned := true }).block
    else .next ((r.1.l1Drop s.g.core fun _ => true).finish 4)

/-- WRITE_BACK_ACKNOWLEDGE: the home slices have acknowledged the write-backs of a fence or release (R126, R132). -/
def execWriteBackAcknowledge (k : Nat) (s : State) : Out := .next (s.setWave k { s.wave k with wbOut := 0 })
/-- HOST_STORE_ACKNOWLEDGE: the host has acknowledged a store (R126). -/
def execHostStoreAcknowledge (k : Nat) (s : State) : Out :=
  let w := s.wave k
  .next (s.setWave k { w with hostOut := w.hostOut - 1 })

/-- IFENCE (R360): the work of FENCE.C, then the core's instruction cache is invalidated. -/
def execIfence (s : State) : Out :=
  withOperands s 4 [] none fun s =>
    let r := s.publish fun _ => true
    if !r.2 then .next r.1
    else
      let c := r.1.core s.g.core
      .next ((r.1.setCore s.g.core { c with icache := ⟨[]⟩ }).finish 4)

/-- The wave has a slice in the queue `q` of engine `e` of its cluster. -/
def State.inEngine (s : State) (i : Nat) : Bool :=
  ((s.cluster (s.g.core / 4)).engines.getD i []).any fun o =>
    o.group == s.w.group && o.slices.any fun x => x.wid == s.w.wid
/-- A matrix command for which QFENCE waits: the wave's own; in handler mode, issued in handler mode (R243, R361). -/
def State.fenced (s : State) (m : MatCmd) : Bool := m.wave == some s.cur && (!s.w.handler || m.inHandler)
/-- The queues named by a mask hold an operation of the wave (R361). -/
def State.queued (s : State) (m : DWord) : Bool :=
  ((List.range 8).any fun i => m.getLsbD i && s.inEngine i) ||
    (m.getLsbD 8 && ((s.c.matrixQ ++ s.g.frozen).any s.fenced)) ||
    (m.getLsbD 9 && s.c.gatherQ.any fun x => x.wave == s.cur)
/-- QFENCE (R361). -/
def execQfence (a : Nat) (s : State) : Out :=
  withOperands s 4 [{ field := 1, kind := .s, reg := a }]
    (if (s.sreg a).toNat < 2 ^ 10 then none else some (illegalOperand 0x3A 1 a)) fun s =>
    if s.queued (s.sreg a) then .next s.block else .next (s.finish 4)

end Sys2Proof.Machine
end

