-- ==== Sys2Proof/Machine/Handles.lean ====
section
/-!
DEFINITION. Copy handles (R105 to R108, R371), the rings that the device writes (R32, R33, R239, R447) and page requests
(R31, R32, R362).
-/

namespace Sys2Proof.Machine

/-! ### Waking the units that wait -/

/-- The oldest command of a group in a core's matrix queue (R375). -/
def Core.oldest (k : Core) (g : Nat) : Option MatCmd := k.matrixQ.find? fun m => m.group == g

/-- The move that performs a matrix command. -/
def MatCmd.event (m : MatCmd) (core : Nat) : Event :=
  match m.op with
  | .mma _ _ _ _ => .mmaStart core m.group
  | .mzero => .mzeroExecute core m.group
  | .mflags _ _ _ => .mflagsExecute core m.group

/-- The groups with a matrix command on a core, in the rotating order (R375): those after the last served one first. -/
def Core.matrixGroups (k : Core) : List Nat :=
  let gs := (k.matrixQ.map (·.group)).eraseDups
  (gs.filter fun g => decide (k.lastGroup < g)) ++ gs.filter fun g => decide (g ≤ k.lastGroup)

/-- A core's array and gather unit look at their queues again. -/
def State.pokeArray (s : State) (core : Nat) : State :=
  let k := s.core core
  let s := k.matrixGroups.foldl
    (fun s g => match k.oldest g with
      | some m => s.postOnce 1 (m.event core)
      | none => s) s
  if k.gatherQ.isEmpty then s else s.postOnce 1 (.mgatherExecute core)

/-- The move that a queue's head waits for. -/
def EngineOp.event (o : EngineOp) (cl e q : Nat) : List Event :=
  if o.started then (o.targets.filter fun t => t.state == 0).map fun t =>
    if t.follow then .followOnPlacement cl e q t.k else .multicastDelivery cl e q t.k
  else if o.cb.isSome ∧ o.slot.isNone then [.cbSlotClaim cl e q]
  else [.copyOperationStart cl e q]

/-- A cluster's engines look at their queue heads again. -/
def State.pokeEngines (s : State) (cl : Nat) : State :=
  (s.cluster cl).engines.rows.foldl
    (fun s p => match p.2 with
      | o :: _ => (o.event cl (p.1 / 4) (p.1 % 4)).foldl (fun s e => s.postOnce 1 e) s
      | [] => s) s

/-- Every unit of a core looks at its queues again. -/
def State.poke (s : State) (core : Nat) : State := (s.pokeArray core).pokeEngines (core / 4)

/-! ### Handles (R105 to R108) -/

/-- Handle `h` of group `g`. -/
def State.handle (s : State) (g h : Nat) : Handle := (s.group g).handles.getD h {}
/-- Replaces a handle. -/
def State.putHandle (s : State) (g h : Nat) (x : Handle) : State :=
  let y := s.group g
  s.setGroup g { y with handles := y.handles.set h x }
/-- Physical handles of a core in use (R105). -/
def State.handlesUsed (s : State) (core : Nat) : Nat :=
  sumNat ((s.resident core).map fun g => countIf (·.bound) (s.group g).handles.vals)
/-- The handle is free and a physical handle is there for it (R105, R108). -/
def State.canBind (s : State) (g h : Nat) : Bool :=
  !(s.handle g h).bound && decide (s.handlesUsed (s.group g).core < Config.physHandles)
/-- The handle leaves the free state; its fields are cleared (R106). -/
def State.bindHandle (s : State) (g h state : Nat) (work : HandleWork) : State :=
  s.putHandle g h { bound := true, st := { state := state }, work := work }
/-- The handle becomes full (R107), a progress event (R223). -/
def State.fullHandle (s : State) (g h : Nat) (st : HStatus) : State :=
  let x := s.handle g h
  ((s.putHandle g h { x with st := { st with state := 2 }, work := .idle }).progress (s.group g).ctx).poke (s.group g).core
/-- The handle returns to free; its final fields stay as the name's record (R105, R106). -/
def State.freeHandle (s : State) (g h : Nat) : State :=
  let x := s.handle g h
  (s.putHandle g h { x with bound := false, st := { x.st with state := 0 }, work := .idle, poison := none }).poke
    (s.group g).core

/-- The status word (R106). -/
def HStatus.word (x : HStatus) : DWord :=
  BitVec.ofNat 64 (x.len % 2 ^ 32 + 2 ^ 32 * x.tflags + 2 ^ 36 * x.conv + 2 ^ 40 * x.reason + 2 ^ 52 * x.skip +
    2 ^ 56 * x.code + 2 ^ 62 * x.state)

/-- The fault that the first instruction naming one of these handles takes (R109, R370), and the state without it. -/
def State.poisoned (s : State) (hs : List Nat) : Option State :=
  hs.findSome? fun h =>
    (s.handle s.w.group h).poison.map fun p =>
      (s.putHandle s.w.group h { s.handle s.w.group h with poison := none }).takeTrap
        { cause := p.1, addr := p.2.1, info := p.2.2 }

/-- The instruction names handles: a fault that waits there is taken first. -/
def State.handlesThen (s : State) (hs : List Nat) (k : State → Out) : Out :=
  match s.poisoned hs with
  | some s' => .next s'
  | none => k s

/-- A tile instruction is skipped: the Nib role is set and the Nib lane is not active (R174). -/
def State.skips (s : State) : Bool := s.g.ep.nib && !bit s.w.active s.w.nib

/-- The predicate mask of the instruction has an outstanding producer: the active lanes are not known yet (R282, R283). -/
def Wave.predBusy (w : Wave) : Bool := w.pre.any fun x => w.mbusy.getLsbD x.pm

/-- A tile instruction: skipped after its operand checks where R174 says so (R367), once its active lanes are known. -/
def tileThen (s : State) (os : List Opnd) (chk : Option Trap) (k : State → Out) : Out :=
  if (operandTrap s.w 4 os).isNone && !s.w.predBusy && s.skips then .next (s.finish 4) else withOperands s 4 os chk k

/-- HWAIT (R371): the wait for a full handle acquires it. -/
def execHwait (h : Nat) (s : State) : Out :=
  tileThen s [] none fun s => s.handlesThen [h] fun s =>
    if (s.handle s.w.group h).st.state = 2 then s.acquireThen kindHandle h [] fun s => .next (s.finish 4) else .next s.block
/-- HSTAT (R371), which acquires a full handle (R128); under HSTATFREE a free handle reads 0 (R413 bit 3). -/
def execHstat (d h : Nat) (s : State) : Out :=
  withOperands s 4 [{ field := 0, kind := .s, reg := d, dst := true }] none fun s => s.handlesThen [h] fun s =>
    let x := s.handle s.w.group h
    let answer := fun (s : State) => s.putS d (if s.compat 3 && !x.bound then 0 else x.st.word)
    if x.st.state = 2 then s.acquireThen kindHandle h [] answer else answer s
/-- HFREE (R371). -/
def execHfree (h : Nat) (s : State) : Out :=
  tileThen s [] none fun s => s.handlesThen [h] fun s =>
    if (s.handle s.w.group h).st.state = 2 then
      s.acquireThen kindHandle h [] fun s => .next ((s.freeHandle s.w.group h).finish 4)
    else .next s.block

/-! ### Rings (R33, R239) -/

/-- What a write to a ring gives. -/
inductive RingWrite where
  | done (s : State)
  | full
  | failed (f : MemFault)

/-- Writes an entry of 64 bytes to the ring at `base` in a context's window, of `cap` entries, then its producer count.
DESIGN CHOICE (log 82): where the counts cannot be read, so that no entry's address is known, the fault reports theirs. -/
def State.ringWrite (s : State) (c base cap : Nat) (x : List Byte) : RingWrite :=
  match s.globReadRun c base 16 with
  | .error f => .failed f
  | .ok b =>
    let p := leNat (b.take 8)
    let n := leNat (b.drop 8)
    if (p + 2 ^ 64 - n) % 2 ^ 64 ≥ cap then .full
    else
      match s.globWrites c [(base + 0x40 + p % cap * 64, x), (base, leBytes 8 (p + 1))] with
      | .error f => .failed f
      | .ok s' => .done s'

/-- The bytes of a fault-ring entry (R239). -/
def RingEntry.bytes (e : RingEntry) : List Byte :=
  leBytes 8 e.ctx ++ leBytes 8 e.tcause ++ leBytes 8 e.tepc ++ leBytes 8 e.taddr.toNat ++ leBytes 8 e.tinfo.toNat ++
    leBytes 4 e.gid ++ leBytes 4 e.word2c ++ leBytes 8 e.ticket ++ leBytes 8 0

/-- The fault of a ring or structure that cannot be read or written (R447). -/
def State.deviceFault (s : State) (c : Nat) (f : MemFault) (write : Bool) : State :=
  s.lonelyFault c f.cause (BitVec.ofNat 64 f.addr) (memInfo f { write := write } 0) f.owner

/-- A ticket follows its entry to another ring (R239). -/
def State.moveTicket (s : State) (n : Nat) (ring : Option Nat) (part : Nat) : State :=
  match s.tickets.get? n with
  | some t => { s with tickets := s.tickets.set n { t with ring := ring.getD part, frontEnd := ring.isNone } }
  | none => s

/-- FAULT_RING_WRITE: the oldest entry that waits goes into a context's fault ring; a full ring is tried again; a ring that
cannot be written faults, and its entry goes to the next ring up (R239). -/
def execFaultRingWrite (c : Nat) (s : State) : Out :=
  let x := s.ctx c
  match x.ringQ with
  | [] => .next s
  | e :: rest =>
    let more := fun (s : State) => if rest.isEmpty then s else s.postOnce 1 (.faultRingWrite c)
    let s := s.globTouch c x.fltBase 16
    match s.ringWrite c x.fltBase (16 * 2 ^ x.fltSize) e.bytes with
    | .full => .next (s.postOnce Config.usCycles (.faultRingWrite c))
    | .done s' =>
      .next (more ((s'.setCtx c { s'.ctx c with ringQ := rest }).charge e.ctx 0x10 1))
    | .failed f =>
      let s := (s.setCtx c { s.ctx c with ringQ := rest }).deviceFault c f true
      let up := s.ringOf (s.chain c).tail
      .next (more ((s.toRing up (s.partition c) e).moveTicket e.ticket up (s.partition c)))

/-! ### Page requests (R31, R32, R362) -/

/-- The size of the page that an address of a context's window lies in is 32 MiB. -/
def State.bigPage (s : State) (c va : Nat) : Bool :=
  let x := s.ctx c
  let me : Level := { ctx := c, depth := x.depth, addr := va, big := false }
  match (findLeaf s x me (fun a => walk s [] (s.chain c).tail a) va).2 with
  | .ok (_, size, _) => size == 2 ^ 25
  | .error _ => false

/-- The page-request handles that wait on a page of an owner. -/
def State.waitingOn (s : State) (owner page : Nat) : Nat :=
  sumNat (s.groups.vals.map fun g => countIf
    (fun h => match h.work with
      | .fill _ (some e) => e == (owner, page)
      | _ => false) g.handles.vals)

/-- A page of a context's window is not resident, and that context owns the failure (R22). -/
def State.absentAt (s : State) (o page : Nat) : Bool :=
  match freshWalk s o page {} with
  | .ok _ => false
  | .error f => f.reason == rAbsent && f.owner == some o

/-- The pages of an owner that no longer stay non-resident lose their marks: a later request writes an entry again (R32). -/
def State.refreshMarks (s : State) (o : Nat) : State :=
  let x := s.ctx o
  if x.requested.isEmpty then s
  else s.setCtx o { x with requested := x.requested.filter fun p => s.absentAt o p.1 }

/-- The page for which a handle waited has changed. -/
def State.settled (s : State) (e : Option (Nat × Nat)) : State :=
  match e with
  | some (o, _) => s.refreshMarks o
  | none => s

/-- The page-request entry for a page of an owner (R32, R33): written once while the page stays non-resident. -/
def State.requestPage (s : State) (c owner page : Nat) : State :=
  let x := s.ctx owner
  if !x.prqEn || x.requested.any fun p => p.1 == page then s
  else
    let b := leBytes 8 page ++ leBytes 8 c ++ leBytes 2 (s.bigPage owner page).toNat ++ leBytes 2 0 ++
      leBytes 4 (s.waitingOn owner page) ++ leBytes 40 0
    let s := s.globTouch owner x.prqBase 16
    match s.ringWrite owner x.prqBase (16 * 2 ^ x.prqSize) b with
    | .full => s
    | .done s' => s'.setCtx owner { s'.ctx owner with requested := (page, false) :: x.requested }
    | .failed f =>
      (s.setCtx owner { s.ctx owner with requested := (page, true) :: x.requested }).deviceFault owner f true

/-- One walk of a PAGEREQ.FILL handle (R31). -/
def State.fillWalk (s : State) (g h : Nat) : State :=
  let x := s.handle g h
  let c := (s.group g).ctx
  match x.work with
  | .fill va e =>
    let y := walkChecked s [] c va {}
    let s := s.walked c va y.1
    match y.2 with
    | .ok _ => (s.settled e).fullHandle g h { x.st with code := 0 }
    | .error f =>
      if f.reason ≠ rAbsent then (s.settled e).fullHandle g h { x.st with code := 1, reason := f.reason }
      else
        let o := f.owner.getD c
        let page := f.addr - f.addr % (if s.bigPage o f.addr then 2 ^ 25 else 2 ^ 16)
        ((s.putHandle g h { x with work := .fill va (some (o, page)) }).requestPage c o page).postOnce Config.usCycles
          (.pagereqRewalk g h)
  | _ => s

/-- PAGEREQ_REWALK (R31). -/
def execPagereqRewalk (g h : Nat) (s : State) : Out := .next (s.fillWalk g h)

/-- The wait of an instruction that starts work through handle `h`: the handle is free, the store queue has drained (R108,
R140). -/
def State.startThen (s : State) (h : Nat) (k : State → Out) : Out :=
  s.handlesThen [h] fun s =>
    if !s.canBind s.w.group h then .next s.block
    else
      let s := s.drain s.cur
      if s.w.storeQ.isEmpty then k s else .next s.block

/-- PAGEREQ.FILL (R31, R362). -/
def execPagereqFill (h a : Nat) (s : State) : Out :=
  let va := (s.sreg a).toNat
  withOperands s 4 [{ field := 1, kind := .s, reg := a }]
    (if va < Config.stackBase then none else some (illegalOperand 0x35 1 a)) fun s =>
    s.startThen h fun s =>
      let g := s.w.group
      .next (((s.bindHandle g h 1 (.fill (s.sreg a).toNat none)).finish 4).fillWalk g h)

/-- PAGEREQ.SETTLE (R31, R362). -/
def execPagereqSettle (h : Nat) (s : State) : Out :=
  withOperands s 4 [] none fun s =>
    s.startThen h fun s =>
      let g := s.w.group
      let d := leaseHorizon s s.g.ctx * Config.usCycles
      .next (((s.bindHandle g h 1 (.settle (s.now + d))).finish 4).post d (.pagereqSettleExpiry g h))

/-- PAGEREQ_SETTLE_EXPIRY (R31). -/
def execPagereqSettleExpiry (g h : Nat) (s : State) : Out :=
  let x := s.handle g h
  match x.work with
  | .settle due => if due ≤ s.now then .next (s.fullHandle g h { x.st with code := 0 }) else .next s
  | _ => .next s

end Sys2Proof.Machine
end

