-- ==== Sys2Proof/Machine/Semiring.lean ====
section
/-!
DEFINITION. The arithmetic of the matrix array (R82, R84, R89, R90): exact products, the balanced tree with one rounding a
node, the accumulation, and the flags of R46.
-/

namespace Sys2Proof.Machine

/-- Tile flag OVF (R46). -/
def tileOvf : Nat := 1
/-- Tile flag INVALID (R46). -/
def tileInvalid : Nat := 2
/-- Tile flag CLAMP (R46). -/
def tileClamp : Nat := 4
/-- Tile flag OPEN (R46). -/
def tileOpen : Nat := 8

/-- The value is finite. -/
def Num.isFin : Num → Bool
  | .fin _ _ _ => true
  | _ => false

/-- A value of a matrix computation, with the flags raised on the way. -/
abbrev Flagged := Num × Nat

/-- A step rounded to FP32 from operands x and y, with its clamp or flags (R46, R90). -/
def stepRound (sat : Bool) (x y : Num) (e : Exact) : Flagged :=
  match unpack fp32 (deliver fp32 rne e).1 with
  | .nan _ => (.nan false, if sat || x.isNan || y.isNan then 0 else tileInvalid)
  | .inf n =>
    if x.isFin && y.isFin then
      (if sat then (unpack fp32 (fp32.big n), tileClamp) else (.inf n, tileOvf))
    else (.inf n, 0)
  | .fin n m k => (.fin n m k, 0)

/-- An exact product; a NaN from operands that are none is invalid (R90). -/
def stepExact (sat : Bool) (x y : Num) (e : Exact) : Flagged :=
  let r := e.num
  (r, if r.isNan && !sat && !x.isNan && !y.isNan then tileInvalid else 0)

/-- min of R90: a NaN operand gives a NaN; −0 is below +0. -/
def numMin (x y : Num) : Num :=
  if x.isNan || y.isNan then .nan false else if ltNum x y || (eqNum x y && x.neg?) then x else y
/-- max of R90. -/
def numMax (x y : Num) : Num :=
  if x.isNan || y.isNan then .nan false else if ltNum y x || (eqNum x y && !x.neg?) then x else y

/-- The magnitude 2^(−c) of a DPW8 term in units of 2^(−6), with its sign (R82). -/
def dpw8Term (t : Nat) : Int :=
  let c := t % 8
  if c = 7 then 0 else if t / 8 % 2 = 1 then -(2 ^ (6 - c) : Int) else 2 ^ (6 - c)

/-- The value of a DPW8 byte, the sum of its two terms (R82). -/
def dpw8 (b : Nat) : Num :=
  let z := dpw8Term (b / 16 % 16) + dpw8Term (b % 16)
  .fin (decide (z < 0)) z.natAbs (-6)

/-- Terms K of a semiring (R378). -/
def Semiring.k : Semiring → Nat
  | .ptBf16 => 32
  | .ptDpw8 => 128
  | .orand => 512
  | _ => 8

/-- Bytes of an A operand (R378). -/
def Semiring.aBytes : Semiring → Nat
  | .ptBf16 | .orand => 4096
  | .ptDpw8 => 16384
  | _ => 2048
/-- Bytes of a B operand (R378). -/
def Semiring.bBytes : Semiring → Nat
  | .ptBf16 | .orand => 4096
  | .ptDpw8 => 8192
  | _ => 2048
/-- Row bytes of an A operand, which a latch must have (R382). -/
def Semiring.aRow (sr : Semiring) : Nat := sr.aBytes / 64

/-- Bit `n` of packed bits (R66). -/
def packedBit (x : List Byte) (n : Nat) : Bool := (x.getD (n / 8) 0).getLsbD (n % 8)
/-- The little-endian element of `w` bytes at index `n`. -/
def elementAt (x : List Byte) (w n : Nat) : Nat := leNat ((x.drop (w * n)).take w)

/-- Element n of an A operand as a value (R378). -/
def Semiring.aVal (sr : Semiring) (x : List Byte) (n : Nat) : Num :=
  match sr with
  | .ptBf16 | .ptDpw8 => unpack bf16 (elementAt x 2 n)
  | .orand => .fin false (packedBit x n).toNat 0
  | _ => unpack fp32 (elementAt x 4 n)
/-- Element n of a B operand as a value (R378); a DPW8 byte as its number, whose terms the product takes (R84). -/
def Semiring.bVal (sr : Semiring) (x : List Byte) (n : Nat) : Num :=
  match sr with
  | .ptBf16 => unpack bf16 (elementAt x 2 n)
  | .ptDpw8 => .fin false (elementAt x 1 n) 0
  | .orand => .fin false (packedBit x n).toNat 0
  | _ => unpack fp32 (elementAt x 4 n)

/-- An activation shifted by the code of a DPW8 term, with the term's sign; nothing for a zero term (R82, R84). -/
def dpw8Shift (x : Num) (t : Nat) : Option Num :=
  if t % 8 = 7 then none else some (mulNum x (.fin (decide (t / 8 % 2 = 1)) 1 (-((t % 8 : Nat) : Int)))).num

/-- The shift-and-add of R84 for the byte `b`. DESIGN CHOICE (log 85): a zero term adds nothing, and a byte of two zero terms
multiplies by +0. -/
def dpw8Product (sat : Bool) (x : Num) (b : Nat) : Flagged :=
  match dpw8Shift x (b / 16 % 16), dpw8Shift x (b % 16) with
  | some p, some q => stepExact sat p q (addNum 0 p q)
  | some p, none => (p, 0)
  | none, some q => (q, 0)
  | none, none => stepExact sat x (.fin false 0 0) (mulNum x (.fin false 0 0))

/-- The product of two operand elements (R90). -/
def Semiring.product (sr : Semiring) (sat : Bool) (x y : Num) : Flagged :=
  match sr with
  | .ptBf16 | .ptF32 => stepExact sat x y (mulNum x y)
  | .ptDpw8 => dpw8Product sat x (match y with
    | .fin _ b _ => b
    | _ => 0)
  | .minp | .maxp => stepRound sat x y (addNum 0 x y)
  | .maxt => stepRound sat x y (mulNum x y)
  | .orand => (if x.isZero || y.isZero then .fin false 0 0 else .fin false 1 0, 0)

/-- A tree node of two values (R90). -/
def Semiring.node (sr : Semiring) (sat : Bool) (x y : Flagged) : Flagged :=
  let r : Flagged := match sr with
    | .ptBf16 | .ptDpw8 | .ptF32 => stepRound sat x.1 y.1 (addNum 0 x.1 y.1)
    | .minp => (numMin x.1 y.1, 0)
    | .maxp | .maxt => (numMax x.1 y.1, 0)
    | .orand => (if x.1.isZero && y.1.isZero then .fin false 0 0 else .fin false 1 0, 0)
  (r.1, r.2 ||| x.2 ||| y.2)

/-- A value that FP32 holds, as its pattern. -/
def Num.pattern : Num → Nat
  | .nan _ => fp32.nan
  | .inf n => fp32.inf n
  | .fin n m e => (roundFin fp32 rne n m e).1

/-- The sum T of output element (i, j) (R89, R90). -/
def Semiring.sum (sr : Semiring) (sat : Bool) (a b : List Byte) (i j : Nat) : Flagged :=
  let p := (List.range sr.k).map fun k => sr.product sat (sr.aVal a (i * sr.k + k)) (sr.bVal b (k * 64 + j))
  (treeLevels (sr.node sat) 9 p).headD (.fin false 0 0, 0)

/-- The 4,096 sums, row by row, with the flags of all. -/
def Semiring.sums (sr : Semiring) (sat : Bool) (a b : List Byte) : List Word × Nat :=
  let r := (List.range 4096).map fun n => sr.sum sat a b (n / 64) (n % 64)
  (r.map fun x => BitVec.ofNat 32 (match sr with
    | .orand => if x.1.isZero then 0 else 1
    | _ => x.1.pattern), r.foldr (fun x f => x.2 ||| f) 0)

/-- The accumulation of one element: old element, sum, scale (R90). Answers the new element and its flags. -/
def Semiring.accumulate (sr : Semiring) (sat : Bool) (c t scale : Word) : Word × Nat :=
  let x := unpack fp32 c.toNat
  let y := unpack fp32 t.toNat
  let out := fun (r : Flagged) => (BitVec.ofNat 32 r.1.pattern, r.2)
  match sr with
  | .ptBf16 | .ptF32 => out (stepRound sat x y (addNum 0 x y))
  | .ptDpw8 =>
    let z := unpack fp32 scale.toNat
    let u := stepRound sat z y (mulNum z y)
    let r := stepRound sat x u.1 (addNum 0 x u.1)
    out (r.1, r.2 ||| u.2)
  | .minp => out (numMin x y, 0)
  | .maxp | .maxt => out (numMax x y, 0)
  | .orand => (BitVec.ofNat 32 ((c ||| t).toNat % 2), 0)

end Sys2Proof.Machine
end

