-- ==== Sys2Proof/Machine/Matrix.lean ====
section
/-!
DEFINITION. The matrix array and the gather unit (R45 to R49, R242, R243, R375 to R384).
-/

namespace Sys2Proof.Machine

/-! ### Tiles and their metadata (R45, R46) -/

/-- The physical tile of a tile descriptor in a group's reservation. -/
def Group.tile (g : Group) (d : DWord) : Nat := (g.rc.base + bits d.toNat 23 0) / 16384
/-- The metadata word of a tile. -/
def Core.meta (k : Core) (t : Nat) : Word := k.tiles.getD t 0
/-- The metadata word of a tile is good again: it has been written (R241). -/
def State.cureMeta (s : State) (core t : Nat) : State :=
  if s.uncorr.isEmpty then s else { s with uncorr := s.uncorr.filter (· != (5, core, t)) }
/-- Replaces a metadata word. -/
def State.setMeta (s : State) (core t : Nat) (x : Word) : State :=
  let k := s.core core
  s.setCore core { k with tiles := k.tiles.set t x }

/-- A command that keeps its tile open (R380). -/
def MatCmd.opens (m : MatCmd) : Bool :=
  match m.op with
  | .mflags _ _ _ => false
  | _ => true

/-- Every matrix command of a group that is not complete. -/
def State.matrixWork (s : State) (g : Nat) : List MatCmd :=
  let x := s.group g
  ((s.core x.core).matrixQ.filter fun m => m.group == g) ++ x.frozen

/-- A place is free for a command of the group: at most 16 of a group, 64 of a core (R375). -/
def State.matrixRoom (s : State) (g : Nat) : Bool :=
  let core := (s.group g).core
  let all := (s.core core).matrixQ.length + sumNat ((s.resident core).map fun x => (s.group x).frozen.length)
  decide ((s.matrixWork g).length < 16) && decide (all < 64)

/-- Places a command (R375); outside the handler it joins the frozen batch while the group is in handler mode (R242). OPEN
is set (R380, R383). -/
def State.placeCmd (s : State) (m : MatCmd) : State :=
  let x := s.group m.group
  let t := x.tile m.tile
  let s := if m.opens then s.setMeta x.core t ((s.core x.core).meta t ||| BitVec.ofNat 32 tileOpen) else s
  if s.groupHandler m.group && !m.inHandler then s.setGroup m.group { x with frozen := x.frozen ++ [m] }
  else
    let k := s.core x.core
    (s.setCore x.core { k with matrixQ := k.matrixQ ++ [m] }).pokeArray x.core

/-- Removes the first command of a group from its core's queue. -/
def dropFirst (g : Nat) : List MatCmd → List MatCmd
  | [] => []
  | m :: t => if m.group = g then t else m :: dropFirst g t

/-- The oldest command of a group is complete: OPEN is cleared when none is left for the tile (R380). -/
def State.cmdDone (s : State) (m : MatCmd) : State :=
  let x := s.group m.group
  let k := s.core x.core
  let s := s.setCore x.core { k with matrixQ := dropFirst m.group k.matrixQ, lastGroup := m.group }
  let t := x.tile m.tile
  let s := if (s.matrixWork m.group).any fun n => n.opens && x.tile n.tile == t then s
    else s.setMeta x.core t ((s.core x.core).meta t &&& ~~~(BitVec.ofNat 32 tileOpen))
  s.poke x.core

/-! ### The checks of descriptors (R376 to R378) -/

/-- The check of a tile descriptor in field `f`, register `r`, for a group. -/
def tileCheck (g : Group) (d : DWord) (f r : Nat) (scaled : Bool) : Option Trap :=
  let n := d.toNat
  if bits n 63 56 ≠ 0 ∨ bits n 31 24 ≠ 0 then some (illegalOperand 0x53 f r)
  else if bits n 23 0 % 16384 ≠ 0 then some (illegalOperand 0x54 f r)
  else if scaled ∧ bits n 55 32 % 4 ≠ 0 then some (illegalOperand 0x58 f r)
  else if g.rc.size < bits n 23 0 + 16384 then
    some (memTrap (aperture rRange (Config.bufBase + 3 * 2 ^ 24 + bits n 23 0)) {} 0)
  else if scaled ∧ g.rs.size < bits n 55 32 + 256 then
    some (memTrap (aperture rRange (Config.bufBase + bits n 55 32)) {} 0)
  else none

/-- The LATCH bit of an operand descriptor (R377). -/
def latchBit (d : DWord) : Bool := d.getLsbD 63
/-- The handle that an operand descriptor waits for (R377). -/
def waitHandle (d : DWord) : Option Nat := if d.getLsbD 62 then some (bits d.toNat 61 56) else none

/-- The windows a semiring's operand may lie in (R378). -/
def Semiring.permits (sr : Semiring) (isA : Bool) (b : Buf) : Bool :=
  match sr, isA, b with
  | .ptBf16, true, .a | .ptBf16, true, .s | .ptBf16, false, .w | .ptBf16, false, .a | .ptBf16, false, .s => true
  | .orand, true, .a | .orand, true, .s | .orand, false, .w | .orand, false, .a | .orand, false, .s => true
  | .ptDpw8, true, .a | .ptDpw8, true, .s | .ptDpw8, false, .w => true
  | .ptF32, _, .s | .minp, _, .s | .maxp, _, .s | .maxt, _, .s => true
  | _, _, _ => false

/-- The check of an operand descriptor in field `f`, register `r` (R377, R378, R380). -/
def operandCheck (g : Group) (sr : Semiring) (isA : Bool) (d : DWord) (f r : Nat) : Option Trap :=
  let n := d.toNat
  let addr := bits n 47 0
  let bytes := if isA then sr.aBytes else sr.bBytes
  if bits n 55 48 ≠ 0 ∨ (latchBit d ∧ ¬isA) then some (illegalOperand 0x53 f r)
  else if latchBit d then none
  else match window addr with
    | .buf .c _ => some (memTrap (aperture rUnit addr) {} 0)
    | .buf b off =>
      if sr.permits isA b = false ∨ addr % 128 ≠ 0 then some (illegalOperand 0x55 f r)
      else if (g.range b).size < off + bytes then some (memTrap (aperture rRange addr) {} 0)
      else none
    | _ => some (illegalOperand 0x55 f r)

/-- The check of the latch (R382). -/
def latchCheck (g : Group) (sr : Semiring) (d : DWord) (f r : Nat) : Option Trap :=
  if latchBit d ∧ (g.gathers = 0 ∨ g.latchRow ≠ sr.aRow) then some (illegalOperand 0x56 f r) else none

/-- The first of some checks that fails. -/
def firstTrap : List (Option Trap) → Option Trap
  | [] => none
  | some t :: _ => some t
  | none :: r => firstTrap r

/-- The checks of an MMA against a group's reservations, in the order of R380. -/
def mmaCheck (g : Group) (sr : Semiring) (t a b : DWord) (d ra rb : Nat) : Option Trap :=
  firstTrap [tileCheck g t 0 d (sr == .ptDpw8), operandCheck g sr true a 1 ra, operandCheck g sr false b 2 rb,
    latchCheck g sr a 1 ra]

/-- MATRIX_PROTECT of a matrix command that a wave in handler mode issues (R243); the other waves' commands join the frozen
batch (R242): an empty range, or, for a command that writes it, a
protected tile. -/
def State.protectCheck (s : State) (d : DWord) (writes : Bool) : Option Trap :=
  let g := s.g
  let t := bits d.toNat 23 0
  if !s.w.handler then none
  else if g.ep.htCount = 0 then some { cause := 0x0E, info := 0x03 }
  else if writes && !(decide (g.ep.htFirst ≤ t / 16384) && decide (t / 16384 < g.ep.htFirst + g.ep.htCount)) then
    some { cause := 0x0E, addr := BitVec.ofNat 64 t, info := 0x01 }
  else none

/-! ### Issue (R379, R380, R383, R384) -/

/-- The scalars of an MMA: tile, A and B descriptors. -/
def opsMma (d a b : Nat) : List Opnd :=
  [{ field := 0, kind := .s, reg := d }, { field := 1, kind := .s, reg := a }, { field := 2, kind := .s, reg := b }]

/-- The command that an MMA places. -/
def mmaCmd (g : Group) (group : Nat) (wave : Option Nat) (inHandler : Bool) (sr : Semiring) (sat : Bool) (t a b : DWord) :
    MatCmd :=
  { group := group, wave := wave, inHandler := inHandler, op := .mma sr sat a b, tile := t
    latch := if latchBit a then g.gathers else 0 }

/-- A command is placed after the store queue has drained and when a place is free (R375, R380). -/
def State.commandThen (s : State) (m : MatCmd) (k : State → State) : Out :=
  let s := s.drain s.cur
  if !s.w.storeQ.isEmpty || !s.matrixRoom s.w.group then .next s.block else .next ((k (s.placeCmd m)).finish 4)

/-- MMA (R379, R380). -/
def mma (sr : Semiring) (d a b : Nat) (sat : Bool) (s : State) : Out :=
  let t := s.sreg d
  let x := s.sreg a
  let y := s.sreg b
  tileThen s (opsMma d a b)
    (firstTrap [mmaCheck s.g sr t x y d a b, s.protectCheck t true]) fun s =>
    s.handlesThen ((waitHandle x).toList ++ (waitHandle y).toList) fun s =>
      s.commandThen (mmaCmd s.g s.w.group (some s.cur) s.w.handler sr sat t x y) id

/-- MMA.PT.bf16. -/
def execMmaPtBf16 (d a b : Nat) (sat : Bool) (s : State) : Out := mma .ptBf16 d a b sat s
/-- MMA.PT.dpw8. -/
def execMmaPtDpw8 (d a b : Nat) (sat : Bool) (s : State) : Out := mma .ptDpw8 d a b sat s
/-- MMA.PT.f32. -/
def execMmaPtF32 (d a b : Nat) (sat : Bool) (s : State) : Out := mma .ptF32 d a b sat s
/-- MMA.MINP.f32. -/
def execMmaMinpF32 (d a b : Nat) (sat : Bool) (s : State) : Out := mma .minp d a b sat s
/-- MMA.MAXP.f32. -/
def execMmaMaxpF32 (d a b : Nat) (sat : Bool) (s : State) : Out := mma .maxp d a b sat s
/-- MMA.MAXT.f32. -/
def execMmaMaxtF32 (d a b : Nat) (sat : Bool) (s : State) : Out := mma .maxt d a b sat s
/-- MMA.ORAND.bits, which has no saturating form. -/
def execMmaOrandBits (d a b : Nat) (s : State) : Out := mma .orand d a b false s

/-- MZERO (R383). -/
def execMzero (a : Nat) (s : State) : Out :=
  let t := s.sreg a
  tileThen s [{ field := 1, kind := .s, reg := a }] (firstTrap [tileCheck s.g t 1 a false, s.protectCheck t true]) fun s =>
    s.commandThen
      { group := s.w.group, wave := some s.cur, inHandler := s.w.handler, op := .mzero, tile := s.sreg a } id

/-- MFLAGS and MFLAGS.CLR (R384): the scalar is busy until the command has been performed (R282). -/
def mflags (clr : Bool) (d a : Nat) (s : State) : Out :=
  let t := s.sreg a
  tileThen s [{ field := 0, kind := .s, reg := d, dst := true }, { field := 1, kind := .s, reg := a }]
    (firstTrap [tileCheck s.g t 1 a false, s.protectCheck t clr]) fun s =>
    s.commandThen
      { group := s.w.group, wave := some s.cur, inHandler := s.w.handler, op := .mflags s.cur d clr, tile := s.sreg a }
      fun s => s.setW { s.w with sbusy := setBit s.w.sbusy d true, sdeferred := s.w.sdeferred.erase d }
/-- MFLAGS (R384). -/
def execMflags (d a : Nat) (s : State) : Out := mflags false d a s
/-- MFLAGS.CLR (R384). -/
def execMflagsClr (d a : Nat) (s : State) : Out := mflags true d a s

/-! ### The array (R380, R383, R384) -/

/-- The handles that a command waits for are full (R380). -/
def State.handlesFull (s : State) (g : Nat) (ds : List DWord) : Bool :=
  ds.all fun d => (waitHandle d).all fun h => (s.handle g h).st.state == 2

/-- An uncorrectable metadata word of a tile, as the trap of a command of the group that reads it (R241): TADDR and TINFO.
DESIGN CHOICE (log 88): TADDR is the tile's generic address and the bank is the tile's number. -/
def State.badMeta (s : State) (g : Group) (t : Nat) : Option (DWord × DWord) :=
  if s.uncorr.contains (5, g.core, t) then
    some (BitVec.ofNat 64 (Config.bufBase + 3 * 2 ^ 24 + (16384 * t - g.rc.base)), BitVec.ofNat 64 (5 * 2 ^ 24 + t * 2 ^ 16))
  else none

/-- The generic address of an offset in a buffer's window (R15). -/
def Buf.address : Buf → Nat → Nat
  | .s, o => Config.bufBase + o
  | .a, o => Config.bufBase + 2 ^ 24 + o
  | .w, o => Config.bufBase + 2 * 2 ^ 24 + o
  | .c, o => Config.bufBase + 3 * 2 ^ 24 + o

/-- The first uncorrectable word among `n` bytes of a group's reservation, from a window offset: TADDR and TINFO (R241). -/
def State.badRange (s : State) (g : Group) (b : Buf) (off n : Nat) : Option (DWord × DWord) :=
  if s.uncorr.isEmpty then none
  else (List.range ((off % 8 + n + 7) / 8)).findSome? fun i =>
    let o := off - off % 8 + 8 * i
    (s.badPiece g.core (.buf b ((g.range b).base + o), 8)).map fun u =>
      (BitVec.ofNat 64 (b.address o), BitVec.ofNat 64 (u.1 * 2 ^ 24 + u.2 * 2 ^ 16))

/-- The bytes of an operand in a group's reservation, with the unit and place of the first uncorrectable word (R241). -/
def State.operandBytes (s : State) (g : Group) (d : DWord) (n : Nat) : List Byte × Option (DWord × DWord) :=
  if latchBit d then (g.latch.take n, none)
  else
    match window (bits d.toNat 47 0) with
    | .buf b off =>
      let o := (g.range b).base + off
      (memReadN (memFrom ((s.core g.core).buf b) o) o n, s.badRange g b off n)
    | _ => ([], none)

/-- The handles of an operand are acquired as it is read (R128, R380). -/
def State.acquireHandle (s : State) (g : Group) (d : DWord) : State :=
  match waitHandle d with
  | some h => s.acquireOn g.core g.ctx kindHandle h []
  | none => s

/-- The wave that learns of an error of a command: its own, or for a follow-on the first of the group that has not
ended. -/
def State.alarmWave (s : State) (m : MatCmd) : Nat :=
  m.wave.getD (((s.wavesOf m.group).find? fun k => (s.wave k).phase != .ended).getD (16 * m.group))

/-- A wave of a group learns of an uncorrectable word that a command of it met: TADDR and TINFO (R241); the unit's self-test is
scheduled (R444). -/
def State.raiseAlarm (s : State) (g k : Nat) (a : DWord × DWord) : State :=
  (s.setWave k { s.wave k with alarm := some a }).scheduleTest (s.group g).core (s.group g).ctx
    { cause := 0x0B, addr := a.1, info := a.2 }

/-- A command meets an uncorrectable word: it has no effect, and the wave takes the trap at its next issue (R241). The
scalar of an MFLAGS keeps its value (log 88). -/
def State.cmdAlarm (s : State) (m : MatCmd) (a : DWord × DWord) : State :=
  let s := s.raiseAlarm m.group (s.alarmWave m) a
  let s := match m.op with
    | .mflags w sd _ => s.setWave w { s.wave w with sbusy := setBit (s.wave w).sbusy sd false }
    | _ => s
  s.cmdDone m

/-- Marks the oldest command of a group as started, with its sums. -/
def startFirst (g : Nat) (sums : List Word) (f : Nat) : List MatCmd → List MatCmd
  | [] => []
  | m :: t => if m.group = g then { m with started := true, sums := sums, flags := f } :: t else m :: startFirst g sums f t

/-- MMA_START (R380): the array takes the group's oldest command when it is ready and the array is free. -/
def execMmaStart (core g : Nat) (s : State) : Out :=
  let k := s.core core
  let x := s.group g
  match k.oldest g with
  | none => .next s
  | some m =>
    match m.op with
    | .mma sr sat a b =>
      if m.started || k.matrixQ.any (·.started) || !s.handlesFull g [a, b] || decide (x.gathered < m.latch) then .next s
      else
        let s := (s.acquireHandle x a).acquireHandle x b
        let p := s.operandBytes x a sr.aBytes
        let q := s.operandBytes x b sr.bBytes
        match p.2.orElse fun _ => q.2 with
        | some e => .next (s.cmdAlarm m e)
        | none =>
          let r := sr.sums sat p.1 q.1
          let k := s.core core
          .next ((s.setCore core { k with matrixQ := startFirst g r.1 r.2 k.matrixQ, lastGroup := g }).post 64
            (.mmaAccumulationComplete core))
    | _ => .next s

/-- The accumulation over a tile: new elements and flags, from element `n` on. -/
def accumulateAll (sr : Semiring) (sat : Bool) (scale : Nat → Word) : Nat → List Byte → List Word → List Byte × Nat
  | n, c0 :: c1 :: c2 :: c3 :: ct, t :: ts =>
    let r := sr.accumulate sat (BitVec.ofNat 32 (leNat [c0, c1, c2, c3])) t (scale (n % 64))
    let u := accumulateAll sr sat scale (n + 1) ct ts
    (leBytes 4 r.1.toNat ++ u.1, r.2 ||| u.2)
  | _, _, _ => ([], 0)

/-- The first uncorrectable word that an accumulation reads: of its tile, or of its scales (R44, R241; log 88). -/
def State.accumulationBad (s : State) (m : MatCmd) (x : Group) (sr : Semiring) : Option (DWord × DWord) :=
  (s.badRange x .c (bits m.tile.toNat 23 0) 16384).orElse fun _ =>
    if sr == .ptDpw8 then s.badRange x .s (bits m.tile.toNat 55 32) 256 else none

/-- MMA_ACCUMULATION_COMPLETE (R48, R90): the tile is read, added to and written; its flags are sticky. -/
def execMmaAccumulationComplete (core : Nat) (s : State) : Out :=
  let k := s.core core
  match k.matrixQ.find? (·.started) with
  | none => .next s
  | some m =>
    let x := s.group m.group
    let t := x.tile m.tile
    match m.op with
    | .mma sr sat _ _ =>
      match s.accumulationBad m x sr with
      | some e => .next (s.cmdAlarm m e)
      | none =>
        let old := memReadN (memFrom k.c (16384 * t)) (16384 * t) 16384
        let sc := x.rs.base + bits m.tile.toNat 55 32
        let scale := fun j => BitVec.ofNat 32 (leNat (memReadN (memFrom k.s (sc + 4 * j)) (sc + 4 * j) 4))
        let r := accumulateAll sr sat scale 0 old m.sums
        let s := s.bufWrite core .c (16384 * t) r.1
        let s := s.setMeta core t ((s.core core).meta t ||| BitVec.ofNat 32 (m.flags ||| r.2))
        .next ((s.charge x.ctx 0x08 1).cmdDone m)
    | _ => .next s

/-- MZERO_EXECUTE (R47, R383). -/
def execMzeroExecute (core g : Nat) (s : State) : Out :=
  match (s.core core).oldest g with
  | none => .next s
  | some m =>
    match m.op with
    | .mzero =>
      let t := (s.group g).tile m.tile
      let k := s.core core
      let s := (s.setCore core { k with c := memClear k.c (16384 * t) (16384 * t + 16384) }).cure 4 core (16384 * t) 16384
      let s := s.cureMeta core t
      .next ((s.setMeta core t ((s.core core).meta t &&& BitVec.ofNat 32 tileOpen)).cmdDone m)
    | _ => .next s

/-- MFLAGS_EXECUTE (R384). -/
def execMflagsExecute (core g : Nat) (s : State) : Out :=
  match (s.core core).oldest g with
  | none => .next s
  | some m =>
    match m.op with
    | .mflags w sd clr =>
      let t := (s.group g).tile m.tile
      let v := (s.core core).meta t
      if let some e := s.badMeta (s.group g) t then .next (s.cmdAlarm m e) else
      let s := if clr then s.setMeta core t (v &&& ~~~(7 : Word)) else s
      let x := s.wave w
      let s := if x.phase == .ended then s
        else s.setWave w { x with s := x.s.set sd (v.setWidth 64), sbusy := setBit x.sbusy sd false }
      .next (s.cmdDone m)
    | _ => .next s

/-! ### The gather unit (R381, R382) -/

/-- The index of row `i`: lanes of va, then of va + 1. -/
def gatherIndex (lo hi : Lanes) (i : Nat) : Word := if i < 32 then lane lo i else lane hi (i - 32)

/-- The descriptor checks of MGATHER (R381). -/
def gatherCheck (d : DWord) (r : Nat) : Option Trap :=
  let n := d.toNat
  let addr := bits n 47 0
  if latchBit d then some (illegalOperand 0x53 2 r)
  else if [1, 2, 8].contains (bits n 55 48) = false ∨ addr % 32 ≠ 0 then some (illegalOperand 0x57 2 r)
  else match window addr with
    | .buf .w _ | .buf .c _ => some (memTrap (aperture rUnit addr) {} 0)
    | .buf _ _ => none
    | _ => some (illegalOperand 0x57 2 r)

/-- The first row that passes the reservation (R381). -/
def gatherRange (g : Group) (d : DWord) (idx : List Word) : Option Trap :=
  let r := 32 * bits d.toNat 55 48
  match window (bits d.toNat 47 0) with
  | .buf b off =>
    (idx.zipIdx.find? fun p => p.1 != 0xFFFFFFFF && decide ((g.range b).size < off + (p.1.toNat + 1) * r)).map fun p =>
      memTrap (aperture rRange (bits d.toNat 47 0 + p.1.toNat * r)) {} (p.2 % 32)
  | _ => none

/-- MGATHER (R381). -/
def execMgather (a b : Nat) (s : State) : Out :=
  let d := s.sreg b
  tileThen s [{ field := 1, kind := .v2, reg := a, src := some 0 }, { field := 2, kind := .s, reg := b }] (gatherCheck d b)
    fun s =>
    s.handlesThen (waitHandle (s.sreg b)).toList fun s =>
      let d := s.sreg b
      let lo := s.vaReg a
      let hi := s.vaReg (a + 1)
      let idx := (List.range 64).map (gatherIndex lo hi)
      let prot : Option Trap := if s.w.handler then some { cause := 0x0E, info := 0x02 } else none
      match firstTrap [gatherRange s.g d idx, prot] with
      | some t => .next (s.trap t)
      | none =>
        let s := s.drain s.cur
        if !s.w.storeQ.isEmpty then .next s.block
        else
          let g := s.g
          let s := s.setG { g with gathers := g.gathers + 1, latchRow := 32 * bits d.toNat 55 48 }
          let k := s.core g.core
          let s := s.setCore g.core { k with gatherQ := k.gatherQ ++
            [{ group := s.w.group, seq := g.gathers + 1, desc := d, idx := idx, wave := s.cur }] }
          .next ((s.pokeArray g.core).finish 4)

/-- The rows of a gather (R381). -/
def gatherRows (m : Memory) (o r : Nat) (idx : List Word) : List Byte :=
  idx.flatMap fun i => if i = 0xFFFFFFFF then List.replicate r 0
    else memReadN (memFrom m (o + i.toNat * r)) (o + i.toNat * r) r

/-- The first uncorrectable word that a gather reads (R44, R241). -/
def State.gatherBad (s : State) (x : Group) (q : Gather) : Option (DWord × DWord) :=
  if s.uncorr.isEmpty then none
  else
    let r := 32 * bits q.desc.toNat 55 48
    match window (bits q.desc.toNat 47 0) with
    | .buf b off => q.idx.findSome? fun i => if i = 0xFFFFFFFF then none else s.badRange x b (off + i.toNat * r) r
    | _ => none

/-- A gather is complete: the latch holds `rows`. -/
def State.gatherDone (s : State) (core : Nat) (q : Gather) (rows : List Byte) : State :=
  let k := s.core core
  let s := s.setCore core { k with gatherQ := k.gatherQ.tail }
  (s.setGroup q.group { s.group q.group with latch := rows, gathered := q.seq }).poke core

/-- MGATHER_EXECUTE (R381, R382): the oldest gather fills its group's latch, after the group's earlier commands that read
the latch. One that meets an uncorrectable word is over and leaves the latch as it was (R241, log 88). -/
def execMgatherExecute (core : Nat) (s : State) : Out :=
  let k := s.core core
  match k.gatherQ with
  | [] => .next s
  | q :: _ =>
    let x := s.group q.group
    if !s.handlesFull q.group [q.desc] || (s.matrixWork q.group).any fun m => m.latch != 0 && decide (m.latch < q.seq) then .next s
    else if let some e := s.gatherBad x q then .next ((s.raiseAlarm q.group q.wave e).gatherDone core q x.latch)
    else
      let r := 32 * bits q.desc.toNat 55 48
      let rows := match window (bits q.desc.toNat 47 0) with
        | .buf b off => gatherRows (k.buf b) ((x.range b).base + off) r q.idx
        | _ => []
      .next ((s.acquireHandle x q.desc).gatherDone core q rows)

end Sys2Proof.Machine
end

