-- ==== Sys2Proof/Machine/Tensor.lean ====
section
/-!
DEFINITION. Layout records, coordinates and the canonical layout (R95 to R100), and the conversions between storage formats
and canonical types (R74 to R85).
-/

namespace Sys2Proof.Machine

/-! ### The layout record (R95 to R97) -/

/-- A 64-bit field of a record's bytes. -/
def dwordAt (b : List Byte) (o : Nat) : Nat := leNat ((b.drop o).take 8)

/-- Dimension entry `d` of a record (R97): extent, stride, box. -/
def dimAt (b : List Byte) (d : Nat) : Nat × Int × Nat :=
  let x := leNat ((b.drop (0x40 + 12 * d)).take 12)
  (bits x 31 0, sextNat 48 (bits x 79 32), bits x 95 80)

/-- A layout record as read (R95). -/
def layoutOf (b : List Byte) : Layout :=
  let w1 := dwordAt b 8
  let w2 := dwordAt b 16
  { base := bits (dwordAt b 0) 47 0, format := bits w1 3 0, ctype := bits w1 9 8, ndim := bits w1 15 12
    smooth := decide (bits w1 19 19 = 1), schan := bits w1 23 20, fill := BitVec.ofNat 32 (bits w1 63 32)
    nblk := bits w2 11 0, bdim := bits w2 31 28, sptr := bits w2 49 32, list := bits (dwordAt b 24) 47 0
    dims := (List.range (bits w1 15 12 + 1)).map (dimAt b) }

/-- A non-zero RZ field in the header or in an unused dimension entry (R101 code 0x41). The low bits of SPTR count only
where SPTR is used. -/
def layoutRz (b : List Byte) : Bool :=
  let w1 := dwordAt b 8
  let w2 := dwordAt b 16
  decide (bits (dwordAt b 0) 63 48 ≠ 0) || decide (bits w1 31 24 ≠ 0) || decide (bits w1 18 16 ≠ 0) ||
    decide (bits w1 11 10 ≠ 0) || decide (bits w1 7 4 ≠ 0) || decide (bits w2 63 50 ≠ 0) || decide (bits w2 27 12 ≠ 0) ||
    (decide (bits w1 19 19 = 1) && decide (bits w2 33 32 ≠ 0)) || decide (bits (dwordAt b 24) 63 48 ≠ 0) ||
    ((b.drop 0x20).take 32).any (· != 0) || (b.drop (0x40 + 12 * (bits w1 15 12 + 1))).any (· != 0)

/-- Bytes of a format's unit (R96). -/
def unitBytes (fmt : Nat) : Nat :=
  match fmt with
  | 0 => 4
  | 1 | 2 => 2
  | 7 => 17
  | _ => 1
/-- Elements of a format's unit (R96). -/
def unitElems (fmt : Nat) : Nat :=
  match fmt with
  | 6 => 2
  | 7 => 32
  | 9 => 8
  | _ => 1
/-- Alignment of BASE (R96). -/
def baseAlign (fmt : Nat) : Nat :=
  match fmt with
  | 0 => 4
  | 1 | 2 => 2
  | _ => 1

/-- The pairing of format, canonical type and buffer (0 S, 1 A, 2 W, 3 C) is accepted (R77, R78, R80). -/
def pairingOk (drain : Bool) (fmt ct buf : Nat) : Bool :=
  if 10 ≤ fmt then false
  else if drain then
    fmt != 8 && ct != 2 && (buf != 3 || ct == 1) && (ct != 3 || fmt == 9) && !(ct == 0 && fmt == 9)
  else
    ((fmt == 9) == (ct == 3)) && (fmt != 8 || ct == 2) &&
      (match ct with
        | 1 => buf == 0
        | 2 => buf == 2
        | _ => buf == 0 || buf == 1 || buf == 2)

/-! ### Coordinates (R98, R99) -/

/-- The box (R98). -/
def Layout.box (y : Layout) : List Nat :=
  y.dims.zipIdx.map fun p => if p.2 = y.bdim ∧ y.nblk ≠ 0 then p.1.2.2 * y.nblk else p.1.2.2
/-- Elements of the box. -/
def Layout.total (y : Layout) : Nat := y.box.foldr (· * ·) 1
/-- Bytes of a canonical element; 0 for packed bits (R99). -/
def canonBytes (ct : Nat) : Nat :=
  match ct with
  | 0 => 2
  | 1 => 4
  | 2 => 1
  | _ => 0
/-- Bytes of the canonical region (R99). -/
def Layout.region (y : Layout) : Nat :=
  roundUp (if y.ctype = 3 then (y.total + 7) / 8 else y.total * canonBytes y.ctype) 128

/-- Box coordinates of canonical index `n` (R99). -/
def digits : List Nat → Nat → List Nat
  | [], _ => []
  | b :: t, n => n % b :: digits t (n / b)

/-- Tensor coordinates of box coordinates, from starts and the block-index list (R98). -/
def Layout.coords (y : Layout) (starts : List Int) (list : List Nat) (i : List Nat) : List Int :=
  i.zipIdx.map fun p =>
    let st := starts.getD p.2 0
    if p.2 = y.bdim ∧ y.nblk ≠ 0 then
      let b := (y.dims.getD p.2 (0, 0, 1)).2.2
      st + (list.getD (p.1 / b) 0 * b : Nat) + (p.1 % b : Nat)
    else st + p.1

/-- No coordinate lies outside its extent (R98). -/
def Layout.inside (y : Layout) (x : List Int) : Bool :=
  x.zipIdx.all fun p => decide (0 ≤ p.1) && decide (p.1 < ((y.dims.getD p.2 (0, 0, 1)).1 : Int))

/-- The address of the unit that holds the element at tensor coordinates (R98). -/
def Layout.address (y : Layout) (x : List Int) : Int :=
  (y.base : Int) + (x.zipIdx.map fun p =>
    (if p.2 = 0 then p.1 / (unitElems y.format : Int) else p.1) * (y.dims.getD p.2 (0, 0, 1)).2.1 * (unitBytes y.format : Int)).foldr
      (· + ·) 0

/-- The element's place in its unit. -/
def Layout.inUnit (y : Layout) (x : List Int) : Nat := (x.headD 0 % (unitElems y.format : Int)).toNat

/-! ### Values of storage formats (R67, R74, R75) -/

/-- The value of element `j` of a unit's bytes. -/
def sourceNum (fmt : Nat) (u : List Byte) (j : Nat) : Num :=
  let x := leNat u
  let int := fun (z : Int) => Num.fin (decide (z < 0)) z.natAbs 0
  match fmt with
  | 0 => unpack fp32 x
  | 1 => unpack bf16 x
  | 2 => unpack fp16 x
  | 3 => unpack e5m2 x
  | 4 => unpack e4m3 x
  | 5 => int (sextNat 8 x)
  | 6 => int (sextNat 4 (x / 16 ^ j))
  | 7 =>
    let sc := (u.getD 16 0).toNat
    if sc = 255 then .nan false
    else match unpack e2m1 ((u.getD (j / 2) 0).toNat / 16 ^ (j % 2) % 16) with
      | .fin n m e => .fin n m (e + sc - 127)
      | v => v
  | 8 => dpw8 x
  | _ => .fin false (packedBit u j).toNat 0

/-! ### Conversions (R78 to R85) -/

/-- A conversion's status (R81): underflow, NaN, overflow, inexact. -/
def convStatus (fl : Nat) : Nat :=
  (if fl &&& flagUF = 0 then 0 else 8) + (if fl &&& flagOF = 0 then 0 else 2) + (if fl &&& flagNX = 0 then 0 else 1)

/-- A finite value rounded into E4M3 or E2M1, whose top codes are values: beyond the largest it stays there, with an
overflow (R76, R80). -/
def roundSmall (F : Fmt) (n : Bool) (m : Nat) (e : Int) : Nat × Nat :=
  if m = 0 then (F.zero n, 0)
  else
    let top : Int := (Nat.log2 m : Int) + e
    let free := roundAt 0 n m e (top - F.fw)
    let tiny := decide ((if free.1 = 2 ^ (F.fw + 1) then top + 1 else top) < F.emin)
    let q := max (top - F.fw) (F.emin - F.fw)
    let r := roundAt 0 n m e q
    let sig := if r.1 = 2 ^ (F.fw + 1) then 2 ^ F.fw else r.1
    let ex := if r.1 = 2 ^ (F.fw + 1) then q + 1 else q
    let code := if sig < 2 ^ F.fw then sig else (ex + F.fw + F.bias).toNat * 2 ^ F.fw + (sig - 2 ^ F.fw)
    if F.big false < code then (F.big n, flagOF + flagNX)
    else (F.zero n + code, if r.2 then (if tiny then flagUF + flagNX else flagNX) else 0)

/-- A value rounded into a format, with its status (R78, R80, R81). -/
def intoFmt (F : Fmt) : Num → Nat × Nat
  | .nan _ => (F.nan, 4)
  | .inf n => if F.special = 0 then (F.inf n, 0) else (F.big n, 3)
  | .fin n m e =>
    let r := if F.special = 0 then roundFin F rne n m e else roundSmall F n m e
    (r.1, convStatus r.2)

/-- A finite value as a whole number of units of 2^q, for a `q` that its exponent reaches. -/
def unitsOf (n : Bool) (m : Nat) (e q : Int) : Int := scaled n m e q

/-- The term nearest to a value of `y` units of 2^q, q ≤ −7 (R83): sign bit and code. -/
def greedyTerm (q y : Int) : Nat × Nat :=
  let p := fun (c : Nat) => (2 ^ (-(c : Int) - q).toNat : Nat)
  if y.natAbs < p 7 then (0, 7)
  else
    let d := fun (c : Nat) => ((y.natAbs : Int) - (p c : Int)).natAbs
    let best := (List.range 7).foldl (fun b c => if d c < d b then c else b) 0
    ((decide (y < 0)).toNat, best)

/-- The greedy conversion to DPW8 (R83), with its status. DESIGN CHOICE (log 38): a small value that is delivered as zero
records no underflow. -/
def greedy : Num → Nat × Nat
  | .nan _ => (0x77, 4)
  | .inf n => (if n then 0x88 else 0x00, 3)
  | .fin n m e =>
    let q := min e (-7)
    let y := unitsOf n m e q
    let val := fun (t : Nat × Nat) => if t.2 = 7 then (0 : Int) else
      (if t.1 = 1 then -1 else 1) * (2 ^ (-(t.2 : Int) - q).toNat : Nat)
    let t1 := greedyTerm q y
    let t2 := greedyTerm q (y - val t1)
    let wide := decide ((2 ^ (1 - q).toNat : Nat) < y.natAbs)
    (t1.1 * 128 + t1.2 * 16 + t2.1 * 8 + t2.2,
      (if wide then 2 else 0) + (if val t1 + val t2 = y then 0 else 1))

/-- Conversion into a canonical type (R78), with its status. -/
def toCanonical (ct : Nat) (x : Num) : Nat × Nat :=
  match ct with
  | 0 => intoFmt bf16 x
  | 1 => intoFmt fp32 x
  | _ => greedy x

/-- The fill constant in a canonical type (R79). -/
def fillOf (ct : Nat) (f : Word) : Nat :=
  match ct with
  | 1 => f.toNat
  | 3 => f.toNat % 2
  | c => (toCanonical c (unpack fp32 f.toNat)).1

/-- Smoothing by the channel value σ (R85): division into A (1), multiplication into W (2). DESIGN CHOICE (log 85): its
rounding adds nothing to the conversion status of R81, which counts the conversion of x′ alone. -/
def smooth (buf : Nat) (x sigma : Num) : Num :=
  let e := if buf = 1 then divNum 23 x sigma else mulNum x sigma
  unpack fp32 (deliver fp32 rne e).1

/-- A copied element in its canonical type, with its status (R78, R85): DPW8 and packed bits are copied as they stand. DESIGN
CHOICE (log 99): packed bits are so copied where a smoothing vector is named too. -/
def copyElem (y : Layout) (buf : Nat) (u : List Byte) (j : Nat) (sigma : Option Num) : Nat × Nat :=
  if y.format = 9 then ((packedBit u j).toNat, 0)
  else match sigma with
    | some v => toCanonical y.ctype (smooth buf (sourceNum y.format u j) v)
    | none => if y.format = 8 then (leNat u, 0) else toCanonical y.ctype (sourceNum y.format u j)

/-- A whole number rounded with ties to even and held within `bits` bits (R80), with its status. -/
def toInt (n : Nat) : Num → Nat × Nat
  | .nan _ => (0, 4)
  | .inf s => (if s then 2 ^ (n - 1) else 2 ^ (n - 1) - 1, 3)
  | .fin s m e =>
    let r := roundAt 0 s m e 0
    if s then (if 2 ^ (n - 1) < r.1 then (2 ^ (n - 1), 3) else ((2 ^ n - r.1) % 2 ^ n, if r.2 then 1 else 0))
    else if 2 ^ (n - 1) ≤ r.1 then (2 ^ (n - 1) - 1, 3)
    else (r.1, if r.2 then 1 else 0)

/-- The FP32 pattern of a canonical element; BF16 is widened exactly (R80), a NaN to the canonical one (R68). -/
def wide (ct x : Nat) : Nat := if ct = 0 then (if (unpack bf16 x).isNan then fp32.nan else x * 2 ^ 16) else x

/-- An element of a storage format of one element a unit, from an FP32 pattern (R80), with its status. DESIGN CHOICE (log 99):
an FP32 NaN that is drained to FP32 is copied with its sign and payload (R80), not made canonical (R68). -/
def packOne (fmt x : Nat) : Nat × Nat :=
  let v := unpack fp32 x
  match fmt with
  | 0 => (x, if v.isNan then 4 else 0)
  | 1 => intoFmt bf16 v
  | 2 => intoFmt fp16 v
  | 3 => intoFmt e5m2 v
  | 4 => intoFmt e4m3 v
  | _ => toInt 8 v

/-- The larger magnitude of two finite values, in units of 2^q. -/
def magUnits (q : Int) : Num → Nat
  | .fin _ m e => (m * 2 ^ (e - q).toNat)
  | _ => 0

/-- A B4 block from 32 values (R76): its 17 bytes, and each element's status. In a block with a NaN or an infinity every
element is delivered as a NaN, which differs from every other source (R81). -/
def packB4 (xs : List Num) : List Byte × List Nat :=
  if xs.any fun x => !x.isFin then (List.replicate 16 0 ++ [255], xs.map fun x => if x.isNan then 4 else 5)
  else
    let q := xs.foldr (fun x n => match x with
      | .fin _ _ e => min e n
      | _ => n) (0 : Int)
    let mx := xs.foldr (fun x n => max (magUnits q x) n) 0
    let sc : Int := if mx = 0 then 127 else
      let z := (Nat.log2 mx : Int) + q - 2 + 127
      if z < 0 then 0 else if 254 < z then 254 else z
    let rs := xs.map fun x => match x with
      | .fin n m e => roundSmall e2m1 n m (e - (sc - 127))
      | _ => (0, 0)
    let code := fun (j : Nat) => if mx = 0 then 0 else (rs.getD j (0, 0)).1 % 16
    ((List.range 16).map (fun i => BitVec.ofNat 8 (code (2 * i) + 16 * code (2 * i + 1))) ++ [BitVec.ofInt 8 sc],
      rs.map fun r => convStatus (r.2 &&& (flagOF ||| flagNX)))

/-- A unit of a format with several elements (R76, R80, R100): `old` are the unit's bytes before, `xs` the FP32 patterns of
its elements, none for one that is out of bounds. Answers the new bytes and the status. -/
def packUnit (fmt : Nat) (old : List Byte) (xs : List (Option Nat)) : List Byte × Nat :=
  let vals := xs.map fun x => unpack fp32 (x.getD 0)
  let mine := fun (st : List Nat) => (st.zip xs).foldr (fun p f => if p.2.isSome then p.1 ||| f else f) 0
  match fmt with
  | 6 =>
    let r := vals.map (toInt 4)
    ([BitVec.ofNat 8 ((r.getD 0 (0, 0)).1 + 16 * (r.getD 1 (0, 0)).1)], mine (r.map (·.2)))
  | 7 =>
    let r := packB4 vals
    (r.1, mine r.2)
  | 9 =>
    let b := (old.getD 0 0).toNat
    ([BitVec.ofNat 8 (sumNat (xs.zipIdx.map fun p =>
      2 ^ p.2 * (match p.1 with
        | some x => x % 2
        | none => b / 2 ^ p.2 % 2)))], 0)
  | _ =>
    match xs with
    | some x :: _ =>
      let r := packOne fmt x
      (leBytes (unitBytes fmt) r.1, r.2)
    | _ => ([], 0)

/-- Bytes of the canonical elements of a layout, without the bytes past the last one (R99). -/
def Layout.canonLen (y : Layout) : Nat := if y.ctype = 3 then (y.total + 7) / 8 else y.total * canonBytes y.ctype

end Sys2Proof.Machine
end

