-- ==== Sys2Proof/Machine/Engine.lean ====
section
/-!
DEFINITION. The tensor copy engines (R94 to R118, R368 to R370) and circular buffers (R54, R55, R372, R373).
-/

namespace Sys2Proof.Machine

/-! ### Queues and operations -/

/-- The buffer of a BUF code (R368). -/
def bufOf (n : Nat) : Buf :=
  match n with
  | 0 => .s
  | 1 => .a
  | 2 => .w
  | _ => .c

/-- The operations in a queue, oldest first (R114). -/
def State.queueOf (s : State) (cl e q : Nat) : List EngineOp := (s.cluster cl).engines.getD (engineKey e q) []
/-- Replaces the operations of a queue. -/
def State.setQueue (s : State) (cl e q : Nat) (l : List EngineOp) : State :=
  let k := s.cluster cl
  s.setCluster cl { k with engines := k.engines.set (engineKey e q) l }
/-- Replaces the head of a queue. -/
def State.setHead (s : State) (cl e q : Nat) (o : EngineOp) : State :=
  s.setQueue cl e q (o :: (s.queueOf cl e q).tail)

/-- The operation of a group's set with a number, with its queue (R102). -/
def State.findOp (s : State) (g n k : Nat) : Option (Nat × EngineOp) :=
  (s.cluster ((s.group g).core / 4)).engines.rows.findSome? fun p =>
    (p.2.find? fun o => o.group == g && o.set == n && o.num == k).map fun o => (p.1, o)

/-- Slots that have landed leave the claimed ones in claim order (R55). -/
def countLanded : Nat → CBuf → CBuf
  | 0, x => x
  | n + 1, x =>
    match x.claimed with
    | (_, true) :: t => countLanded n { x with claimed := t, filled := x.filled + 1 }
    | _ => x

/-- A claimed slot lands (R55). The slot of an operation that ended without writing counts as landed too (log 32). -/
def State.landSlot (s : State) (o : EngineOp) : State :=
  match o.cb, o.slot with
  | some c, some i =>
    let core := (s.group o.group).core
    let k := s.core core
    let x := k.cbs.getD c {}
    let x := { x with claimed := x.claimed.map fun p => if p.1 = i then (i, true) else p }
    s.setCore core { k with cbs := k.cbs.set c (countLanded 255 x) }
  | _, _ => s

/-- A group that waits for its operations may come to its end or its stop (R118). -/
def State.opEnded (s : State) (g : Nat) : State :=
  let s := s.noteStop g
  if (s.group g).phase == .ending then s.postOnce 0 (.groupTeardown g) else s

/-- The head of a queue ends: its slot lands, its handle becomes full, the next operation follows (R107, R115). -/
def State.endOp (s : State) (cl e q : Nat) (o : EngineOp) (st : HStatus) : State :=
  let s := (s.setQueue cl e q (s.queueOf cl e q).tail).landSlot o
  ((s.fullHandle o.group o.handle st).pokeEngines cl).opEnded o.group

/-! ### The tensor side (R98 to R100, R109, R110) -/

/-- Why an engine may not reach a byte of the tensor side, which lies in the window of `origin` (R109). -/
def engineWindow (g : Group) (origin x : Nat) : Option Nat :=
  match window x with
  | .hole => some rHole
  | .stack _ => some rUnit
  | .buf .s off => if g.rs.size ≤ off then some rRange else if origin < Config.stackBase then some rUnit else none
  | .buf _ _ => some rUnit
  | .global => if Config.stackBase ≤ origin then some rUnit else none

/-- The piece of a run of bytes of the global window that lies in one page. -/
def enginePage (s : State) (c : Nat) (write : Bool) (x n : Nat) : Except Nat Piece :=
  match freshWalk s c x { write := write } with
  | .error f => .error f.reason
  | .ok t => .ok (placeOf t.pa 0, n)

/-- The places of `n` bytes of the tensor side at an address, or the reason of the failure (R109). -/
def State.enginePlace (s : State) (g : Group) (origin : Nat) (write : Bool) (a : Int) (n : Nat) : Except Nat (List Piece) :=
  if a < 0 then .error rHole
  else
    let x := a.toNat
    match (engineWindow g origin x).orElse fun _ => engineWindow g origin (x + n - 1) with
    | some r => .error r
    | none =>
      match window x with
      | .buf b off => .ok [(.buf b ((g.range b).base + off), n)]
      | _ =>
        let k := min n (2 ^ 16 - x % 2 ^ 16)
        match enginePage s g.ctx write x k with
        | .error r => .error r
        | .ok p =>
          if k = n then .ok [p]
          else match enginePage s g.ctx write (x + k) (n - k) with
            | .error r => .error r
            | .ok p2 => .ok [p, p2]

/-- Bytes as an engine reads them: at home, at the bank, at the host (R121). -/
def State.engineRead (s : State) (core : Nat) (ps : List Piece) : List Byte :=
  ps.flatMap fun p =>
    match p.1 with
    | .phys pa _ => memReadN (memFrom s.hbm pa) pa p.2
    | .buf b o => memReadN (memFrom ((s.core core).buf b) o) o p.2
    | .host a => memReadN (memFrom s.host a) a p.2

/-- Bytes as an engine writes them (R121). -/
def State.engineWrite (s : State) (core c : Nat) : List (Place × List Byte) → State
  | [] => s
  | (p, x) :: t =>
    (match p with
      | .phys pa _ => s.homeWrite c pa x
      | .buf b o => s.bufWrite core b o x
      | .host a => { s with host := memWriteN s.host a x }).engineWrite core c t

/-- The place `i` bytes on. -/
def Place.shift (p : Place) (i : Nat) : Place :=
  match p with
  | .phys pa exp => .phys (pa + i) exp
  | .buf b o => .buf b (o + i)
  | .host a => .host (a + i)

/-- The uncorrectable word that an engine's read of a piece at a generic address meets (R241): the address, its unit and
its bank or slice. -/
def State.engineBad (s : State) (core : Nat) (p : Nat × Piece) : Option (Nat × Nat × Nat) :=
  (List.range p.2.2).findSome? fun i =>
    (match p.2.1 with
      | .phys pa _ => s.badHome (pa + i)
      | q => s.badPiece core (q.shift i, 1)).map fun u => (p.1 + i, u)

/-- The places of a unit, where it has them. -/
def placesOf : Except Nat (List Piece) → List Piece
  | .ok p => p
  | .error _ => []

/-- The places of entry `j` of the block-index list. -/
def State.entryPlace (s : State) (g : Group) (y : Layout) (j : Nat) : Except Nat (List Piece) :=
  s.enginePlace g y.list false ((y.list + 4 * j : Nat) : Int) 4

/-- The block numbers from entry `j` on, or the reason for which one of them cannot be reached. -/
def State.readList (s : State) (g : Group) (y : Layout) : Nat → Nat → Except Nat (List Nat)
  | 0, _ => .ok []
  | n + 1, j =>
    match s.entryPlace g y j, s.readList g y n (j + 1) with
    | .error r, _ => .error r
    | _, .error r => .error r
    | .ok p, .ok t => .ok (leNat (s.engineRead g.core p) :: t)

/-- The block-index list (R98, R109). -/
def State.blockList (s : State) (g : Group) (y : Layout) : Except Nat (List Nat) := s.readList g y y.nblk 0

/-- The tensor coordinates of canonical index `n`. -/
def Layout.at (y : Layout) (starts : List Int) (list : List Nat) (n : Nat) : List Int := y.coords starts list (digits y.box n)

/-- The places of the unit that holds an in-bounds element. -/
def State.unitPlace (s : State) (g : Group) (o : EngineOp) (x : List Int) : Except Nat (List Piece) :=
  s.enginePlace g o.layout.base o.drain (o.layout.address x) (unitBytes o.layout.format)

/-- The slices in ascending rank (R104). -/
def EngineOp.ranked (o : EngineOp) : List Slice := (List.range 16).flatMap fun w => o.slices.filter fun x => x.wid == w

/-- The reason for which an operation fails before any byte is written (R109). DESIGN CHOICE (log 87): of several failures
it is that of the block-index list, else of the lowest rank, else of the lowest n. -/
def State.engineFault (s : State) (o : EngineOp) : Option Nat :=
  let g := s.group o.group
  let y := o.layout
  match s.blockList g y with
  | .error r => some r
  | .ok list =>
    o.ranked.findSome? fun sl => (List.range y.total).findSome? fun n =>
      let x := y.at sl.starts list n
      if y.inside x then
        match s.unitPlace g o x with
        | .error r => some r
        | .ok _ => none
      else none

/-- The window offset of a slice: the claimed slot's stands in place of D (R368). -/
def State.windowOffset (s : State) (o : EngineOp) (sl : Slice) : Nat :=
  match o.cb, o.slot with
  | some c, some i =>
    let x := (s.core (s.group o.group).core).cbs.getD c {}
    (x.base + i * x.slot) * 128
  | _, _ => sl.d

/-- The window offset of the smoothing value of an in-bounds element (R100). -/
def Layout.sigmaAt (y : Layout) (x : List Int) : Nat := y.sptr + 4 * (x.getD y.schan 0).toNat

/-- A copied element as it is read now (R100): its canonical value and status, or the reason for which it cannot be
reached (R109). -/
def State.copied (s : State) (g : Group) (o : EngineOp) (x : List Int) : Except Nat (Nat × Nat) :=
  let y := o.layout
  if y.inside x then
    match s.unitPlace g o x with
    | .error r => .error r
    | .ok p =>
      let sigma := if y.smooth then
          let a := g.rs.base + y.sigmaAt x
          some (unpack fp32 (leNat (memReadN (memFrom (s.core g.core).s a) a 4)))
        else none
      .ok (copyElem y o.buf (s.engineRead g.core p) (y.inUnit x) sigma)
  else .ok (fillOf y.ctype y.fill, 0)

/-- Pieces with their generic addresses, from the first one's. -/
def addressed : Nat → List Piece → List (Nat × Piece)
  | _, [] => []
  | a, p :: t => (a, p) :: addressed (a + p.2) t

/-- The units that a slice reaches on the tensor side: generic address and piece. -/
def State.slicePieces (s : State) (o : EngineOp) (sl : Slice) : List (Nat × Piece) :=
  let g := s.group o.group
  let y := o.layout
  match s.blockList g y with
  | .error _ => []
  | .ok list => (List.range y.total).flatMap fun n =>
    let x := y.at sl.starts list n
    if y.inside x then addressed (y.address x).toNat (placesOf (s.unitPlace g o x)) else []

/-- The block-index list of an operation as pieces. -/
def State.listPieces (s : State) (o : EngineOp) : List (Nat × Piece) :=
  let y := o.layout
  (List.range y.nblk).flatMap fun j => addressed (y.list + 4 * j) (placesOf (s.entryPlace (s.group o.group) y j))

/-- Every piece of the tensor side that an operation reads or writes. -/
def State.tensorPieces (s : State) (o : EngineOp) : List (Nat × Piece) :=
  s.listPieces o ++ o.slices.flatMap (s.slicePieces o)

/-- The smoothing values that a slice reads. -/
def State.sigmaPieces (s : State) (o : EngineOp) (sl : Slice) : List (Nat × Piece) :=
  let g := s.group o.group
  let y := o.layout
  match y.smooth, s.blockList g y with
  | true, .ok list => (List.range y.total).filterMap fun n =>
    let x := y.at sl.starts list n
    if y.inside x then some (Config.bufBase + y.sigmaAt x, .buf .s (g.rs.base + y.sigmaAt x), 4) else none
  | _, _ => []

/-- The canonical bytes that a slice of a drain reads. -/
def State.drainSource (s : State) (o : EngineOp) (sl : Slice) : Nat × Piece :=
  let off := s.windowOffset o sl
  (Config.bufBase + o.buf * 2 ^ 24 + off, .buf (bufOf o.buf) (((s.group o.group).range (bufOf o.buf)).base + off),
    o.layout.canonLen)

/-- The tiles that a slice of a drain from C reads. -/
def State.drainTiles (s : State) (o : EngineOp) (sl : Slice) : List Nat :=
  if o.buf ≠ 3 then []
  else
    let p := (s.group o.group).rc.base + sl.d
    (List.range 16).filter fun t => decide (p < 16384 * (t + 1)) && decide (16384 * t < p + max 1 o.layout.canonLen)

/-- Drops the repetitions of neighbours. -/
def dropRepeats : List Nat → List Nat
  | a :: b :: t => if a = b then dropRepeats (b :: t) else a :: dropRepeats (b :: t)
  | l => l

/-- What an operation reads of memory is accessed at the home slices: the table entries of a walk for each page of the tensor
side, then the lines (R58, R253, R254). Of a drain they are those of the block-index list, and of packed bits the units that
it writes in part. -/
def State.touchSource (s : State) (o : EngineOp) : State :=
  let c := (s.group o.group).ctx
  let ps := s.tensorPieces o
  let pages := dropRepeats ((ps.filter fun p => decide (p.1 < Config.stackBase)).map fun p => p.1 / 2 ^ 16)
  let read := if o.drain && o.layout.format != 9 then s.listPieces o else ps
  let lines := dropRepeats (read.filterMap fun p =>
    match p.2.1 with
    | .phys pa _ => some (pa / 128)
    | _ => none)
  lines.foldl (fun s l => s.homeTouch c (128 * l) 128 false) (pages.foldl (fun s p => s.walkTouch c (2 ^ 16 * p)) s)

/-- The first uncorrectable word that an operation reads: TADDR and TINFO of its trap (R109, R241). -/
def State.sourceBad (s : State) (o : EngineOp) : Option (DWord × DWord) :=
  if s.uncorr.isEmpty then none
  else
    let g := s.group o.group
    let src := if o.drain then
        s.listPieces o ++ o.ranked.map (s.drainSource o) ++
          (if o.layout.format = 9 then o.ranked.flatMap (s.slicePieces o) else [])
      else s.tensorPieces o ++ o.ranked.flatMap (s.sigmaPieces o)
    ((src.findSome? (s.engineBad g.core)).map fun u =>
      (BitVec.ofNat 64 u.1, BitVec.ofNat 64 (u.2.1 * 2 ^ 24 + u.2.2 * 2 ^ 16))).orElse fun _ =>
      (if o.drain then o.ranked.flatMap (s.drainTiles o) else []).findSome? (s.badMeta g)

/-- The banks of the words of S in a range that are guarded by a lock bit which another wave than `me` holds (R52). -/
def State.lockedBanks (s : State) (core off n me : Nat) : List Nat :=
  let k := s.core core
  if k.locks.rows.isEmpty then []
  else ((List.range ((n + 3) / 4)).filter fun i => (k.lockHolder (off + 4 * i)).any (· != me)).map fun i =>
    (off + 4 * i) / 4 % 32

/-- The wave that issued a slice. -/
def EngineOp.issuer (o : EngineOp) (sl : Slice) : Nat := 16 * o.group + sl.wid

/-! ### Landing (R104, R111 to R113) -/

/-- A group's reservation holds the regions of an operation at its window offsets. -/
def State.fits (s : State) (o : EngineOp) (g : Nat) : Bool :=
  o.slices.all fun sl => decide (s.windowOffset o sl + o.layout.region ≤ ((s.group g).range (bufOf o.buf)).size)

/-- The banks at which a write to S by the operation waits on a lock bit of the group's core; a bit that the slice's own wave
holds does not make it wait (R52). -/
def State.copyWaits (s : State) (o : EngineOp) (g : Nat) : List Nat :=
  let x := s.group g
  if o.buf ≠ 0 then []
  else o.slices.flatMap fun sl =>
    s.lockedBanks x.core (x.rs.base + s.windowOffset o sl) o.layout.region (o.issuer sl)

/-- A head's writes to S of a core may have to wait for lock bits at some banks: while they do, the state in which the event `ev`
presents them again, two cycles after they were refused and after the older retries at those banks (R52). -/
def State.engineHeld (s : State) (cl e q core : Nat) (o : EngineOp) (banks : List Nat) (ev : Event) : Option State :=
  let w := o.waits.get? core
  if w.any fun x => decide (s.now < x.due) then some s
  else if !(w.all fun x => s.lockTurn core ((2, engineKey e q), x)) then some (s.post 1 ev)
  else if banks.isEmpty then none
  else some ((s.setHead cl e q { o with waits := o.waits.set core (LockWait.again w banks s.now) }).post 2 ev)

/-- How far an operation has come: the status so far; CODE is FAILED once it has met a page that is gone (R109). -/
abbrev Moved := State × HStatus

/-- The operation fails where it stands. -/
def Moved.fail (u : Moved) (r : Nat) : Moved := (u.1, { u.2 with code := 1, reason := r })

/-- Canonical element `n` goes into a region of a buffer (R99), a packed bit into its byte. -/
def State.putElem (s : State) (core : Nat) (b : Buf) (ct off n v : Nat) : State :=
  if ct = 3 then
    let a := off + n / 8
    let old := (memRead ((s.core core).buf b) a).toNat
    s.bufWrite core b a [BitVec.ofNat 8 (old - old / 2 ^ (n % 8) % 2 * 2 ^ (n % 8) + v % 2 * 2 ^ (n % 8))]
  else s.bufWrite core b (off + n * canonBytes ct) (leBytes (canonBytes ct) v)

/-- Bytes that are written for the first time with canonical element `n`. -/
def elemBytes (ct n : Nat) : Nat := if ct = 3 then (if n % 8 = 0 then 1 else 0) else canonBytes ct

/-- Element `n` of a slice is copied to a group's buffer at an offset (R100). -/
def State.copyElemTo (o : EngineOp) (sl : Slice) (list : List Nat) (core off : Nat) (u : Moved) (n : Nat) : Moved :=
  let y := o.layout
  if u.2.code ≠ 0 then u
  else match u.1.copied (u.1.group o.group) o (y.at sl.starts list n) with
    | .error r => u.fail r
    | .ok v =>
      (u.1.putElem core (bufOf o.buf) y.ctype off n v.1,
        { u.2 with conv := u.2.conv ||| v.2, len := u.2.len + elemBytes y.ctype n })

/-- The bytes of a region past its last element are zero (R99). -/
def State.padRegion (s : State) (o : EngineOp) (core off : Nat) : State :=
  let y := o.layout
  let s := if y.ctype = 3 then
      (List.range (8 * y.canonLen - y.total)).foldl (fun s i => s.putElem core (bufOf o.buf) 3 off (y.total + i) 0) s
    else s
  s.bufWrite core (bufOf o.buf) (off + y.canonLen) (List.replicate (y.region - y.canonLen) 0)

/-- A slice lands in a group's reservation: its elements in ascending n (R100), each as it is read then. -/
def State.landSlice (o : EngineOp) (g : Nat) (u : Moved) (sl : Slice) : Moved :=
  if u.2.code ≠ 0 then u
  else
    let y := o.layout
    let x := u.1.group g
    let off := (x.range (bufOf o.buf)).base + u.1.windowOffset o sl
    match u.1.blockList (u.1.group o.group) y with
    | .error r => u.fail r
    | .ok list =>
      let r := (List.range y.total).foldl (State.copyElemTo o sl list x.core off) u
      if r.2.code ≠ 0 then r
      else (r.1.padRegion o x.core off, { r.2 with len := r.2.len + (y.region - y.canonLen) })

/-- A copy's slices land in a group's reservation, in ascending rank (R104); the rows are charged (R253). Answers the status
and the bytes written. -/
def State.landOn (s : State) (o : EngineOp) (g : Nat) : Moved :=
  let r := o.ranked.foldl (State.landSlice o g) (s.touchSource o, {})
  (r.1.charge (s.group o.group).ctx 0x07 r.2.len, r.2)

/-- The follow-on command of a word (R370): semiring, SAT, and the fields of its registers. A word whose bit 0 is 0 is no
instruction word (R255). -/
def followOf (w : Nat) : Option (Semiring × Bool × Nat × Nat × Nat) :=
  match (if w.testBit 0 then decodeWord 3 w else none) with
  | some (.mmaPtBf16 d a b t) => some (.ptBf16, t, d, a, b)
  | some (.mmaPtDpw8 d a b t) => some (.ptDpw8, t, d, a, b)
  | some (.mmaPtF32 d a b t) => some (.ptF32, t, d, a, b)
  | some (.mmaMinpF32 d a b t) => some (.minp, t, d, a, b)
  | some (.mmaMaxpF32 d a b t) => some (.maxp, t, d, a, b)
  | some (.mmaMaxtF32 d a b t) => some (.maxt, t, d, a, b)
  | some (.mmaOrandBits d a b) => some (.orand, false, d, a, b)
  | _ => none

/-- The follow-on command of an operation for a receiving group, or none where it fails that group's checks. -/
def State.followCmd (s : State) (g : Nat) (f : Word × DWord × DWord × DWord) : Option MatCmd :=
  match followOf f.1.toNat with
  | none => none
  | some (sr, sat, d, a, b) =>
    match mmaCheck (s.group g) sr f.2.1 f.2.2.1 f.2.2.2 d a b with
    | some _ => none
    | none => some (mmaCmd (s.group g) g none false sr sat f.2.1 f.2.2.1 f.2.2.2)

/-- Replaces the target of an operation on cluster position `k`. -/
def EngineOp.putTarget (o : EngineOp) (t : Target) : EngineOp :=
  { o with targets := o.targets.map fun u => if u.k = t.k then t else u }

/-- Cluster position of a group's core. -/
def Group.position (g : Group) : Nat := g.core % 4

/-- When every target is delivered or skipped, the issuing handle becomes full (R112). -/
def State.checkTargets (s : State) (cl e q : Nat) (o : EngineOp) : State :=
  if o.targets.any fun t => t.state == 0 then s.setHead cl e q o
  else
    let skip := sumNat ((o.targets.filter fun t => t.state == 2).map fun t => 2 ^ t.k)
    s.endOp cl e q o { o.res with code := if o.res.code ≠ 0 then o.res.code else if skip = 0 then 0 else 2, skip := skip }

/-- A target has its data, and its follow-on command a place: its handle becomes full (R111, R113). -/
def State.settleTarget (s : State) (cl e q : Nat) (o : EngineOp) (t : Target) : State :=
  let g := t.group.getD o.group
  let x := s.handle g o.handle
  let s := if g = o.group then s else s.fullHandle g o.handle x.st
  s.checkTargets cl e q (o.putTarget { t with state := 1, follow := false })

/-- Places the follow-on command of a target whose data has landed, when there is a place for it (R113). -/
def State.followThen (s : State) (cl e q : Nat) (o : EngineOp) (t : Target) : State :=
  let g := t.group.getD o.group
  match o.follow with
  | none => s.settleTarget cl e q o t
  | some f =>
    match s.followCmd g f with
    | none =>
      -- refused by the receiving group's reservations: the group takes the fault (R370)
      let p : Nat × DWord × DWord := (0x03, 0, memInfo (aperture rRange 0) {} 0)
      (s.putHandle g o.handle { s.handle g o.handle with poison := some p }).settleTarget cl e q o t
    | some m =>
      if s.matrixRoom g then (s.placeCmd m).settleTarget cl e q o t
      else s.setHead cl e q (o.putTarget { t with follow := true })

/-- The event that delivers a target. -/
def EngineOp.deliverEvent (o : EngineOp) (cl e q k : Nat) : Event :=
  if o.mcast = 0 then .copyOperationComplete cl e q else .multicastDelivery cl e q k

/-- A target does not get all its data: its handle reports it (R109); of the issuing group it is the operation's own. -/
def State.failTarget (s : State) (cl e q : Nat) (o : EngineOp) (t : Target) (st : HStatus) : State :=
  let g := t.group.getD o.group
  let s := if g = o.group then s else (s.bindHandle g o.handle 1 .engine).fullHandle g o.handle st
  s.checkTargets cl e q (o.putTarget { t with state := 1 })

/-- The data of a copy lands on a target's group, once no lock bit of its core holds the writes up (R52, R104, R111). A group
whose reservation ends before the region receives nothing (log 32). -/
def State.deliverTo (s : State) (cl e q : Nat) (o : EngineOp) (t : Target) : State :=
  let g := t.group.getD o.group
  let core := (s.group g).core
  if let some s' := s.engineHeld cl e q core o (s.copyWaits o g) (o.deliverEvent cl e q t.k) then s'
  else if s.fits o g then
    let r := s.landOn o g
    let own := decide (t.k = (s.group o.group).position)
    let o := { o with res := { o.res with conv := o.res.conv ||| r.2.conv, len := if own then r.2.len else o.res.len } }
    if r.2.code ≠ 0 then r.1.failTarget cl e q { o with res := { o.res with code := 1, reason := r.2.reason } } t r.2
    else
      let s := if g = o.group then r.1
        else r.1.putHandle g o.handle { (r.1.bindHandle g o.handle 1 .engine).handle g o.handle with
          st := { state := 1, conv := r.2.conv, len := r.2.len } }
      s.followThen cl e q o t
  else
    let st : HStatus := { code := 1, reason := rRange }
    s.failTarget cl e q (if g = o.group then { o with res := { o.res with code := 1, reason := rRange } } else o) t st

/-- The oldest resident group of a launch on a core (R111). -/
def State.oldestOn (s : State) (launch core : Nat) : Option Nat :=
  ((s.groups.rows.filter fun p => decide (p.2.launch = launch) && decide (p.2.core = core) && p.2.phase == .resident).foldl
    (fun (b : Option (Nat × Nat)) p =>
      let t := p.2.placedAt
      match b with
      | some (t0, g) => if t < t0 then some (t, p.1) else some (t0, g)
      | none => some (t, p.1)) none).map (·.2)

/-- The core of a target. -/
def targetCore (cl k : Nat) : Nat := 4 * cl + k

/-- MULTICAST_DELIVERY: the data lands on the oldest resident group of the launch there, once its handle is free; where a
group has run and none is resident, the core is skipped (R111, R112). -/
def execMulticastDelivery (cl e q k : Nat) (s : State) : Out :=
  match s.queueOf cl e q with
  | [] => .next s
  | o :: _ =>
    match (if o.started && o.mcast != 0 then o.targets.find? fun t => t.k == k && t.state == 0 && !t.follow else none) with
    | none => .next s
    | some t =>
      match s.oldestOn o.launch (targetCore cl k) with
      | some g =>
        if g = o.group ∨ s.canBind g o.handle = true then .next (s.deliverTo cl e q o { t with group := some g }) else .next s
      | none =>
        if (s.launch o.launch).ranOn.contains (targetCore cl k) then
          .next (s.checkTargets cl e q (o.putTarget { t with state := 2 }))
        else .next s

/-- MULTICAST_WAIT_EXPIRY: a target whose group, or whose handle, did not come within 20 us is skipped (R112). -/
def execMulticastWaitExpiry (cl e q k : Nat) (s : State) : Out :=
  match s.queueOf cl e q with
  | [] => .next s
  | o :: _ =>
    match o.targets.find? fun t => t.k == k && t.state == 0 && !t.follow && t.deadline != 0 && decide (t.deadline ≤ s.now) with
    | none => .next s
    | some t => if o.started then .next (s.checkTargets cl e q (o.putTarget { t with state := 2 })) else .next s

/-- FOLLOW_ON_PLACEMENT (R113). -/
def execFollowOnPlacement (cl e q k : Nat) (s : State) : Out :=
  match s.queueOf cl e q with
  | [] => .next s
  | o :: _ =>
    match o.targets.find? fun t => t.k == k && t.state == 0 && t.follow with
    | none => .next s
    | some t => if s.matrixRoom (t.group.getD o.group) then .next (s.followThen cl e q o t) else .next s

/-! ### Drains (R100, R117) -/

/-- The canonical elements of unit `m` of a drain: those in bounds, and the first of them. -/
def Layout.unitElemsAt (y : Layout) (starts : List Int) (list : List Nat) (m : Nat) : List (Nat × Option (List Int)) :=
  (List.range (unitElems y.format)).map fun j =>
    let n := unitElems y.format * m + j
    let x := y.at starts list n
    (n, if y.inside x then some x else none)

/-- Canonical element `n` of a region of a buffer, as an FP32 pattern or a bit. -/
def State.canonAt (s : State) (core : Nat) (b : Buf) (ct off n : Nat) : Nat :=
  let m := (s.core core).buf b
  if ct = 3 then (memRead m (off + n / 8)).toNat / 2 ^ (n % 8) % 2
  else
    let a := off + n * canonBytes ct
    wide ct (leNat (memReadN (memFrom m a) a (canonBytes ct)))

/-- Drains unit `m` of a slice from a buffer at an offset: its canonical elements as they are read then are packed, and the
unit is written if any element is in bounds (R100). -/
def State.drainUnit (o : EngineOp) (sl : Slice) (list : List Nat) (off : Nat) (u : Moved) (m : Nat) : Moved :=
  let s := u.1
  let g := s.group o.group
  let y := o.layout
  let es := y.unitElemsAt sl.starts list m
  if u.2.code ≠ 0 then u
  else match es.findSome? (·.2) with
  | none => u
  | some x =>
    match s.unitPlace g o x with
    | .error r => u.fail r
    | .ok ps =>
      let old := if y.format = 9 then s.engineRead g.core ps else []
      let r := packUnit y.format old (es.map fun p => p.2.map fun _ => s.canonAt g.core (bufOf o.buf) y.ctype off p.1)
      (s.engineWrite g.core g.ctx (cutPieces ps r.1),
        { u.2 with conv := u.2.conv ||| r.2, len := u.2.len + r.1.length })

/-- Drains a slice, unit by unit in ascending n. -/
def State.drainSlice (o : EngineOp) (u : Moved) (sl : Slice) : Moved :=
  if u.2.code ≠ 0 then u
  else
    let g := u.1.group o.group
    let y := o.layout
    match u.1.blockList g y with
    | .error r => u.fail r
    | .ok list =>
      (List.range (y.total / unitElems y.format)).foldl
        (State.drainUnit o sl list ((g.range (bufOf o.buf)).base + sl.d)) u

/-- The metadata bits of the tiles that a drain from C reads (R117). -/
def State.tileBits (s : State) (o : EngineOp) : Nat :=
  let k := s.core (s.group o.group).core
  (o.slices.flatMap (s.drainTiles o)).foldl (fun f t => f ||| (k.meta t).toNat % 16) 0

/-- The banks at which a drain's write to S waits on a lock bit that another wave than the slice's holds (R52). -/
def State.drainWaits (s : State) (o : EngineOp) : List Nat :=
  let g := s.group o.group
  if (s.core g.core).locks.rows.isEmpty then []
  else o.slices.flatMap fun sl => (s.slicePieces o sl).flatMap fun p =>
    match p.2.1 with
    | .buf .s off => s.lockedBanks g.core (off - off % 4) (p.2.2 + off % 4) (o.issuer sl)
    | _ => []

/-- The drain of every slice, in ascending rank. -/
def State.drainAll (s : State) (o : EngineOp) : Moved :=
  let r := o.ranked.foldl (State.drainSlice o) (s.touchSource o, {})
  (r.1.charge (s.group o.group).ctx 0x07 r.2.len, { r.2 with tflags := s.tileBits o })

/-! ### The start and the end of an operation (R104, R107) -/

/-- CB_SLOT_CLAIM: the copy at a queue's head claims the next slot of its circular buffer (R55). -/
def execCbSlotClaim (cl e q : Nat) (s : State) : Out :=
  match s.queueOf cl e q with
  | [] => .next s
  | o :: _ =>
    let core := (s.group o.group).core
    let k := s.core core
    match o.cb, o.slot with
    | some c, none =>
      let x := k.cbs.getD c {}
      if x.free = 0 then .next s
      else
        let x' := { x with free := x.free - 1, wridx := (x.wridx + 1) % x.count, claimed := x.claimed ++ [(x.wridx, false)] }
        let s := s.setCore core { k with cbs := k.cbs.set c x' }
        .next ((s.setHead cl e q { o with slot := some x.wridx }).postOnce 1 (.copyOperationStart cl e q))
    | _, _ => .next s

/-- The targets of a copy when it starts (R111, R112). -/
def State.targetsOf (s : State) (cl : Nat) (o : EngineOp) : List Target :=
  if o.mcast = 0 then [{ k := (s.group o.group).position, group := some o.group }]
  else ((List.range 4).filter fun k => o.mcast.testBit k).map fun k =>
    let core := targetCore cl k
    match s.oldestOn o.launch core with
    | some g => { k := k, group := some g }
    | none =>
      if (s.launch o.launch).ranOn.contains core then { k := k, state := 2 }
      else { k := k, deadline := s.now + 20 * Config.usCycles }

/-- The deliveries and expiries of a copy that has started are due. -/
def State.postTargets (s : State) (cl e q : Nat) (o : EngineOp) : State :=
  o.targets.foldl (fun s t =>
    if t.state ≠ 0 then s
    else
      let s := s.postOnce 1 (o.deliverEvent cl e q t.k)
      if t.deadline = 0 then s else s.post (t.deadline - s.now) (.multicastWaitExpiry cl e q t.k)) s

/-- COPY_OPERATION_START: the head of a queue starts when every counted slice has arrived; a failure found before any byte
is written ends it (R104, R109). -/
def execCopyOperationStart (cl e q : Nat) (s : State) : Out :=
  match s.queueOf cl e q with
  | [] => .next s
  | o :: _ =>
    if o.started || (o.cb.isSome && o.slot.isNone) || o.counted.any fun w => !o.slices.any fun x => x.wid == w then .next s
    else match s.engineFault o with
    | some r => .next (s.endOp cl e q o { code := 1, reason := r })
    | none =>
      match s.sourceBad o with
      | some i =>
        let g := o.group
        let s := s.putHandle g o.handle { s.handle g o.handle with poison := some (0x0B, i) }
        let s := s.scheduleTest (s.group g).core (s.group g).ctx { cause := 0x0B, addr := i.1, info := i.2 }
        .next (s.endOp cl e q o { code := 1 })
      | none =>
        if o.drain then .next ((s.setHead cl e q { o with started := true }).postOnce 1 (.copyOperationComplete cl e q))
        else
          let o := { o with started := true, targets := s.targetsOf cl o }
          let s := (s.setHead cl e q o).postTargets cl e q o
          .next (s.checkTargets cl e q o)

/-- COPY_OPERATION_COMPLETE: the last byte of a drain, or of a copy to the issuing group, is written (R107). -/
def execCopyOperationComplete (cl e q : Nat) (s : State) : Out :=
  match s.queueOf cl e q with
  | [] => .next s
  | o :: _ =>
    if !o.started then .next s
    else if o.drain then
      match s.engineHeld cl e q (s.group o.group).core o (s.drainWaits o) (.copyOperationComplete cl e q) with
      | some s' => .next s'
      | none =>
        let r := s.drainAll o
        .next (r.1.endOp cl e q o r.2)
    else match (if o.mcast = 0 then o.targets.find? fun t => t.state == 0 && !t.follow else none) with
      | some t => .next (s.deliverTo cl e q o t)
      | none => .next s

/-! ### Issue (R101 to R103, R369, R370) -/

/-- The checks 0x51, 0x52 and UNIT_DENIED for BUF of R369. -/
def copyStatic (drain : Bool) (s : State) (n c : Nat) : Option Trap :=
  let d := s.sreg c
  let e := (s.sreg (c + 1)).toNat
  let buf := bits d.toNat 49 48
  let mask := bits e 31 24
  let x := s.c.cbs.getD (bits d.toNat 53 51) {}
  let cbWrong := d.getLsbD 50 &&
    (drain || bits e 23 0 != 0 || mask != 0 || !x.valid || x.owner != s.w.group || x.buf + 1 != buf)
  if !(s.g.set n).has s.w.wid then some (illegalOperand 0x51 2 n)
  else if bits d.toNat 63 54 ≠ 0 ∨ cbWrong = true ∨ (drain = true ∧ mask ≠ 0) then some (illegalOperand 0x52 4 c)
  else if (if drain then buf == 1 || buf == 2 else buf == 3) then
    some (memTrap (aperture rUnit (Config.bufBase + buf * 2 ^ 24 + bits e 23 0)) { write := !drain } s.w.nib)
  else none

/-- The check 0x40 of the record address (R101). -/
def recordAddrCheck (s : State) (c : Nat) : Option Trap :=
  let a := bits (s.sreg c).toNat 47 0
  if a % 256 ≠ 0 then some (illegalOperand 0x40 4 c)
  else match window a with
    | .global | .buf .s _ => none
    | _ => some (illegalOperand 0x40 4 c)

/-- The Nib lane reads the 256 bytes of a record through the wave's load path, under the wave's own ordering (R101). -/
def State.readRecord (s : State) (a : Nat) : State × Except State (List Byte) :=
  s.readRun {} 8 ((List.range 32).map fun i => { lane := s.w.nib, lanes := 0, addr := a + 8 * i })

/-- A dimension-0 rule of R96 is broken. -/
def dim0Bad (y : Layout) (start : Int) : Bool :=
  let k := unitElems y.format
  let d := y.dims.headD (0, 0, 1)
  k != 1 && (d.2.1 != 1 || start % (k : Int) != 0 || d.2.2 % k != 0)

/-- The checks of the record after it is read: the window of BASE, then 0x41 to 0x47 (R101, R369). -/
def recordCheck (drain : Bool) (s : State) (c : Nat) (b : List Byte) (starts : List Int) : Option Trap :=
  let y := layoutOf b
  let e := (s.sreg (c + 1)).toNat
  let buf := bits (s.sreg c).toNat 49 48
  let off := bits e 23 0
  let no := fun (code : Nat) => some (illegalOperand code 4 c)
  let deny := fun (r : Nat) => some (memTrap (aperture r y.base) { write := drain } s.w.nib)
  let mask := bits e 31 24
  match window y.base with
  | .hole => deny rHole
  | .stack _ | .buf .a _ | .buf .w _ | .buf .c _ => deny rUnit
  | _ =>
    if layoutRz b then no 0x41
    else if !pairingOk drain y.format y.ctype buf then no 0x42
    else if y.ndim < y.bdim ∨ y.ndim < y.schan ∨ (y.dims.any fun d => d.1 == 0 || d.2.2 == 0) = true then no 0x43
    else if dim0Bad y (starts.headD 0) = true ∨ y.base % baseAlign y.format ≠ 0 ∨ (y.nblk ≠ 0 ∧ y.list % 4 ≠ 0) ∨ off % 128 ≠ 0 then
      no 0x44
    else if y.smooth = true ∧ (drain = true ∨ buf = 0 ∨ s.g.rs.size < y.sptr + 4 * (y.dims.getD y.schan (0, 0, 1)).1) then no 0x45
    else if (s.g.range (bufOf buf)).size < off + y.region ∨ 2 ^ 24 < off + y.region then no 0x46
    else if 16 ≤ mask ∨ ((List.range 4).any fun k => mask.testBit k &&
        !((s.ctx s.g.ctx).cores.any fun p => p.1 == targetCore (s.g.core / 4) k)) = true then no 0x47
    else none

/-- The follow-on command of the first slice: its word with the captured registers, or the check 0x50 (R370). -/
def State.captureFollow (s : State) (drain : Bool) (c : Nat) : Except Trap (Option (Word × DWord × DWord × DWord)) :=
  let w := bits (s.sreg (c + 1)).toNat 63 32
  if w = 0 then .ok none
  else if drain then .error (illegalOperand 0x50 4 c)
  else match followOf w with
    | none => .error (illegalOperand 0x50 4 c)
    | some (sr, _, d, a, b) =>
      match mmaCheck s.g sr (s.sreg d) (s.sreg a) (s.sreg b) d a b with
      | some _ => .error (illegalOperand 0x50 4 c)
      | none => .ok (some (BitVec.ofNat 32 w, s.sreg d, s.sreg a, s.sreg b))

/-- The scalars that a follow-on word names. -/
def followOps (w : Nat) : List Opnd :=
  match followOf w with
  | some (_, _, d, a, b) => opsMma d a b
  | none => []

/-- An operation of the group is cancelled (R103). -/
def State.cancelOp (s : State) (o : EngineOp) : State :=
  let cl := (s.group o.group).core / 4
  let k := s.cluster cl
  let s := s.setCluster cl { k with engines := ⟨k.engines.rows.map fun p =>
    (p.1, p.2.filter fun u => !(u.group == o.group && u.set == o.set && u.num == o.num))⟩ }
  (((s.landSlot o).fullHandle o.group o.handle { code := 3 }).pokeEngines cl).opEnded o.group

/-- The wave's count on the set advances (R102). -/
def State.countSlice (s : State) (n : Nat) : State :=
  let g := s.g
  let key := 16 * n + s.w.wid
  s.setG { g with copies := g.copies.set key (g.copies.getD key 0 + 1) }

/-- A slice joins the operation of a queue that has its group, set and number. -/
def State.addSlice (s : State) (o : EngineOp) (sl : Slice) : State :=
  let cl := s.g.core / 4
  (s.mapOps cl fun u =>
    if u.group = o.group ∧ u.set = o.set ∧ u.num = o.num then { u with slices := u.slices ++ [sl] } else u).pokeEngines cl

/-- The operation to which the next slice that the issuing wave supplies on set `n` belongs (R102), with its queue. -/
def State.nextOp (s : State) (n : Nat) : Option (Nat × EngineOp) :=
  s.findOp s.w.group n (s.g.copies.getD (16 * n + s.w.wid) 0)

/-- A trap is a refusal of R101. -/
def Trap.refusesSlice (t : Trap) : Bool := t.cause == 2 && decide (0x40 ≤ t.info.toNat % 256) && decide (t.info.toNat % 256 ≤ 0x48)

/-- A slice is refused: no slice of its operation is then accepted (R101). The refused slice was the wave's for that operation
(R102), so its count advances; an operation that has begun is cancelled (R103), and one that has not will not begin, since its
number is below the set's counts (DEDUCED, log 103). -/
def State.refuseSlice (s : State) (n : Nat) (t : Trap) : State :=
  if t.refusesSlice then
    match s.nextOp n with
    | some (_, o) => ((s.cancelOp o).countSlice n).trap t
    | none => (s.countSlice n).trap t
  else s.trap t

/-- CPY and CPYD once their checks up to the record are made (R369). DESIGN CHOICE (log 87): a further slice of a cancelled
operation, or of one that was refused, is counted and has no effect; a slice whose BUF, CB or CBD differs from the first
slice's lands where that one says. -/
def State.copySlice (s : State) (drain : Bool) (h n c q e : Nat) (b : List Byte) (sl : Slice) : Out :=
  let grp := s.w.group
  let cl := s.g.core / 4
  let d := (s.sreg c).toNat
  let x := (s.sreg (c + 1)).toNat
  let k := s.g.copies.getD (16 * n + s.w.wid) 0
  match s.nextOp n with
  | some (key, o) =>
    if o.handle ≠ h ∨ key ≠ engineKey e q ∨ o.recAddr ≠ bits d 47 0 ∨ o.mcast ≠ bits x 31 24 ∨ o.drain ≠ drain ∨
        (o.follow.map (·.1.toNat)).getD 0 ≠ bits x 63 32 then
      .next (s.refuseSlice n (illegalOperand 0x48 4 c))
    else .next (((s.addSlice o sl).countSlice n).finish 4)
  | none =>
    -- the operation of that number was cancelled or refused (R101, R103)
    if k < s.g.opsBegun n then .next ((s.countSlice n).finish 4)
    else
      -- a follow-on word on a drain is refused whatever it names (R370)
      let fo := if drain then [] else followOps (bits x 63 32)
      if busy s.w fo then .next s.block
      else match scalarFault s.w 4 fo with
      | some t => .next (s.trap t)
      | none =>
        match s.captureFollow drain c with
        | .error t => .next (s.trap t)
        | .ok f =>
          if !s.canBind grp h || decide (16 ≤ (s.queueOf cl e q).length) then .next s.block
          else
            let o : EngineOp :=
              { drain := drain, group := grp, launch := s.g.launch, set := n, num := k, handle := h, recAddr := bits d 47 0
                layout := layoutOf b, buf := bits d 49 48, mcast := bits x 31 24, follow := f
                cb := if d.testBit 50 then some (bits d 53 51) else none
                counted := (List.range 16).filter (s.g.set n).has, slices := [sl] }
            let s := (s.bindHandle grp h (if drain then 3 else 1) .engine).setQueue cl e q (s.queueOf cl e q ++ [o])
            .next (((s.countSlice n).pokeEngines cl).finish 4)

/-- The operands of CPY and CPYD. -/
def opsCopy (v c : Nat) : List Opnd :=
  [{ field := 0, kind := .v, reg := v, src := some 0 }, { field := 4, kind := .s2, reg := c }]

/-- CPY and CPYD from the checks of the record on (R369): its window, codes 0x41 to 0x47, and the slice. -/
def copyRecord (drain : Bool) (v h n c q e : Nat) (s : State) : Out :=
  let p := s.vaReg v
  match s.readRecord (bits (s.sreg c).toNat 47 0) with
  | (_, .error s') => .next s'
  | (s, .ok b) =>
    let starts := (List.range ((layoutOf b).ndim + 1)).map fun d => (lane p d).toInt
    match recordCheck drain s c b starts with
    | some t => .next (s.refuseSlice n t)
    | none => s.copySlice drain h n c q e b { wid := s.w.wid, starts := starts, d := bits (s.sreg (c + 1)).toNat 23 0 }

/-- CPY and CPYD, in the order of R369: skipped where R174 says so; once its operands can be read, the store queue is drained,
then 0x51, 0x52, UNIT_DENIED and 0x40 are checked (log 37), and the start vector and the record are read. -/
def copyInsn (drain : Bool) (v h n c q e : Nat) (s : State) : Out :=
  let os := opsCopy v c
  if (operandTrap s.w 4 os).isNone && !s.w.predBusy && s.skips then .next (s.finish 4)
  else match beforeChecks s 4 os with
  | some s' => .next s'
  | none =>
    let s := s.drain s.cur
    if !s.w.storeQ.isEmpty then .next s.block
    else match copyStatic drain s n c, recordAddrCheck s c with
    | some t, _ => .next (s.trap t)
    | none, some t => .next (s.refuseSlice n t)
    | none, none => withOperands s 4 os none fun s => s.handlesThen [h] (copyRecord drain v h n c q e)

/-- CPY (R369). -/
def execCpy (v h g c q e : Nat) (s : State) : Out := copyInsn false v h g c q e s
/-- CPYD (R369). -/
def execCpyd (v h g c q e : Nat) (s : State) : Out := copyInsn true v h g c q e s

/-! ### Circular buffers (R54, R55, R372, R373) -/

/-- CBSET (R372). -/
def execCbset (c a : Nat) (s : State) : Out :=
  let w := (s.sreg a).toNat
  let x := s.c.cbs.getD c {}
  let count := bits w 47 40
  let slot := bits w 39 28
  let g := s.g
  let size := if w.testBit 62 then g.rw.size else g.ra.size
  let chk :=
    if x.valid = true ∧ x.owner ≠ s.w.group then some (illegalOperand 0x59 0 c)
    else if bits w 61 48 ≠ 0 ∨ bits w 27 12 ≠ 0 ∨ count = 0 ∨ slot = 0 ∨ size < (bits w 11 0 + count * slot) * 128 then
      some (illegalOperand 0x5A 1 a)
    else none
  withOperands s 4 [{ field := 1, kind := .s, reg := a }] chk fun s =>
    let w := (s.sreg a).toNat
    let k := s.c
    if (k.cbs.getD c {}).claimed.isEmpty then
      let y : CBuf :=
        { valid := true, buf := bits w 62 62, count := bits w 47 40, slot := bits w 39 28, base := bits w 11 0
          owner := s.w.group, free := bits w 47 40 }
      .next ((((s.setC { k with cbs := k.cbs.set c y }).pokeEngines (s.g.core / 4))).finish 4)
    else .next s.block

/-- The descriptor is valid and the group's (R373). -/
def cbCheck (s : State) (c field : Nat) (taken : Bool) : Option Trap :=
  let x := s.c.cbs.getD c {}
  if x.valid = false ∨ x.owner ≠ s.w.group ∨ (taken = true ∧ x.taken = 0) then some (illegalOperand 0x5B field c) else none

/-- CBWAIT (R55, R373): once a slot is filled it acquires as for a full handle (R123, R132), with what comes before an acquire.
DEDUCED (log 45): no region can be bound to a circular buffer, so the acquire drops no line. -/
def execCbwait (d c : Nat) (s : State) : Out :=
  tileThen s [{ field := 0, kind := .s, reg := d, dst := true }] (cbCheck s c 1 false) fun s =>
    if (s.c.cbs.getD c {}).filled = 0 then .next s.block
    else
      let r := s.quiet
      if !r.2 then .next r.1.block
      else
        let s := r.1
        let k := s.c
        let x := k.cbs.getD c {}
        let i := x.rdidx
        let y := { x with filled := x.filled - 1, rdidx := (i + 1) % x.count, taken := x.taken + 1 }
        (s.setC { k with cbs := k.cbs.set c y }).putS d (BitVec.ofNat 64 ((x.base + i * x.slot) * 128 % 2 ^ 24 + i * 2 ^ 24))

/-- CBREL (R55, R373). -/
def execCbrel (c : Nat) (s : State) : Out :=
  tileThen s [] (cbCheck s c 0 true) fun s =>
    let k := s.c
    let x := k.cbs.getD c {}
    let y := { x with free := x.free + 1, taken := x.taken - 1 }
    .next (((s.setC { k with cbs := k.cbs.set c y }).pokeEngines (s.g.core / 4)).finish 4)

end Sys2Proof.Machine
end

