-- ==== Sys2Proof/Machine/Elementary.lean ====
section
/-!
DEFINITION. The correctly rounded functions of R324. Each is enclosed between two fixed-point bounds at rising precision
until both bounds round alike; every value that is not listed as exact is irrational, so the rounding is then certain.
-/

namespace Sys2Proof.Machine

/-- A fixed-point estimate: the true value times 2^P lies within `err` of `a`. -/
structure Est where
  a : Int
  err : Nat
  deriving DecidableEq, Repr

/-- `m` × 2^`e` in fixed point with `P` fraction bits, rounded down. -/
def fixed (m : Nat) (e : Int) (P : Nat) : Nat :=
  if 0 ≤ e + P then m * 2 ^ (e + P).toNat else m / 2 ^ (-(e + P)).toNat

/-- Sum of the exponential series at `y` (fixed point), from the term `t` = y^(n−1)/(n−1)! on. -/
def expTerms (P y : Nat) : Nat → Nat → Nat → Nat
  | 0, _, _ => 0
  | fuel + 1, n, t => t + expTerms P y fuel (n + 1) (t * y / 2 ^ P / n)

/-- Squares an estimate `s` times. -/
def squareEst (P : Nat) : Nat → Nat → Nat → Nat × Nat
  | 0, a, err => (a, err)
  | s + 1, a, err => squareEst P s (a * a / 2 ^ P) ((2 * a * err + err * err) / 2 ^ P + 2)

/-- e^(m × 2^e), for a non-negative argument. -/
def expPos (P m : Nat) (e : Int) : Nat × Nat :=
  let s := ((Nat.log2 m : Int) + e + 9).toNat
  let y := fixed m (e - s) P
  let n := P / 8 + 4
  squareEst P s (expTerms P y n 1 (2 ^ P)) (4 * n + 8)

/-- e^x. -/
def expEst (P : Nat) (neg : Bool) (m : Nat) (e : Int) : Est :=
  let r := expPos P m e
  if neg then ⟨(2 ^ (2 * P) / r.1 : Nat), r.2 * 2 ^ (2 * P) / (r.1 * (r.1 - r.2)) + 2⟩ else ⟨(r.1 : Nat), r.2⟩

/-- Sum of u^(2k+1)/(2k+1) from the power `p` = u^n on, `u2` the square of u. -/
def atanhTerms (P u2 : Nat) : Nat → Nat → Nat → Nat
  | 0, _, _ => 0
  | fuel + 1, n, p => p / n + atanhTerms P u2 fuel (n + 2) (p * u2 / 2 ^ P)

/-- log(1 + 2d/(s − d)) = 2 atanh(d/s), for 0 ≤ d/s ≤ 1/3. -/
def log1Est (P d s : Nat) : Nat × Nat :=
  let u := d * 2 ^ P / s
  let n := P / 3 + 4
  (2 * atanhTerms P (u * u / 2 ^ P) n 1 u, 8 * n + 16)

/-- log(m × 2^e), m not zero. -/
def logEst (P m : Nat) (e : Int) : Est :=
  let l := Nat.log2 m
  let E : Int := (l : Int) + e
  let z := log1Est P (m - 2 ^ l) (m + 2 ^ l)
  let two := log1Est P 1 3
  ⟨E * (two.1 : Nat) + (z.1 : Nat), E.natAbs * two.2 + z.2⟩

/-- Sum of ±1/(k n^k) over odd k, from the power `p` = 2^P/n^k on. -/
def atanInvTerms (n : Nat) : Nat → Nat → Nat → Bool → Int
  | 0, _, _, _ => 0
  | fuel + 1, k, p, plus =>
    let t : Int := (p / k : Nat)
    (if plus then t else -t) + atanInvTerms n fuel (k + 2) (p / (n * n)) (!plus)

/-- π × 2^P by Machin's formula, within 2^10 for P below 1,500. -/
def piFixed (P : Nat) : Int :=
  16 * atanInvTerms 5 (P / 4 + 4) 1 (2 ^ P / 5) true - 4 * atanInvTerms 239 (P / 15 + 4) 1 (2 ^ P / 239) true

/-- Sum of the alternating series with terms t·r²/(k(k+1)), from the term `t` on. -/
def trigTerms (P : Nat) (r2 : Int) : Nat → Nat → Int → Int
  | 0, _, _ => 0
  | fuel + 1, k, t => t + trigTerms P r2 fuel (k + 2) (-(t * r2 / 2 ^ P) / ((k * (k + 1) : Nat) : Int))

/-- sin (`shift` = 0) or cos (`shift` = 1) of a finite value: the argument less the nearest multiple of π/2, then the
series of its quadrant. -/
def trigEst (shift P : Nat) (neg : Bool) (m : Nat) (e : Int) : Est :=
  let P2 := P + 160
  let x : Int := (fixed m e P2 : Nat)
  let h := piFixed P2 / 2
  let q := (2 * x + h) / (2 * h)
  let r0 := (x - q * h) / 2 ^ 160
  let r := if neg then -r0 else r0
  let quad := ((if neg then -q else q) + shift) % 4
  let r2 := r * r / 2 ^ P
  let n := P / 4 + 8
  let v := if quad % 2 = 0 then trigTerms P r2 n 2 r else trigTerms P r2 n 1 (2 ^ P)
  ⟨if quad < 2 then v else -v, 8 * n + 32⟩

/-- tanh of a finite value below 64 in magnitude. -/
def tanhEst (P : Nat) (neg : Bool) (m : Nat) (e : Int) : Est :=
  let r := expPos P m (e + 1)
  let t : Int := ((r.1 - 2 ^ P) * 2 ^ P / (r.1 + 2 ^ P) : Nat)
  ⟨if neg then -t else t, r.2 + 4⟩

/-- The rounding of an estimate, if both bounds agree in far more bits than the format holds. -/
def roundEst (c : Fp) (P : Nat) (v : Est) : Option (Nat × Nat) :=
  let lo := v.a.natAbs - v.err
  let hi := v.a.natAbs + v.err
  if lo = 0 then none
  else
    let k := Nat.log2 lo - (c.F.fw + 40)
    if lo / 2 ^ k = hi / 2 ^ k then
      some (roundFin c.F c.R (decide (v.a < 0)) (2 * (lo / 2 ^ k) + 1) ((k : Int) - P - 1))
    else none

/-- The first precision at which the bounds agree. -/
def roundEsts (c : Fp) (f : Nat → Est) : List Nat → Nat × Nat
  | [] => (0, 0)
  | P :: t =>
    match roundEst c P (f P) with
    | some r => r
    | none => roundEsts c f t

/-- The precisions tried (log 80). -/
def precisions : List Nat := [128, 384, 1200]

/-- FEXP's coefficient 0 (R324). Beyond ±128 the result overflows or underflows whatever the rounding. -/
def Fp.exp (c : Fp) (x : Nat) : Nat × Nat :=
  match c.read x with
  | .nan s => (c.F.nan, if s then flagNV else 0)
  | .inf n => (if n then 0 else c.F.inf false, 0)
  | .fin n m e =>
    if m = 0 then (c.F.one, 0)
    else if 7 ≤ (Nat.log2 m : Int) + e then roundFin c.F c.R false 3 (if n then -300 else 300)
    else roundEsts c (fun P => expEst P n m e) precisions

/-- FLOG's coefficient 0 (R324). -/
def Fp.log (c : Fp) (x : Nat) : Nat × Nat :=
  match c.read x with
  | .nan s => (c.F.nan, if s then flagNV else 0)
  | .inf n => if n then (c.F.nan, flagNV) else (c.F.inf false, 0)
  | .fin n m e =>
    if m = 0 then (c.F.inf true, flagDZ)
    else if n then (c.F.nan, flagNV)
    else if eqNum (.fin n m e) (.fin false 1 0) then (0, 0)
    else roundEsts c (fun P => logEst P m e) precisions

/-- FSIN's coefficient 0 (R324). -/
def Fp.sin (c : Fp) (x : Nat) : Nat × Nat :=
  match c.read x with
  | .nan s => (c.F.nan, if s then flagNV else 0)
  | .inf _ => (c.F.nan, flagNV)
  | .fin n m e => if m = 0 then (c.F.zero n, 0) else roundEsts c (fun P => trigEst 0 P n m e) precisions

/-- FCOS's coefficient 0 (R324). -/
def Fp.cos (c : Fp) (x : Nat) : Nat × Nat :=
  match c.read x with
  | .nan s => (c.F.nan, if s then flagNV else 0)
  | .inf _ => (c.F.nan, flagNV)
  | .fin n m e => if m = 0 then (c.F.one, 0) else roundEsts c (fun P => trigEst 1 P n m e) precisions

/-- FTANH's coefficient 0 (R324). Beyond ±64 the value lies between ±(1 − 2^−150) and ±1. -/
def Fp.tanh (c : Fp) (x : Nat) : Nat × Nat :=
  match c.read x with
  | .nan s => (c.F.nan, if s then flagNV else 0)
  | .inf n => (c.F.zero n + c.F.one, 0)
  | .fin n m e =>
    if m = 0 then (c.F.zero n, 0)
    else if 6 ≤ (Nat.log2 m : Int) + e then roundFin c.F c.R n (2 ^ 150 - 1) (-150)
    else roundEsts c (fun P => tanhEst P n m e) precisions

end Sys2Proof.Machine
end

