-- ==== Sys2Proof/Machine/Jet.lean ====
section
/-!
DEFINITION. The series rules of one lane (R318 to R326, R333 to R335): coefficients 0 to k of the result with the flags
of every step, each in the column that R311 gives it.
-/

namespace Sys2Proof.Machine

/-- The coefficients of a lane's result and its flags, in the layout of JSR. -/
abbrev LaneOut := List Nat × Nat

/-- The flags of a column, in the layout of JSR (R315). -/
def inColumn (j f : Nat) : Nat := f * 2 ^ (8 * j)

/-- Element `i` of a list of patterns. -/
def at' (x : List Nat) (i : Nat) : Nat := x.getD i 0

/-- Coefficients j, j + 1, …: each from those before it, its flags in its own column. -/
def seriesFrom (step : Nat → List Nat → Nat × Nat) : Nat → Nat → LaneOut → LaneOut
  | 0, _, acc => acc
  | n + 1, j, acc =>
    let r := step j acc.1
    seriesFrom step n (j + 1) (acc.1 ++ [r.1], acc.2 ||| inColumn j r.2)
/-- Coefficients 0 to k. -/
def series (k : Nat) (step : Nat → List Nat → Nat × Nat) : LaneOut := seriesFrom step (k + 1) 0 ([], 0)

/-- for i := lo to lo + n − 1: s := rnd(x_i × y_(j−i) + s), or with −x_i. -/
def fmaRun (c : Fp) (neg : Bool) (x y : List Nat) (j : Nat) : Nat → Nat → Nat × Nat → Nat × Nat
  | 0, _, s => s
  | n + 1, i, s =>
    let u := at' x i
    let r := c.fma (if neg then c.neg u else u) (at' y (j - i)) s.1
    fmaRun c neg x y j n (i + 1) (r.1, s.2 ||| r.2)

/-- A step after a step: the flags of both. -/
def andThen (s : Nat × Nat) (f : Nat → Nat × Nat) : Nat × Nat := ((f s.1).1, s.2 ||| (f s.1).2)

/-- A whole number as a pattern; exact for the small numbers of the series rules. -/
def Fp.nat (c : Fp) (n : Nat) : Nat := (roundFin c.F {} false n 0).1

/-- FADD (R318). -/
def jetAdd (c : Fp) (k : Nat) (a b : List Nat) : LaneOut := series k fun j _ => c.add (at' a j) (at' b j)
/-- FSUB (R318). -/
def jetSub (c : Fp) (k : Nat) (a b : List Nat) : LaneOut := series k fun j _ => c.sub (at' a j) (at' b j)
/-- FMUL (R319): the Cauchy product of R92. -/
def jetMul (c : Fp) (k : Nat) (a b : List Nat) : LaneOut :=
  series k fun j _ => fmaRun c false a b j j 1 (c.mul (at' a 0) (at' b j))
/-- FFMA (R320). -/
def jetFma (c : Fp) (k : Nat) (a b d : List Nat) : LaneOut :=
  series k fun j _ => fmaRun c false a b j (j + 1) 0 (at' d j, 0)
/-- s / b_0 of R321: a zero divisor is a division by zero for every s that is neither zero nor NaN, an infinite one too. -/
def Fp.quotient (c : Fp) (x y : Nat) : Nat × Nat :=
  let r := c.div x y
  if (c.read y).isZero then
    match c.read x with
    | .inf _ => (r.1, r.2 ||| flagDZ)
    | _ => r
  else r

/-- FDIV (R321). -/
def jetDiv (c : Fp) (k : Nat) (a b : List Nat) : LaneOut :=
  series k fun j r => andThen (fmaRun c true b r j j 1 (at' a j, 0)) fun x => c.quotient x (at' b 0)
/-- FRCP (R321): FDIV with a := (1, +0, …). -/
def jetRcp (c : Fp) (k : Nat) (b : List Nat) : LaneOut := jetDiv c k [c.F.one] b
/-- FSQRT (R322); t belongs to column 1. -/
def jetSqrt (c : Fp) (k : Nat) (a : List Nat) : LaneOut :=
  series k fun j r =>
    if j = 0 then c.sqrt (at' a 0)
    else
      let t := c.mul (c.nat 2) (at' r 0)
      let x := andThen (fmaRun c true r r j (j - 1) 1 (at' a j, 0)) fun x => c.div x t.1
      (x.1, x.2 ||| (if j = 1 then t.2 else 0))
/-- FRSQ (R323, R324): the inner jet q is formed when k ≥ 1. -/
def jetRsq (c : Fp) (k : Nat) (a : List Nat) : LaneOut :=
  let q : LaneOut := if k = 0 then ([], 0) else jetSqrt c k a
  let r := series k fun j r =>
    if j = 0 then c.rsq (at' a 0)
    else andThen (fmaRun c true q.1 r j j 1 (0, 0)) fun x => c.div x (at' q.1 0)
  (r.1, r.2 ||| q.2)

/-- y_i := rnd(i × a_i) for i = 1 to k, with element 0 unused; flags in column i (R325). -/
def jetY (c : Fp) (k : Nat) (a : List Nat) : LaneOut :=
  series k fun i _ => if i = 0 then (0, 0) else c.mul (c.nat i) (at' a i)
/-- rnd(y_1 × x_(j−1)), then y_i × x_(j−i) for i = 2 to j (R325). -/
def yRun (c : Fp) (y x : List Nat) (j : Nat) : Nat × Nat :=
  fmaRun c false y x j (j - 1) 2 (c.mul (at' y 1) (at' x (j - 1)))

/-- FEXP (R324, R325). -/
def jetExp (c : Fp) (k : Nat) (a : List Nat) : LaneOut :=
  let y := jetY c k a
  let r := series k fun j r =>
    if j = 0 then c.exp (at' a 0) else andThen (yRun c y.1 r j) fun x => c.div x (c.nat j)
  (r.1, r.2 ||| y.2)
/-- FLOG (R324, R325); z_i is formed for i = 1 to k − 1, the terms that are used (R313). -/
def jetLog (c : Fp) (k : Nat) (a : List Nat) : LaneOut :=
  let z := fun (r : List Nat) => series (r.length - 1) fun i _ => if i = 0 then (0, 0) else c.mul (c.nat i) (at' r i)
  let r := series k fun j r =>
    if j = 0 then c.log (at' a 0)
    else
      let t := fmaRun c false (z r).1 a j (j - 1) 1 (0, 0)
      let s := andThen (andThen t fun x => c.div x (c.nat j)) fun u => c.sub (at' a j) u
      andThen s fun x => c.div x (at' a 0)
  (r.1, r.2 ||| (z (r.1.take k)).2)
/-- The sine and cosine jets from coefficient j on (R325). -/
def trigFrom (c : Fp) (y : List Nat) : Nat → Nat → List Nat × List Nat × Nat → List Nat × List Nat × Nat
  | 0, _, acc => acc
  | n + 1, j, (sn, cs, fl) =>
    let p := andThen (yRun c y cs j) fun x => c.div x (c.nat j)
    let q := andThen (yRun c y sn j) fun x => c.div (c.neg x) (c.nat j)
    trigFrom c y n (j + 1) (sn ++ [p.1], cs ++ [q.1], fl ||| inColumn j (p.2 ||| q.2))
/-- Both sequences, at k ≥ 1. -/
def jetTrig (c : Fp) (k : Nat) (a : List Nat) : List Nat × List Nat × Nat :=
  let y := jetY c k a
  let s0 := c.sin (at' a 0)
  let g0 := c.cos (at' a 0)
  trigFrom c y.1 k 1 ([s0.1], [g0.1], y.2 ||| s0.2 ||| g0.2)
/-- FSIN (R324, R325). -/
def jetSin (c : Fp) (k : Nat) (a : List Nat) : LaneOut :=
  if k = 0 then ([(c.sin (at' a 0)).1], (c.sin (at' a 0)).2) else ((jetTrig c k a).1, (jetTrig c k a).2.2)
/-- FCOS (R324, R325). -/
def jetCos (c : Fp) (k : Nat) (a : List Nat) : LaneOut :=
  if k = 0 then ([(c.cos (at' a 0)).1], (c.cos (at' a 0)).2) else ((jetTrig c k a).2.1, (jetTrig c k a).2.2)
/-- The jets c and w of FTANH from coefficient j on (R325); `n` coefficients are left. -/
def tanhFrom (c : Fp) (y : List Nat) : Nat → Nat → List Nat × List Nat × Nat → List Nat × List Nat × Nat
  | 0, _, acc => acc
  | n + 1, j, (r, w, fl) =>
    let p := andThen (yRun c y w j) fun x => c.div x (c.nat j)
    let r' := r ++ [p.1]
    let u : Nat × Nat := if n = 0 then (0, 0) else fmaRun c false r' r' j j 1 (c.mul (at' r' 0) (at' r' j))
    tanhFrom c y n (j + 1) (r', w ++ [c.neg u.1], fl ||| inColumn j (p.2 ||| u.2))
/-- FTANH (R324, R325). -/
def jetTanh (c : Fp) (k : Nat) (a : List Nat) : LaneOut :=
  let c0 := c.tanh (at' a 0)
  if k = 0 then ([c0.1], c0.2)
  else
    let y := jetY c k a
    let w0 := c.fma (c.neg c0.1) c0.1 c.F.one
    let r := tanhFrom c y.1 k 1 ([c0.1], [w0.1], c0.2 ||| w0.2 ||| y.2)
    (r.1, r.2.2)

/-- FMIN and FMAX choose a whole jet (R326): `first a b` says that a is taken. -/
def jetSelect (c : Fp) (k : Nat) (first : Num → Num → Bool) (a b : List Nat) : LaneOut :=
  let x := c.read (at' a 0)
  let y := c.read (at' b 0)
  if x.isNan || y.isNan then (List.replicate (k + 1) c.F.nan, if x.isSig || y.isSig then flagNV else 0)
  else
    let p := if first x y then a else b
    series k fun j _ => c.pass (at' p j)
/-- a is below b, or equal, with −0 below +0. -/
def minFirst (x y : Num) : Bool := ltNum x y || (eqNum x y && !(y.neg? && !x.neg?))
/-- a is above b, or equal, with −0 below +0. -/
def maxFirst (x y : Num) : Bool := ltNum y x || (eqNum x y && !(x.neg? && !y.neg?))
/-- FMIN (R326). -/
def jetMin (c : Fp) (k : Nat) (a b : List Nat) : LaneOut := jetSelect c k minFirst a b
/-- FMAX (R326). -/
def jetMax (c : Fp) (k : Nat) (a b : List Nat) : LaneOut := jetSelect c k maxFirst a b

/-- FNEG (R327). -/
def jetNeg (F : Fmt) (k : Nat) (a : List Nat) : LaneOut :=
  ((List.range (k + 1)).map fun j => Fp.neg { F := F } (at' a j), 0)
/-- FABS (R327). -/
def jetAbs (F : Fmt) (k : Nat) (a : List Nat) : LaneOut :=
  if at' a 0 / F.signBit % 2 = 1 then jetNeg F k a else ((List.range (k + 1)).map (at' a), 0)

/-- c_0 alone, the other coefficients +0. -/
def jetOne (k : Nat) (r : Nat × Nat) : LaneOut := (r.1 :: List.replicate k 0, r.2)

/-- a_0 rounded to an integral value (R328). -/
def roundNum (c : Fp) (x : Nat) : Nat × Nat :=
  match c.read x with
  | .nan s => (c.F.nan, if s then flagNV else 0)
  | .inf n => (c.F.inf n, 0)
  | .fin n m e => ((roundFin c.F c.R n (roundAt c.R.rm n m e 0).1 0).1, 0)

/-- The class of stored bits (R329). -/
def classOf (x : Nat) : Nat :=
  match unpack fp32 x with
  | .nan s => if s then 8 else 9
  | .inf n => if n then 0 else 7
  | .fin n m _ =>
    if m = 0 then (if n then 3 else 4)
    else if isSubnormal fp32 x then (if n then 2 else 5)
    else if n then 1 else 6

/-- A comparison of coefficient 0 (R330): the relation, and invalid on any NaN or on a signalling one only. -/
def compareNum (c : Fp) (quiet : Bool) (rel : Num → Num → Bool) (x y : Nat) : Bool × Nat :=
  let a := c.read x
  let b := c.read y
  if a.isNan || b.isNan then (false, if !quiet || a.isSig || b.isSig then flagNV else 0) else (rel a b, 0)

/-- FCVT.i32.f32 (R331); `nan` is the result of a NaN. -/
def toI32 (c : Fp) (nan x : Nat) : Nat × Nat :=
  match c.read x with
  | .nan _ => (nan, flagNV)
  | .inf n => (if n then 2 ^ 31 else 2 ^ 31 - 1, flagNV)
  | .fin n m e =>
    let t := truncNum m e
    let nx := if hasFraction m e then flagNX else 0
    if n then (if 2 ^ 31 < t then (2 ^ 31, flagNV) else ((2 ^ 32 - t) % 2 ^ 32, nx))
    else if 2 ^ 31 ≤ t then (2 ^ 31 - 1, flagNV) else (t, nx)
/-- FCVT.n32.f32 (R331). -/
def toN32 (c : Fp) (x : Nat) : Nat × Nat :=
  match c.read x with
  | .nan _ => (0, flagNV)
  | .inf n => (if n then 0 else 2 ^ 32 - 1, flagNV)
  | .fin n m e =>
    let t := truncNum m e
    let nx := if hasFraction m e then flagNX else 0
    if n then (0, if 1 ≤ t then flagNV else nx)
    else if 2 ^ 32 ≤ t then (2 ^ 32 - 1, flagNV) else (t, nx)

/-- JSEED (R333). -/
def jetSeed (c : Fp) (k : Nat) (a : List Nat) : LaneOut :=
  let r := c.pass (at' a 0)
  (r.1 :: (if k = 0 then [] else c.F.one :: List.replicate (k - 1) 0), r.2)
/-- JDIFF (R335). -/
def jetDiff (c : Fp) (k : Nat) (a : List Nat) : LaneOut :=
  series k fun j _ => if j = k then (0, 0) else c.mul (c.nat (j + 1)) (at' a (j + 1))
/-- JINTEG (R335). -/
def jetInteg (c : Fp) (k : Nat) (a : List Nat) : LaneOut :=
  series k fun j _ => if j = 0 then (0, 0) else c.div (at' a (j - 1)) (c.nat j)
/-- j!. -/
def factorial : Nat → Nat
  | 0 => 1
  | n + 1 => (n + 1) * factorial n
/-- JFACT (R335). -/
def jetFact (c : Fp) (k : Nat) (a : List Nat) : LaneOut := series k fun j _ => c.mul (c.nat (factorial j)) (at' a j)

end Sys2Proof.Machine
end

