-- ==== Sys2Proof/Machine/Flags.lean ====
section
/-!
DEFINITION. Rounding control and floating-point flags: FPCTL (R70), the columns of JSR (R311, R315) and the FLOAT trap
(R312).
-/

namespace Sys2Proof.Machine

/-- RM and FTZ as the instruction is issued under them (R70, R71). -/
def Wave.rounding (w : Wave) : Rounding := { rm := bits w.fpctlNow.toNat 1 0, ftz := w.fpctlNow.getLsbD 2 }

/-- The trap enables of FPCTL, in the order of a JSR column (R70). -/
def Wave.enables (w : Wave) : Nat := bits w.fpctl.toNat 8 4

/-- The lowest column whose flags meet an enable (R312). -/
def enabledColumn (te f : Nat) : Option Nat :=
  (List.range 8).find? fun j => bits f (8 * j + 4) (8 * j) &&& te != 0

/-- The FLOAT trap of an instruction whose lanes raised the flags `fl` (lane, flags), if an enabled one is among them
(R312). FLAGS is 40 bits wide: it holds columns 0 to 4 of the JSR layout (log 34). -/
def floatTrap (te n : Nat) (fl : List (Nat × Nat)) : Option Trap :=
  match fl.find? fun p => (enabledColumn te p.2).isSome with
  | none => none
  | some p =>
    some { cause := 0x09, len := n
           info := BitVec.ofNat 64 (fl.foldr (fun q a => q.2 ||| a) 0 % 2 ^ 40 + 2 ^ 40 * p.1 +
             2 ^ 45 * (enabledColumn te p.2).getD 0) }

/-- A floating-point instruction completes: its flags are ORed into JSR and `k` writes its destination, or it takes a FLOAT
trap without any effect (R311, R312). A regeneration raises no flag and no trap (R191). -/
def State.withFlags (s : State) (n : Nat) (fl : List (Nat × Nat)) (k : State → Out) : Out :=
  if !s.w.regen.isEmpty then k s
  else match floatTrap s.w.enables n fl with
    | some t => .next (s.trap t)
    | none => k (s.setW { s.w with jsr := s.w.jsr ||| BitVec.ofNat 64 (fl.foldr (fun q a => q.2 ||| a) 0) })

end Sys2Proof.Machine
end

