-- ==== Sys2Proof/Machine/LaneInt.lean ====
section
/-!
DEFINITION. The integer lane instructions (R281 to R291, and their C16 forms R257, R258, R280).
-/

namespace Sys2Proof.Machine

/-! ### Operand lists -/

/-- vd, va, vb, each one register. -/
def opsBin (d a b : Nat) : List Opnd :=
  [{ field := 0, kind := .v, reg := d, dst := true }, { field := 1, kind := .v, reg := a, src := some 0 },
   { field := 2, kind := .v, reg := b, src := some 1 }]
/-- vd, va, each one register. -/
def opsUn (d a : Nat) : List Opnd :=
  [{ field := 0, kind := .v, reg := d, dst := true }, { field := 1, kind := .v, reg := a, src := some 0 }]
/-- vd of a C16 form, destination and first source, and vs (R257, R270). -/
def opsC16 (d b : Nat) : List Opnd :=
  [{ field := 0, kind := .v, reg := d, top := 63, src := some 0, dst := true },
   { field := 2, kind := .v, reg := b, top := 31, src := some 1 }]
/-- vd and vs of MOV.C16 and NOT.C16, where vs is the va source (R257). -/
def opsC16Un (d b : Nat) : List Opnd :=
  [{ field := 0, kind := .v, reg := d, top := 63, dst := true },
   { field := 1, kind := .v, reg := b, top := 31, src := some 0 }]
/-- vd is also the third source. -/
def opsTernD (d a b : Nat) : List Opnd :=
  [{ field := 0, kind := .v, reg := d, src := some 2, dst := true }, { field := 1, kind := .v, reg := a, src := some 0 },
   { field := 2, kind := .v, reg := b, src := some 1 }]
/-- The prefix that names the third source: none where that is vd (R267, R280). -/
def Wave.naming (w : Wave) : Option Xmod := if w.preVd then none else w.pre
/-- vd, va, vb and the third source vc of an XMOD, or vd where there is none (R267), of one kind. -/
def opsTern (w : Wave) (k : Kind) (d a b : Nat) : List Opnd :=
  match w.naming with
  | some x =>
    [{ field := 0, kind := k, reg := d, dst := true }, { field := 1, kind := k, reg := a, src := some 0 },
     { field := 2, kind := k, reg := b, src := some 1 }, { field := 3, kind := k, reg := x.vc, src := some 2 }]
  | none =>
    [{ field := 0, kind := k, reg := d, src := some 2, dst := true }, { field := 1, kind := k, reg := a, src := some 0 },
     { field := 2, kind := k, reg := b, src := some 1 }]
/-- The register of the third source (R267). -/
def Wave.third (w : Wave) (d : Nat) : Nat := (w.naming.map (·.vc)).getD d
/-- md, va, vb: a mask destination. -/
def opsCmp (d a b : Nat) : List Opnd :=
  [{ field := 0, kind := .mw, reg := d, dst := false }, { field := 1, kind := .v, reg := a, src := some 0 },
   { field := 2, kind := .v, reg := b, src := some 1 }]
/-- Three 64-bit pairs. -/
def opsBin2 (d a b : Nat) : List Opnd :=
  [{ field := 0, kind := .v2, reg := d, dst := true }, { field := 1, kind := .v2, reg := a, src := some 0 },
   { field := 2, kind := .v2, reg := b, src := some 1 }]

/-! ### Shapes -/

/-- Writes the active lanes of vd and moves on. -/
def State.putV (s : State) (n d : Nat) (x : Lanes) : Out := .next ((s.writeV d x).finish n)

/-- vd[l] := f(va[l], vb[l]) in each active lane. -/
def laneBin (d a b : Nat) (f : Word → Word → Word) (s : State) : Out :=
  withOperands s 4 (opsBin d a b) none fun s =>
    let x := s.vaReg a
    let y := s.vreg b
    s.putV 4 d (lanesOf fun l => f (lane x l) (lane y l))

/-- vd[l] := f(va[l]) in each active lane. -/
def laneUn (d a : Nat) (f : Word → Word) (s : State) : Out :=
  withOperands s 4 (opsUn d a) none fun s =>
    let x := s.vaReg a
    s.putV 4 d (lanesOf fun l => f (lane x l))

/-- vd[l] := f(vd[l], vs[l]), the C16 expansion (R257). -/
def laneC16 (d b : Nat) (f : Word → Word → Word) (s : State) : Out :=
  withOperands s 2 (opsC16 d b) none fun s =>
    let x := s.vaReg d
    let y := s.vreg b
    s.putV 2 d (lanesOf fun l => f (lane x l) (lane y l))

/-- vd[l] := f(vs[l]): MOV.C16 and NOT.C16 (R257, R280). -/
def laneC16Un (d b : Nat) (f : Word → Word) (s : State) : Out :=
  withOperands s 2 (opsC16Un d b) none fun s =>
    let x := s.vaReg b
    s.putV 2 d (lanesOf fun l => f (lane x l))

/-- A third source from vd: vd[l] := f(va[l], vb[l], vd[l]). -/
def laneTernD (d a b : Nat) (f : Word → Word → Word → Word) (s : State) : Out :=
  withOperands s 4 (opsTernD d a b) none fun s =>
    let x := s.vaReg a
    let y := s.vreg b
    let z := s.vreg d
    s.putV 4 d (lanesOf fun l => f (lane x l) (lane y l) (lane z l))

/-! ### The operations (R284 to R287) -/

/-- The shift count: the low 8 bits of the operand; under SHIFTWRAP (R413 bit 0) the low 5. -/
def shiftCount (wrap : Bool) (b : Word) : Nat := if wrap then b.toNat % 32 else b.toNat % 256
/-- Arithmetic shift right (R284). -/
def sarOp (wrap : Bool) (a b : Word) : Word := a.sshiftRight (shiftCount wrap b)
/-- Shift left (R284). -/
def shlOp (wrap : Bool) (a b : Word) : Word := a <<< shiftCount wrap b
/-- Shift right (R284). -/
def shrOp (wrap : Bool) (a b : Word) : Word := a >>> shiftCount wrap b
/-- Rotate left by n mod 32 (R284). -/
def rotOp (a b : Word) : Word := a.rotateLeft (b.toNat % 32)
/-- High half of the signed product (R284). -/
def mulhS (a b : Word) : Word := ((a.signExtend 64 * b.signExtend 64) >>> 32).setWidth 32
/-- High half of the unsigned product (R284). -/
def mulhU (a b : Word) : Word := ((a.setWidth 64 * b.setWidth 64) >>> 32).setWidth 32
/-- The smaller, as .i32. -/
def minS (a b : Word) : Word := if a.slt b then a else b
/-- The larger, as .i32. -/
def maxS (a b : Word) : Word := if a.slt b then b else a
/-- Number of leading zero bits. -/
def clzOp (a : Word) : Word := if a = 0 then 32 else BitVec.ofNat 32 (31 - Nat.log2 a.toNat)
/-- Number of one bits. -/
def popcOp (a : Word) : Word := BitVec.ofNat 32 (countIf (bit a) laneList)
/-- Bit i moves to bit 31 − i. -/
def brevOp (a : Word) : Word := maskOf fun i => bit a (31 - i)
/-- Field position and width of BFX and BFI (R287). -/
def fieldOf (b : Word) : Nat × Nat := (b.toNat % 32, min (bits b.toNat 10 5) 32)
/-- BFX.n32 (R287). -/
def bfxU (a b : Word) : Word := BitVec.ofNat 32 (a.toNat / 2 ^ (fieldOf b).1 % 2 ^ (fieldOf b).2)
/-- BFX.i32 (R287). -/
def bfxS (a b : Word) : Word :=
  if (fieldOf b).2 = 0 then 0 else BitVec.ofInt 32 (sextNat (fieldOf b).2 (bfxU a b).toNat)
/-- BFI (R287). -/
def bfiOp (a b d : Word) : Word :=
  let mask : Word := BitVec.ofNat 32 ((2 ^ (fieldOf b).2 - 1) * 2 ^ (fieldOf b).1)
  (d &&& ~~~mask) ||| ((a <<< (fieldOf b).1) &&& mask)

/-! ### Major 0x01 (R284, R285) -/

/-- IADD (R284). -/
def execIadd (d a b : Nat) (s : State) : Out := laneBin d a b (· + ·) s
/-- ISUB (R284). -/
def execIsub (d a b : Nat) (s : State) : Out := laneBin d a b (· - ·) s
/-- IMUL (R284). -/
def execImul (d a b : Nat) (s : State) : Out := laneBin d a b (· * ·) s
/-- IMULH.i32 (R284). -/
def execImulhI32 (d a b : Nat) (s : State) : Out := laneBin d a b mulhS s
/-- IMULH.n32 (R284). -/
def execImulhN32 (d a b : Nat) (s : State) : Out := laneBin d a b mulhU s
/-- IMIN (R284). -/
def execImin (d a b : Nat) (s : State) : Out := laneBin d a b minS s
/-- IMAX (R284). -/
def execImax (d a b : Nat) (s : State) : Out := laneBin d a b maxS s
/-- AND (R284). -/
def execAnd (d a b : Nat) (s : State) : Out := laneBin d a b (· &&& ·) s
/-- OR (R284). -/
def execOr (d a b : Nat) (s : State) : Out := laneBin d a b (· ||| ·) s
/-- XOR (R284). -/
def execXor (d a b : Nat) (s : State) : Out := laneBin d a b (· ^^^ ·) s
/-- ANDN (R284). -/
def execAndn (d a b : Nat) (s : State) : Out := laneBin d a b (fun x y => x &&& ~~~y) s
/-- SHL (R284). -/
def execShl (d a b : Nat) (s : State) : Out := laneBin d a b (shlOp (s.compat 0)) s
/-- SHR (R284). -/
def execShr (d a b : Nat) (s : State) : Out := laneBin d a b (shrOp (s.compat 0)) s
/-- SAR (R284). -/
def execSar (d a b : Nat) (s : State) : Out := laneBin d a b (sarOp (s.compat 0)) s
/-- ROT (R284); n mod 32 is the same under SHIFTWRAP. -/
def execRot (d a b : Nat) (s : State) : Out := laneBin d a b rotOp s
/-- IMAD (R285): the third source is vd, or vc under an XMOD. -/
def execImad (d a b : Nat) (s : State) : Out :=
  withOperands s 4 (opsTern s.w .v d a b) none fun s =>
    let x := s.vaReg a
    let y := s.vreg b
    let z := s.vreg (s.w.third d)
    s.putV 4 d (lanesOf fun l => lane x l * lane y l + lane z l)

/-! ### Major 0x02 (R286 to R288) -/

/-- IABS (R286). -/
def execIabs (d a : Nat) (s : State) : Out := laneUn d a (fun x => if x.msb then 0 - x else x) s
/-- INEG (R286). -/
def execIneg (d a : Nat) (s : State) : Out := laneUn d a (fun x => 0 - x) s
/-- NOT (R286). -/
def execNot (d a : Nat) (s : State) : Out := laneUn d a (fun x => ~~~x) s
/-- CLZ (R286). -/
def execClz (d a : Nat) (s : State) : Out := laneUn d a clzOp s
/-- POPC (R286). -/
def execPopc (d a : Nat) (s : State) : Out := laneUn d a popcOp s
/-- BREV (R286). -/
def execBrev (d a : Nat) (s : State) : Out := laneUn d a brevOp s
/-- MOV (R286). -/
def execMov (d a : Nat) (s : State) : Out := laneUn d a id s
/-- SEL (R288): every issuing lane is written; the XMOD predicate selects. -/
def execSel (d a b : Nat) (s : State) : Out :=
  withOperands s 4 (opsBin d a b) none fun s =>
    let x := s.vaReg a
    let y := s.vreg b
    let p := s.w.predicate
    let w := s.w.writeV s.w.issuing d (lanesOf fun l => if bit p l then lane x l else lane y l)
    .next ((s.setW w).finish 4)
/-- BFX.i32 (R287). -/
def execBfxI32 (d a b : Nat) (s : State) : Out := laneBin d a b bfxS s
/-- BFX.n32 (R287). -/
def execBfxN32 (d a b : Nat) (s : State) : Out := laneBin d a b bfxU s
/-- BFI (R287). -/
def execBfi (d a b : Nat) (s : State) : Out := laneTernD d a b bfiOp s
/-- ICVT.i8 (R286). -/
def execIcvtI8 (d a : Nat) (s : State) : Out := laneUn d a (fun x => (x.setWidth 8).signExtend 32) s
/-- ICVT.i16 (R286). -/
def execIcvtI16 (d a : Nat) (s : State) : Out := laneUn d a (fun x => (x.setWidth 16).signExtend 32) s

/-- The 64-bit value of a pair in lane `l` (R66). -/
def pairLane (lo hi : Lanes) (l : Nat) : BitVec 64 := lane hi l ++ lane lo l
/-- Writes the active lanes of the pair vd, vd+1. -/
def State.writeV2 (s : State) (d : Nat) (f : Nat → BitVec 64) : State :=
  (s.writeV d (lanesOf fun l => (f l).setWidth 32)).writeV (d + 1) (lanesOf fun l => ((f l) >>> 32).setWidth 32)

/-- ICVT.i64 (R286). -/
def execIcvtI64 (d a : Nat) (s : State) : Out :=
  withOperands s 4 [{ field := 0, kind := .v2, reg := d, dst := true }, { field := 1, kind := .v, reg := a, src := some 0 }]
    none fun s =>
      let x := s.vaReg a
      .next ((s.writeV2 d fun l => (lane x l).signExtend 64).finish 4)
/-- ICVT.i32 (R286). -/
def execIcvtI32 (d a : Nat) (s : State) : Out :=
  withOperands s 4 [{ field := 0, kind := .v, reg := d, dst := true }, { field := 1, kind := .v2, reg := a, src := some 0 }]
    none fun s => s.putV 4 d (s.vaReg a)

/-! ### Major 0x03 (R289, R290) -/

/-- Bit l of md := f(va[l], vb[l]) in each active lane (R289). -/
def laneCmp (d a b : Nat) (f : Word → Word → Bool) (s : State) : Out :=
  withOperands s 4 (opsCmp d a b) none fun s =>
    let x := s.vaReg a
    let y := s.vreg b
    .next ((s.writeM d (maskOf fun l => f (lane x l) (lane y l))).finish 4)

/-- ICMP.EQ (R289). -/
def execIcmpEq (d a b : Nat) (s : State) : Out := laneCmp d a b (· == ·) s
/-- ICMP.LT.i32 (R289). -/
def execIcmpLtI32 (d a b : Nat) (s : State) : Out := laneCmp d a b BitVec.slt s
/-- ICMP.LT.n32 (R289). -/
def execIcmpLtN32 (d a b : Nat) (s : State) : Out := laneCmp d a b BitVec.ult s

/-- A 64-bit operation on pairs (R290). -/
def laneBin64 (d a b : Nat) (f : BitVec 64 → BitVec 64 → BitVec 64) (s : State) : Out :=
  withOperands s 4 (opsBin2 d a b) none fun s =>
    let x := s.vaReg a
    let x' := s.vaReg (a + 1)
    let y := s.vreg b
    let y' := s.vreg (b + 1)
    .next ((s.writeV2 d fun l => f (pairLane x x' l) (pairLane y y' l)).finish 4)

/-- IADD.i64 (R290). -/
def execIaddI64 (d a b : Nat) (s : State) : Out := laneBin64 d a b (· + ·) s
/-- ISUB.i64 (R290). -/
def execIsubI64 (d a b : Nat) (s : State) : Out := laneBin64 d a b (· - ·) s
/-- IMUL.i64 (R290). -/
def execImulI64 (d a b : Nat) (s : State) : Out := laneBin64 d a b (· * ·) s

/-! ### Immediates (R291) -/

/-- IADD with an immediate (R291). -/
def execIaddImm (d a i : Nat) (s : State) : Out := laneUn d a (fun x => x + BitVec.ofInt 32 (sextNat 11 i)) s
/-- SHL with an immediate (R291). -/
def execShlImm (d a i : Nat) (s : State) : Out := laneUn d a (fun x => x <<< i) s
/-- MOVI (R291). -/
def execMovi (d i : Nat) (s : State) : Out :=
  withOperands s 4 [{ field := 0, kind := .v, reg := d, dst := true }] none fun s =>
    s.putV 4 d (lanesOf fun _ => BitVec.ofInt 32 (sextNat 18 i))
/-- LIH (R291). -/
def execLih (d i : Nat) (s : State) : Out :=
  withOperands s 4 [{ field := 0, kind := .v, reg := d, src := some 2, dst := true }] none fun s =>
    let x := s.vreg d
    s.putV 4 d (lanesOf fun l => (BitVec.ofNat 32 (i % 2 ^ 16) <<< 16) ||| (lane x l &&& 0xFFFF))

/-! ### C16 (R257, R258, R280) -/

/-- IADD.C16 (R258). -/
def execIaddC16 (d b : Nat) (s : State) : Out := laneC16 d b (· + ·) s
/-- ISUB.C16 (R258). -/
def execIsubC16 (d b : Nat) (s : State) : Out := laneC16 d b (· - ·) s
/-- IMUL.C16 (R258). -/
def execImulC16 (d b : Nat) (s : State) : Out := laneC16 d b (· * ·) s
/-- AND.C16 (R258). -/
def execAndC16 (d b : Nat) (s : State) : Out := laneC16 d b (· &&& ·) s
/-- OR.C16 (R258). -/
def execOrC16 (d b : Nat) (s : State) : Out := laneC16 d b (· ||| ·) s
/-- XOR.C16 (R258). -/
def execXorC16 (d b : Nat) (s : State) : Out := laneC16 d b (· ^^^ ·) s
/-- SHL.C16 (R258). -/
def execShlC16 (d b : Nat) (s : State) : Out := laneC16 d b (shlOp (s.compat 0)) s
/-- SHR.C16 (R258). -/
def execShrC16 (d b : Nat) (s : State) : Out := laneC16 d b (shrOp (s.compat 0)) s
/-- SAR.C16 (R258). -/
def execSarC16 (d b : Nat) (s : State) : Out := laneC16 d b (sarOp (s.compat 0)) s
/-- MOV.C16 (R258). -/
def execMovC16 (d b : Nat) (s : State) : Out := laneC16Un d b id s
/-- IMIN.C16 (R258). -/
def execIminC16 (d b : Nat) (s : State) : Out := laneC16 d b minS s
/-- IMAX.C16 (R258). -/
def execImaxC16 (d b : Nat) (s : State) : Out := laneC16 d b maxS s
/-- NOT.C16 of Roltik-1 (R280). -/
def execNotC16Roltik1 (d b : Nat) (s : State) : Out := laneC16Un d b (fun x => ~~~x) s

end Sys2Proof.Machine
end

