-- ==== Sys2Proof/Machine/FloatInstr.lean ====
section
/-!
DEFINITION. The floating-point and jet instructions (R310 to R336, and their C16 forms R258).
-/

namespace Sys2Proof.Machine

/-! ### Reading and writing jets (R86, R310) -/

/-- FP64 or FP32. -/
def fmtOf (wide : Bool) : Fmt := if wide then fp64 else fp32
/-- Kind d or f. -/
def jetKind (wide : Bool) : Kind := if wide then .d else .f
/-- Kind v2 or v: one coefficient in a plain register. -/
def plainKind (wide : Bool) : Kind := if wide then .v2 else .v

/-- A format under the FPCTL in force (R71). -/
def State.fp (s : State) (F : Fmt) : Fp := { F := F, R := s.w.rounding }
/-- The value of lane `l` at register `r`, through `read`. -/
def laneVal (read : Nat → Lanes) (wide : Bool) (r l : Nat) : Nat :=
  if wide then (lane (read r) l).toNat + 2 ^ 32 * (lane (read (r + 1)) l).toNat else (lane (read r) l).toNat
/-- Coefficients 0 to k of lane `l` of the jet at register `r`. -/
def jetVal (read : Nat → Lanes) (wide : Bool) (r k l : Nat) : List Nat :=
  (List.range (k + 1)).map fun j => laneVal read wide (r + j * (if wide then 2 else 1)) l

/-- Writes a value of each active lane to register `d`, or to the pair. -/
def State.writeVal (s : State) (wide : Bool) (d : Nat) (f : Nat → Nat) : State :=
  if wide then s.writeV2 d fun l => BitVec.ofNat 64 (f l) else s.writeV d (lanesOf fun l => BitVec.ofNat 32 (f l))
/-- Writes coefficients 0 to k. -/
def State.writeJet (s : State) (wide : Bool) (d : Nat) (f : Nat → List Nat) : State :=
  (List.range (s.w.order + 1)).foldl
    (fun s j => s.writeVal wide (d + j * (if wide then 2 else 1)) fun l => at' (f l) j) s

/-- The results of the active lanes, lane by lane. -/
def laneResults (m : Word) (f : Nat → LaneOut) : List LaneOut := laneList.map fun l => if bit m l then f l else ([], 0)
/-- The flags of the active lanes. -/
def laneFlags (m : Word) (r : List LaneOut) : List (Nat × Nat) := (lanesIn m).map fun l => (l, (r.getD l ([], 0)).2)

/-- An instruction of `n` bytes whose lanes give the coefficients of the jet at `d`, with their flags (R310, R311). -/
def State.jetThen (s : State) (n : Nat) (wide : Bool) (d : Nat) (f : Nat → LaneOut) : Out :=
  let r := laneResults s.w.active f
  s.withFlags n (laneFlags s.w.active r) fun s =>
    .next ((s.writeJet wide d fun l => (r.getD l ([], 0)).1).finish n)
/-- An instruction whose lanes give one value of register `d`; its flags go to column 0 (R311). -/
def State.valThen (s : State) (wide : Bool) (d : Nat) (f : Nat → Nat × Nat) : Out :=
  let r := laneResults s.w.active fun l => ([(f l).1], (f l).2)
  s.withFlags 4 (laneFlags s.w.active r) fun s =>
    .next ((s.writeVal wide d fun l => at' (r.getD l ([], 0)).1 0).finish 4)

/-! ### Shapes -/

/-- vd, va, vb, three jets. -/
def opsJet3 (k : Kind) (d a b : Nat) : List Opnd :=
  [{ field := 0, kind := k, reg := d, dst := true }, { field := 1, kind := k, reg := a, src := some 0 },
   { field := 2, kind := k, reg := b, src := some 1 }]
/-- vd, va. -/
def opsJet2 (kd ka : Kind) (d a : Nat) (sel : Option (Nat × Nat) := none) : List Opnd :=
  [{ field := 0, kind := kd, reg := d, dst := true }, { field := 1, kind := ka, reg := a, src := some 0, sel := sel }]

/-- c := f(a, b). -/
def jetBin (wide : Bool) (d a b : Nat) (f : Fp → Nat → List Nat → List Nat → LaneOut) (s : State) : Out :=
  withOperands s 4 (opsJet3 (jetKind wide) d a b) none fun s =>
    let k := s.w.order
    s.jetThen 4 wide d fun l => f (s.fp (fmtOf wide)) k (jetVal s.vaReg wide a k l) (jetVal s.vreg wide b k l)
/-- c := f(a). -/
def jetUn (wide : Bool) (d a : Nat) (f : Fp → Nat → List Nat → LaneOut) (s : State) (sel : Option (Nat × Nat) := none) : Out :=
  withOperands s 4 (opsJet2 (jetKind wide) (jetKind wide) d a sel) none fun s =>
    let k := s.w.order
    s.jetThen 4 wide d fun l => f (s.fp (fmtOf wide)) k (jetVal s.vaReg wide a k l)
/-- c := a × b + third source (R320), rounded under RM `rm` where one is given. -/
def jetTern (wide : Bool) (rm : Option Nat) (d a b : Nat) (s : State) : Out :=
  withOperands s 4 (opsTern s.w (jetKind wide) d a b) none fun s =>
    let k := s.w.order
    let R := s.w.rounding
    let c : Fp := { F := fmtOf wide, R := { R with rm := rm.getD R.rm } }
    s.jetThen 4 wide d fun l =>
      jetFma c k (jetVal s.vaReg wide a k l) (jetVal s.vreg wide b k l) (jetVal s.vreg wide (s.w.third d) k l)
/-- vd := f(vd, vs), the C16 form (R257, R270). -/
def jetC16 (d b : Nat) (f : Fp → Nat → List Nat → List Nat → LaneOut) (s : State) : Out :=
  withOperands s 2
    [{ field := 0, kind := .f, reg := d, top := 63, src := some 0, dst := true },
     { field := 2, kind := .f, reg := b, top := 31, src := some 1 }] none fun s =>
    let k := s.w.order
    s.jetThen 2 false d fun l => f (s.fp fp32) k (jetVal s.vaReg false d k l) (jetVal s.vreg false b k l)

/-! ### Arithmetic (R318 to R323) -/

/-- FADD.f32 (R318). -/
def execFaddF32 (d a b : Nat) (s : State) : Out := jetBin false d a b jetAdd s
/-- FSUB.f32 (R318). -/
def execFsubF32 (d a b : Nat) (s : State) : Out := jetBin false d a b jetSub s
/-- FMUL.f32 (R319). -/
def execFmulF32 (d a b : Nat) (s : State) : Out := jetBin false d a b jetMul s
/-- FFMA.f32 (R320). -/
def execFfmaF32 (d a b : Nat) (s : State) : Out := jetTern false none d a b s
/-- FDIV.f32 (R321). -/
def execFdivF32 (d a b : Nat) (s : State) : Out := jetBin false d a b jetDiv s
/-- FMIN.f32 (R326). -/
def execFminF32 (d a b : Nat) (s : State) : Out := jetBin false d a b jetMin s
/-- FMAX.f32 (R326). -/
def execFmaxF32 (d a b : Nat) (s : State) : Out := jetBin false d a b jetMax s
/-- FRCP.f32 (R321). -/
def execFrcpF32 (d a : Nat) (s : State) : Out := jetUn false d a jetRcp s
/-- FSQRT.f32 (R322). -/
def execFsqrtF32 (d a : Nat) (s : State) : Out := jetUn false d a jetSqrt s
/-- FRSQ.f32 (R323). -/
def execFrsqF32 (d a : Nat) (s : State) : Out := jetUn false d a jetRsq s
/-- FABS.f32 (R327). -/
def execFabsF32 (d a : Nat) (s : State) : Out := jetUn false d a (fun _ => jetAbs fp32) s
/-- FNEG.f32 (R327). -/
def execFnegF32 (d a : Nat) (s : State) : Out := jetUn false d a (fun _ => jetNeg fp32) s
/-- FCLASS.f32 (R329). -/
def execFclassF32 (d a : Nat) (s : State) : Out :=
  withOperands s 4 (opsJet2 .v .f d a (some (0, 1))) none fun s =>
    .next ((s.writeVal false d fun l => 2 ^ classOf (laneVal s.vaReg false a l)).finish 4)
/-- FROUND.f32 (R328). -/
def execFroundF32 (d a : Nat) (s : State) : Out :=
  withOperands s 4 (opsJet2 .f .f d a (some (0, 1))) none fun s =>
    s.jetThen 4 false d fun l => jetOne s.w.order (roundNum (s.fp fp32) (laneVal s.vaReg false a l))
/-- FFMA.f32.RN (R320). -/
def execFfmaF32Rn (d a b : Nat) (s : State) : Out := jetTern false (some 0) d a b s
/-- FFMA.f32.RZ (R320). -/
def execFfmaF32Rz (d a b : Nat) (s : State) : Out := jetTern false (some 1) d a b s
/-- FADD.f64 (R318). -/
def execFaddF64 (d a b : Nat) (s : State) : Out := jetBin true d a b jetAdd s
/-- FSUB.f64 (R318). -/
def execFsubF64 (d a b : Nat) (s : State) : Out := jetBin true d a b jetSub s
/-- FMUL.f64 (R319). -/
def execFmulF64 (d a b : Nat) (s : State) : Out := jetBin true d a b jetMul s
/-- FFMA.f64 (R320). -/
def execFfmaF64 (d a b : Nat) (s : State) : Out := jetTern true none d a b s
/-- FDIV.f64 (R321). -/
def execFdivF64 (d a b : Nat) (s : State) : Out := jetBin true d a b jetDiv s
/-- FMIN.f64 (R326). -/
def execFminF64 (d a b : Nat) (s : State) : Out := jetBin true d a b jetMin s
/-- FMAX.f64 (R326). -/
def execFmaxF64 (d a b : Nat) (s : State) : Out := jetBin true d a b jetMax s
/-- FSQRT.f64 (R322). -/
def execFsqrtF64 (d a : Nat) (s : State) : Out := jetUn true d a jetSqrt s
/-- FABS.f64 (R327). -/
def execFabsF64 (d a : Nat) (s : State) : Out := jetUn true d a (fun _ => jetAbs fp64) s
/-- FNEG.f64 (R327). -/
def execFnegF64 (d a : Nat) (s : State) : Out := jetUn true d a (fun _ => jetNeg fp64) s

/-! ### Special functions (R324, R325) -/

/-- FEXP.f32. -/
def execFexpF32 (d a : Nat) (s : State) : Out := jetUn false d a jetExp s
/-- FLOG.f32. -/
def execFlogF32 (d a : Nat) (s : State) : Out := jetUn false d a jetLog s
/-- FSIN.f32. -/
def execFsinF32 (d a : Nat) (s : State) : Out := jetUn false d a jetSin s
/-- FCOS.f32. -/
def execFcosF32 (d a : Nat) (s : State) : Out := jetUn false d a jetCos s
/-- FTANH.f32. -/
def execFtanhF32 (d a : Nat) (s : State) : Out := jetUn false d a jetTanh s

/-! ### Comparison (R330) -/

/-- Bit l of md := the relation of coefficient 0. -/
def jetCmp (wide quiet : Bool) (d a b : Nat) (rel : Num → Num → Bool) (s : State) : Out :=
  withOperands s 4
    [{ field := 0, kind := .mw, reg := d },
     { field := 1, kind := jetKind wide, reg := a, src := some 0, sel := some (0, 1) },
     { field := 2, kind := jetKind wide, reg := b, src := some 1, sel := some (0, 1) }] none fun s =>
    let r := laneResults s.w.active fun l =>
      let q := compareNum (s.fp (fmtOf wide)) quiet rel (laneVal s.vaReg wide a l) (laneVal s.vreg wide b l)
      ([q.1.toNat], q.2)
    s.withFlags 4 (laneFlags s.w.active r) fun s =>
      .next ((s.writeM d (maskOf fun l => at' (r.getD l ([], 0)).1 0 == 1)).finish 4)
/-- ≤. -/
def leNum (x y : Num) : Bool := ltNum x y || eqNum x y

/-- FCMP.EQ.f32 (R330). -/
def execFcmpEqF32 (d a b : Nat) (s : State) : Out := jetCmp false true d a b eqNum s
/-- FCMP.LT.f32 (R330). -/
def execFcmpLtF32 (d a b : Nat) (s : State) : Out := jetCmp false false d a b ltNum s
/-- FCMP.LE.f32 (R330). -/
def execFcmpLeF32 (d a b : Nat) (s : State) : Out := jetCmp false false d a b leNum s
/-- FCMP.EQ.f64 (R330). -/
def execFcmpEqF64 (d a b : Nat) (s : State) : Out := jetCmp true true d a b eqNum s
/-- FCMP.LT.f64 (R330). -/
def execFcmpLtF64 (d a b : Nat) (s : State) : Out := jetCmp true false d a b ltNum s
/-- FCMP.LE.f64 (R330). -/
def execFcmpLeF64 (d a b : Nat) (s : State) : Out := jetCmp true false d a b leNum s

/-! ### Conversions (R331) -/

/-- FCVT.f64.f32. -/
def execFcvtF64F32 (d a : Nat) (s : State) : Out :=
  withOperands s 4 (opsJet2 .d .f d a) none fun s =>
    let k := s.w.order
    s.jetThen 4 true d fun l =>
      let x := jetVal s.vaReg false a k l
      series k fun j _ => (s.fp fp64).convert fp32 (at' x j)
/-- FCVT.f32.f64. -/
def execFcvtF32F64 (d a : Nat) (s : State) : Out :=
  withOperands s 4 (opsJet2 .f .d d a) none fun s =>
    let k := s.w.order
    s.jetThen 4 false d fun l =>
      let x := jetVal s.vaReg true a k l
      series k fun j _ => (s.fp fp32).convert fp64 (at' x j)
/-- A whole number of each lane becomes coefficient 0. -/
def fromInt (d a : Nat) (read : Word → Int) (s : State) : Out :=
  withOperands s 4 (opsJet2 .f .v d a) none fun s =>
    s.jetThen 4 false d fun l => jetOne s.w.order ((s.fp fp32).ofInt (read (lane (s.vaReg a) l)))
/-- FCVT.f32.i32. -/
def execFcvtF32I32 (d a : Nat) (s : State) : Out := fromInt d a BitVec.toInt s
/-- FCVT.f32.n32. -/
def execFcvtF32N32 (d a : Nat) (s : State) : Out := fromInt d a (fun x => (x.toNat : Int)) s
/-- FCVT.i32.f32; under CVTNAN (R413 bit 1) a NaN gives 0x8000_0000. -/
def execFcvtI32F32 (d a : Nat) (s : State) : Out :=
  withOperands s 4 (opsJet2 .v .f d a (some (0, 1))) none fun s =>
    s.valThen false d fun l => toI32 (s.fp fp32) (if s.compat 1 then 2 ^ 31 else 0) (laneVal s.vaReg false a l)
/-- FCVT.n32.f32. -/
def execFcvtN32F32 (d a : Nat) (s : State) : Out :=
  withOperands s 4 (opsJet2 .v .f d a (some (0, 1))) none fun s =>
    s.valThen false d fun l => toN32 (s.fp fp32) (laneVal s.vaReg false a l)
/-- Two values packed into a pair, with the flags of both. -/
def packPair (x y : Nat × Nat) : Nat × Nat := (x.1 + 2 ^ 16 * y.1, x.2 ||| y.2)
/-- FCVT into a packed pair. -/
def toPair (F : Fmt) (d a b : Nat) (s : State) : Out :=
  withOperands s 4
    [{ field := 0, kind := .p, reg := d, dst := true }, { field := 1, kind := .v, reg := a, src := some 0 },
     { field := 2, kind := .v, reg := b, src := some 1 }] none fun s =>
    s.valThen false d fun l =>
      packPair ((s.fp F).convert fp32 (lane (s.vaReg a) l).toNat) ((s.fp F).convert fp32 (lane (s.vreg b) l).toNat)
/-- FCVT.bf16.f32. -/
def execFcvtBf16F32 (d a b : Nat) (s : State) : Out := toPair bf16 d a b s
/-- FCVT.f16.f32. -/
def execFcvtF16F32 (d a b : Nat) (s : State) : Out := toPair fp16 d a b s
/-- Element `e` of a pair (R66). -/
def element (x : Word) (e : Nat) : Nat := x.toNat / 2 ^ (16 * e) % 2 ^ 16
/-- FCVT.f32.f16. -/
def execFcvtF32F16 (d a e : Nat) (s : State) : Out :=
  withOperands s 4 (opsJet2 .v .p d a) none fun s =>
    s.valThen false d fun l => (s.fp fp32).convert fp16 (element (lane (s.vaReg a) l) e)

/-! ### Packed 16-bit arithmetic (R332) -/

/-- Both elements of a pair. -/
def packBin (F : Fmt) (d a b : Nat) (f : Fp → Nat → Nat → Nat × Nat) (s : State) : Out :=
  withOperands s 4 (opsJet3 .p d a b) none fun s =>
    s.valThen false d fun l =>
      let x := lane (s.vaReg a) l
      let y := lane (s.vreg b) l
      packPair (f (s.fp F) (element x 0) (element y 0)) (f (s.fp F) (element x 1) (element y 1))
/-- HFMA2. -/
def packFma (F : Fmt) (d a b : Nat) (s : State) : Out :=
  withOperands s 4 (opsTern s.w .p d a b) none fun s =>
    s.valThen false d fun l =>
      let x := lane (s.vaReg a) l
      let y := lane (s.vreg b) l
      let z := lane (s.vreg (s.w.third d)) l
      packPair ((s.fp F).fma (element x 0) (element y 0) (element z 0))
        ((s.fp F).fma (element x 1) (element y 1) (element z 1))
/-- HADD2.bf16. -/
def execHadd2Bf16 (d a b : Nat) (s : State) : Out := packBin bf16 d a b Fp.add s
/-- HMUL2.bf16. -/
def execHmul2Bf16 (d a b : Nat) (s : State) : Out := packBin bf16 d a b Fp.mul s
/-- HFMA2.bf16. -/
def execHfma2Bf16 (d a b : Nat) (s : State) : Out := packFma bf16 d a b s
/-- HADD2.f16. -/
def execHadd2F16 (d a b : Nat) (s : State) : Out := packBin fp16 d a b Fp.add s
/-- HMUL2.f16. -/
def execHmul2F16 (d a b : Nat) (s : State) : Out := packBin fp16 d a b Fp.mul s
/-- HFMA2.f16. -/
def execHfma2F16 (d a b : Nat) (s : State) : Out := packFma fp16 d a b s

/-! ### Seeding, moving and reshaping (R333 to R335) -/

/-- JSEED reads coefficient 0 alone. -/
def seed (wide : Bool) (d a : Nat) (s : State) : Out :=
  withOperands s 4 (opsJet2 (jetKind wide) (jetKind wide) d a (some (0, 1))) none fun s =>
    s.jetThen 4 wide d fun l => jetSeed (s.fp (fmtOf wide)) s.w.order [laneVal s.vaReg wide a l]
/-- JSEED.f32 (R333). -/
def execJseedF32 (d a : Nat) (s : State) : Out := seed false d a s
/-- JSEED.f64 (R333). -/
def execJseedF64 (d a : Nat) (s : State) : Out := seed true d a s

/-- A coefficient index above JORD (R336): field 2 holds it. -/
def indexTrap (w : Wave) (n : Nat) : Option Trap := if w.order < n then some (illegalOperand 0x20 2 n) else none
/-- Registers from the start of a jet to its coefficient `n`. -/
def coefOff (wide : Bool) (n : Nat) : Nat := n * (if wide then 2 else 1)
/-- JEXT: coefficient `n` of the jet va to a plain register. -/
def extract (wide : Bool) (d a n : Nat) (s : State) : Out :=
  withOperands s 4 (opsJet2 (plainKind wide) (jetKind wide) d a (some (n, 1))) (indexTrap s.w n) fun s =>
    .next ((s.writeVal wide d fun l => laneVal s.vaReg wide (a + coefOff wide n) l).finish 4)
/-- JEXT.f32 (R334). -/
def execJextF32 (d a n : Nat) (s : State) : Out := extract false d a n s
/-- JEXT.f64 (R334). -/
def execJextF64 (d a n : Nat) (s : State) : Out := extract true d a n s
/-- JINS: a plain register to coefficient `n` of the jet vd. -/
def insert (wide : Bool) (d a n : Nat) (s : State) : Out :=
  withOperands s 4
    [{ field := 0, kind := jetKind wide, reg := d, dst := true, sel := some (n, 1) },
     { field := 1, kind := plainKind wide, reg := a, src := some 0 }] (indexTrap s.w n) fun s =>
    .next ((s.writeVal wide (d + coefOff wide n) fun l => laneVal s.vaReg wide a l).finish 4)
/-- JINS.f32 (R334). -/
def execJinsF32 (d a n : Nat) (s : State) : Out := insert false d a n s
/-- JINS.f64 (R334). -/
def execJinsF64 (d a n : Nat) (s : State) : Out := insert true d a n s
/-- JDIFF.f32 (R335): it uses the coefficients from a_1 on (R310). -/
def execJdiffF32 (d a : Nat) (s : State) : Out := jetUn false d a jetDiff s (some (1, s.w.order))
/-- JDIFF.f64 (R335): it uses the coefficients from a_1 on (R310). -/
def execJdiffF64 (d a : Nat) (s : State) : Out := jetUn true d a jetDiff s (some (1, s.w.order))
/-- JINTEG.f32 (R335): a_k is not read. -/
def execJintegF32 (d a : Nat) (s : State) : Out := jetUn false d a jetInteg s (some (0, s.w.order))
/-- JINTEG.f64 (R335): a_k is not read. -/
def execJintegF64 (d a : Nat) (s : State) : Out := jetUn true d a jetInteg s (some (0, s.w.order))
/-- JFACT.f32 (R335). -/
def execJfactF32 (d a : Nat) (s : State) : Out := jetUn false d a jetFact s
/-- JFACT.f64 (R335). -/
def execJfactF64 (d a : Nat) (s : State) : Out := jetUn true d a jetFact s

/-! ### JORD and JSR (R314 to R317) -/

/-- SETJORD (R316). -/
def execSetjord (k : Nat) (s : State) : Out :=
  withOperands s 4 [] none fun s => .next ((s.setW { s.w with jord := BitVec.ofNat 64 (k % 8) }).finish 4)
/-- JSRR (R317). -/
def execJsrr (d : Nat) (s : State) : Out := withOperands s 4 (opsS1 d) none fun s => s.putS d s.w.jsr
/-- The 40 flag bits of JSR (R315). -/
def jsrBits : DWord := 0x1F1F1F1F1F1F1F1F
/-- JSRC (R317). -/
def execJsrc (a : Nat) (s : State) : Out :=
  withOperands s 4 [{ field := 1, kind := .s, reg := a }]
    (if s.sreg a &&& ~~~jsrBits = 0 then none else some (illegalOperand 0x21 1 a)) fun s =>
    .next ((s.setW { s.w with jsr := s.w.jsr &&& ~~~(s.sreg a) }).finish 4)

/-! ### C16 (R258) -/

/-- FADD.f32.C16. -/
def execFaddF32C16 (d b : Nat) (s : State) : Out := jetC16 d b jetAdd s
/-- FSUB.f32.C16. -/
def execFsubF32C16 (d b : Nat) (s : State) : Out := jetC16 d b jetSub s
/-- FMUL.f32.C16. -/
def execFmulF32C16 (d b : Nat) (s : State) : Out := jetC16 d b jetMul s
/-- FMAX.f32.C16. -/
def execFmaxF32C16 (d b : Nat) (s : State) : Out := jetC16 d b jetMax s

end Sys2Proof.Machine
end

