-- ==== Sys2Proof/Machine/Memory.lean ====
section
/-!
DEFINITION. The M-format instructions (R337 to R351): loads, stores, atomics, the lock primitives and PREF.
-/

namespace Sys2Proof.Machine

/-! ### Operands -/

/-- v or v2 by width (R66). -/
def dataKind (w : Nat) : Kind := if w = 3 then .v2 else .v
/-- The registers of a data field. -/
def dataRegs (w d : Nat) : List Nat := if w = 3 then [d, d + 1] else [d]
/-- vdata as destination, voff, sbase. -/
def opsLoad (d s o w : Nat) : List Opnd :=
  [{ field := 0, kind := dataKind w, reg := d, dst := true }, { field := 1, kind := .v, reg := o, src := some 0 },
   { field := 4, kind := .s, reg := s }]
/-- vdata as source, voff, sbase. -/
def opsStore (d s o w : Nat) : List Opnd :=
  [{ field := 0, kind := dataKind w, reg := d, src := some 1 }, { field := 1, kind := .v, reg := o, src := some 0 },
   { field := 4, kind := .s, reg := s }]
/-- vdata as operand and result, voff, sbase; the second register of .CAS is read only (R347). -/
def opsAtom (d s o w p : Nat) : List Opnd :=
  let step := if w = 3 then 2 else 1
  [{ field := 0, kind := dataKind w, reg := d, src := some 1, dst := true }] ++
    (if p = 9 ∧ d % (2 * step) = 0 then [{ field := 0, kind := dataKind w, reg := d + step, src := some 1 }] else []) ++
    [{ field := 1, kind := .v, reg := o, src := some 0 }, { field := 4, kind := .s, reg := s }]

/-- An empty result for the registers of a data field. -/
def emptyResult (s : State) (w d : Nat) : Pending :=
  { tag := 0, vregs := (dataRegs w d).map fun r => (r, zeroLanes), lanes := s.w.active }
/-- The value of a data register of `w`, in lane `l` (R339). -/
def dataVal (s : State) (w d l : Nat) : Nat :=
  if w = 3 then (pairOf (s.vreg d) (s.vreg (d + 1)) l) else (lane (s.vreg d) l).toNat
where
  /-- the 64-bit value of a pair -/
  pairOf (lo hi : Lanes) (l : Nat) : Nat := (lane lo l).toNat + 2 ^ 32 * (lane hi l).toNat

/-- With no active lane a load's destination is marked full at once (R338). -/
def State.fullNow (s : State) (w d : Nat) : State := (dataRegs w d).foldl (fun s r => s.writeV r zeroLanes) s

/-- No mask beside the data. -/
def noMask : List Located → Pending → Pending := fun _ p => p

/-! ### Loads (R341, R343 to R345) -/

/-- LD (R341). -/
def execLd (d s o w _h i : Nat) (st : State) : Out :=
  withOperands st 4 (opsLoad d s o w) none fun st =>
    if st.w.active = 0 then .next ((st.fullNow w d).finish 4)
    else st.loadThen {} (2 ^ w) (st.laneReqs s o i (2 ^ w)) (emptyResult · w d) noMask false

/-- A voff field that must be zero (R340 code 0x3B). -/
def voffCheck (o : Nat) : Option Trap := if o = 0 then none else some (illegalOperand 0x3B 1 o)
/-- One access for the whole wave: the lowest active lane stands for it (R343). -/
def State.waveReq (st : State) (s i n lane : Nat) (lanes : Word) : List Req :=
  [{ lane := lane, lanes := lanes, addr := laneAddr (st.sreg s) 0 i n }]

/-- LDB (R343). -/
def execLdb (d s o w _h i : Nat) (st : State) : Out :=
  withOperands st 4 [{ field := 0, kind := dataKind w, reg := d, dst := true }, { field := 4, kind := .s, reg := s }]
    (voffCheck o) fun st =>
    match lowestLane st.w.active with
    | none => .next ((st.fullNow w d).finish 4)
    | some l =>
      st.loadThen { stack := false } (2 ^ w) (st.waveReq s i (2 ^ w) l st.w.active) (emptyResult · w d) noMask false

/-- A scalar access to the stack window has no lane: APERTURE_HOLE (R344). -/
def scalarHole (a : Nat) : Option MemFault :=
  match window a with
  | .stack _ => some (aperture rHole a)
  | _ => none

/-- LDB.X (R344). -/
def execLdbX (d s o w i : Nat) (st : State) : Out :=
  withOperands st 4 [{ field := 0, kind := .s, reg := d, dst := true }, { field := 4, kind := .s, reg := s }] (voffCheck o)
    fun st =>
    match scalarHole (laneAddr (st.sreg s) 0 i (2 ^ w)) with
    | some f => .next (st.memFault f {} 0)
    | none =>
      st.loadThen {} (2 ^ w) (st.waveReq s i (2 ^ w) 0 0) (fun _ => { tag := 0, sreg := some (d, 0) }) noMask false

/-- The lanes whose page is not resident (R345). -/
def absentLanes (l : List Located) : Word :=
  l.foldl (fun m x =>
    match x.2 with
    | .ok _ => m
    | .error _ => m ||| x.1.lanes) 0

/-- LDR (R345): bit l of the mask says that the page of lane l is not resident; under LDRMASK (R413 bit 2) the bits of
inactive lanes become 0. -/
def execLdr (d s o w m : Nat) (st : State) : Out :=
  let os := opsLoad d s o w ++ [{ field := 2, kind := .mw, reg := m }]
  withOperands st 4 os none fun st =>
    let act := st.w.active
    let lanes : Word := if st.compat 2 then 0xFFFFFFFF else act
    st.loadThen {} (2 ^ w) (st.laneReqs s o 0 (2 ^ w)) (emptyResult · w d)
      (fun l p => { p with mask := some (m, lanes, absentLanes l) }) true

/-- The registers of a PREF cannot be read now: it takes no part in their waits and traps (R346). -/
def prefBlind (w : Wave) (os : List Opnd) (o : Nat) : Bool :=
  busy w os || (scalarFault w 4 os).isSome || (askReg w 4 0 o).isSome

/-- PREF (R346): lanes whose check would fail, and lanes in a buffer or in the host window, are dropped; with a register that
cannot be read it has no effect. -/
def execPref (s o w _h i : Nat) (st : State) : Out :=
  let os : List Opnd := [{ field := 1, kind := .v, reg := o, src := some 0 }, { field := 4, kind := .s, reg := s }]
  match operandTrap st.w 4 os with
  | some t => .next (st.trap t)
  | none =>
    if prefBlind st.w os o then .next (st.finish 4)
    else
      let st := st.setW (st.w.touch st.now os)
      let r := locateAll {} {} (2 ^ w) st (st.laneReqs s o i (2 ^ w))
      let st := r.2.foldl (fun st x => (Located.pieces x).foldl (fun st p =>
        match p.1 with
        | .phys pa _ => (st.l1Load st.g.core st.g.ctx pa p.2).1
        | _ => st) st) r.1
      .next (st.finish 4)

/-! ### Stores (R342, R344) -/

/-- ST (R342). -/
def execSt (d s o w _h i : Nat) (st : State) : Out :=
  withOperands st 4 (opsStore d s o w) none fun st =>
    st.storeThen {} (2 ^ w) (st.laneReqs s o i (2 ^ w)) (dataVal st w d)

/-- ST.X (R344). -/
def execStX (d s o w i : Nat) (st : State) : Out :=
  withOperands st 4 [{ field := 0, kind := .s, reg := d }, { field := 4, kind := .s, reg := s }] (voffCheck o) fun st =>
    match scalarHole (laneAddr (st.sreg s) 0 i (2 ^ w)) with
    | some f => .next (st.memFault f { write := true } 0)
    | none => st.storeThen {} (2 ^ w) (st.waveReq s i (2 ^ w) 0 0) fun _ => (st.sreg d).toNat

/-! ### Atomics (R347 to R349) -/

/-- .CAS places its operands in two registers or pairs (R347). -/
def casCheck (d w p : Nat) : Option Trap :=
  if p = 9 ∧ d % (if w = 3 then 4 else 2) ≠ 0 then some (illegalOperand 0x30 0 d) else none
/-- Operand and comparand of lane `l`. -/
def atomVals (st : State) (d w p l : Nat) : Nat × Nat :=
  if p = 9 then (dataVal st w (d + if w = 3 then 2 else 1) l, dataVal st w d l) else (dataVal st w d l, 0)

/-- The physical pieces of a lane's atomic: address, expiry, bytes. -/
def physPieces (x : Located) : List (Nat × Nat × Nat) :=
  (Located.pieces x).filterMap fun q =>
    match q.1 with
    | .phys pa exp => some (pa, exp, q.2)
    | _ => none

/-- The atomic of a lane on its pieces: one read-modify-write at home, or an access that leaves for another package
(R25, R138). An 8-byte stack value has two pieces (R17). -/
def atomOne (s : State) (r : Pending) (x : Req) (n p : Nat) (v : Nat × Nat) (ps : List (Nat × Nat × Nat)) : State × Pending :=
  match ps with
  | [] => (s, r)
  | (pa, exp, _) :: t =>
    if ps.any fun q => isRemote s q.1 then
      let upper := t.head?.map fun q => (s.partVa x n 1, q.1, q.2.1)
      (s.leave { tag := 0, owner := r.tag, va := s.partVa x n 0, pa := pa, exp := exp, width := n, lane := x.lane
                 lanes := x.lanes, op := .atomic p v.1 v.2, upper := upper }, r)
    else
      let y := s.atHome s.g.core s.g.ctx (ps.map fun q => (q.1, q.2.2)) fun old => atomicOp p n old v.1 v.2
      (y.1, r.put x.lanes 0 n y.2)

/-- The operations of the lanes in ascending order: those of this package are performed, the others leave (R348). -/
def atomAll (d w p n : Nat) (src : State) : State → Pending → List Located → State × Pending
  | s, r, [] => (s, r)
  | s, r, x :: t =>
    let u := atomOne s r x.1 n p (atomVals src d w p x.1.lane) (physPieces x)
    atomAll d w p n src u.1 u.2 t

/-- ATOM of the width code `w` (R339, R348). -/
def atomThen (d s o w p : Nat) (st : State) : Out :=
  withOperands st 4 (opsAtom d s o w p) (casCheck d w p) fun st =>
    let n := 2 ^ w
    let a : Acc := { write := true, atomic := true }
    let r := locateAll { s := false, a := false, c := false } a n st (st.laneReqs s o 0 n)
    match firstFault false r.2 with
    | some (l, f) => .next (r.1.memFault f a l)
    | none =>
      match r.1.badRead r.2 true with
      | some t => .next (r.1.trap t)
      | none =>
        let st := r.1.drain r.1.cur
        if !st.w.storeQ.isEmpty || st.inFlight r.2 then .next st.block
        else if st.w.active = 0 then .next ((st.fullNow w d).finish 4)
        else
          let w0 := st.w
          let p0 : Pending := { emptyResult st w d with tag := w0.nextTag, dem := w0.dem }
          let u := atomAll d w p n st (st.setW { w0 with nextTag := w0.nextTag + 1 }) p0 r.2
          if u.1.w.remoteHold then .next (u.1.setW { u.1.w.hollow u.2 with held := some u.2 })
          else .next ((u.1.await u.2).finish 4)
/-- ATOM (R348); the operand `w` is bit [26], 0 for W32 and 1 for W64. -/
def execAtom (d s o w p : Nat) (st : State) : Out := atomThen d s o (w + 2) p st

/-- The physical offset in S of a request's place. -/
def sOffset (x : Located) : Nat :=
  match Located.pieces x with
  | (.buf _ o, _) :: _ => o
  | _ => 0

/-- The S operations share their checks: windows, uncorrectable words, and the queue drained before (R123, R139). -/
def State.bankThen (st : State) (s o : Nat) (a : Acc) (reads : Bool) (k : State → List Located → Out) : Out :=
  let r := locateAll { stack := false, a := false, c := false, glob := false } a 4 st (st.laneReqs s o 0 4)
  match firstFault false r.2 with
  | some (l, f) => .next (r.1.memFault f a l)
  | none =>
    match (if reads then r.1.badRead r.2 else none) with
    | some t => .next (r.1.trap t)
    | none =>
      let st := r.1.drain r.1.cur
      if !st.w.storeQ.isEmpty then .next st.block else k st r.2

/-- The lock bit of a request's word is held by another wave. -/
def State.lockedOut (st : State) (x : Located) : Bool := (st.c.lockHolder (sOffset x)).any (· != st.cur)

/-- One operation on a word of S. -/
def State.atBank (st : State) (o : Nat) (f : Nat → Nat) : State × Nat :=
  let old := leNat (st.bufRead st.g.core .s o 4)
  (st.bufWrite st.g.core .s o (leBytes 4 (f old)), old)

/-- SPATOM (R349): it waits while another wave holds a lane's lock bit. -/
def execSpatom (d s o p : Nat) (st : State) : Out :=
  withOperands st 4 (opsAtom d s o 2 p) (casCheck d 2 p) fun st =>
    st.bankThen s o { write := true, atomic := true } true fun st l =>
      if st.w.active = 0 then .next ((st.fullNow 2 d).finish 4)
      else if l.any st.lockedOut then .next (st.blockAtBank ((l.filter st.lockedOut).map fun x => sOffset x / 4 % 32))
      else
        let w0 := st.w
        let u := l.foldl (fun (u : State × Pending) x =>
          let v := atomVals st d 2 p x.1.lane
          let y := u.1.atBank (sOffset x) fun old => atomicOp p 4 old v.1 v.2
          (y.1, u.2.put x.1.lanes 0 4 y.2))
          (st.setW { w0 with nextTag := w0.nextTag + 1 }, { emptyResult st 2 d with tag := w0.nextTag, dem := w0.dem })
        .next ((u.1.await u.2).finish 4)

/-! ### Lock primitives (R350, R351) -/

/-- The lanes of an SLOCK with their lock bits; true: no lower active lane names the bit. -/
def slockLanes (l : List Located) : List (Located × Nat × Bool) :=
  let ks := l.map fun x => lockOf (sOffset x)
  (l.zip ks).zipIdx.map fun p => (p.1.1, p.1.2, !((ks.take p.2).contains p.1.2))

/-- SLOCK (R350): one attempt. The bits taken are kept with the words read (R366) until every lane has taken its bit or
failed; then the words and the mask are on their way. -/
def execSlock (d s o m : Nat) (st : State) : Out :=
  let os := [{ field := 0, kind := .v, reg := d, dst := true }, { field := 1, kind := .v, reg := o, src := some 0 },
    { field := 2, kind := .mw, reg := m }, { field := 4, kind := .s, reg := s }]
  withOperands st 4 os none fun st =>
    st.bankThen s o {} true fun st l =>
      let ls := slockLanes l
      -- bits that are free now are taken, in lane order
      let st := ls.foldl (fun st x =>
        let c := st.c
        if x.2.2 && (c.locks.get? x.2.1).isNone then
          let v := leNat (st.bufRead st.g.core .s (sOffset x.1) 4)
          let st := st.setC { c with
            locks := c.locks.set x.2.1 st.cur, lockWords := c.lockWords.set x.2.1 (sOffset x.1) }
          st.setW { st.w with slocks := st.w.slocks ++ [(x.2.1, v)] }
        else st) st
      if ls.any fun x => x.2.2 && st.lockedOut x.1 then
        .next (st.blockAtBank ((ls.filter fun x => x.2.2 && st.lockedOut x.1).map fun x => sOffset x.1 / 4 % 32))
      else
        let w0 := st.w
        let got := fun (x : Located × Nat × Bool) => if x.2.2 then w0.slocks.find? fun q => q.1 == x.2.1 else none
        let fails := ls.foldl (fun (b : Word) x => if (got x).isSome then b else b ||| x.1.1.lanes) 0
        let p0 : Pending := { emptyResult st 2 d with tag := w0.nextTag, dem := w0.dem, mask := some (m, w0.active, fails) }
        let p := ls.foldl (fun (p : Pending) x => p.put x.1.1.lanes 0 4 ((got x).map (·.2) |>.getD 0)) p0
        .next (((st.setW { w0 with nextTag := w0.nextTag + 1, slocks := [] }).await p).finish 4)

/-- LOCK_BIT_RETRY: the wave's SLOCK may try again (R52). -/
def execLockBitRetry (k : Nat) (s : State) : Out :=
  .next (s.setWave k { s.wave k with retryAt := 0, waiting := false })

/-- The first lane of a word whose lock bit another wave holds (R351). -/
def State.firstLocked (st : State) (l : List Located) : Option Located :=
  l.find? fun x => !(Located.pieces x).isEmpty && st.lockedOut x

/-- SUNLK (R351): refused if another wave holds a lane's lock bit, before the faults of its lanes and before any wait
(R273). -/
def execSunlk (d s o : Nat) (st : State) : Out :=
  withOperands st 4 (opsStore d s o 2) none fun st =>
    let r := locateAll { stack := false, a := false, c := false, glob := false } { write := true } 4 st (st.laneReqs s o 0 4)
    match st.firstLocked r.2 with
    | some x => .next (st.trap (illegalOperand 0x31 1 o x.1.lane))
    | none =>
      st.bankThen s o { write := true } false fun st l =>
        let st' := l.foldl (fun st' x =>
          let off := sOffset x
          let st' := st'.bufWrite st'.g.core .s off (leBytes 4 (dataVal st 2 d x.1.lane))
          st'.setC { st'.c with locks := st'.c.locks.erase (lockOf off) }) st
        .next (st'.finish 4)

end Sys2Proof.Machine
end

