-- ==== Sys2Proof/Machine/Recipe.lean ====
section
/-!
DEFINITION. Recipes (R187 to R195, R364, R365, R409) and register granules (R200, R201, R363).
-/

namespace Sys2Proof.Machine

/-! ### Slices (R187, R409) -/

/-- The shape of a slice instruction: its register operands, and whether it is the load. -/
abbrev SliceForm := List Opnd × Bool

/-- The packed forms with two FP32 sources (R331). -/
def opsPack (d a b : Nat) : List Opnd :=
  [{ field := 0, kind := .p, reg := d, dst := true }, { field := 1, kind := .v, reg := a, src := some 0 },
   { field := 2, kind := .v, reg := b, src := some 1 }]
/-- A C16 form on jets. -/
def opsJetC16 (d b : Nat) : List Opnd :=
  [{ field := 0, kind := .f, reg := d, top := 63, src := some 0, dst := true },
   { field := 2, kind := .f, reg := b, top := 31, src := some 1 }]
/-- A destination alone. -/
def opsDest (k : Kind) (d : Nat) : List Opnd := [{ field := 0, kind := k, reg := d, dst := true }]

/-- The operands of an instruction that may stand in a slice (R187); none for an excluded one. `w` carries the prefix. -/
def sliceForm (w : Wave) : Instr → Option SliceForm
  | .iadd d a b | .isub d a b | .imul d a b | .imulhI32 d a b | .imulhN32 d a b | .imin d a b | .imax d a b
  | .and d a b | .or d a b | .xor d a b | .andn d a b | .shl d a b | .shr d a b | .sar d a b | .rot d a b
  | .sel d a b | .bfxI32 d a b | .bfxN32 d a b => some (opsBin d a b, false)
  | .imad d a b => some (opsTern w .v d a b, false)
  | .iabs d a | .ineg d a | .not d a | .clz d a | .popc d a | .brev d a | .mov d a | .icvtI8 d a | .icvtI16 d a
  | .iaddImm d a _ | .shlImm d a _ => some (opsUn d a, false)
  | .bfi d a b => some (opsTernD d a b, false)
  | .icvtI64 d a => some (opsJet2 .v2 .v d a, false)
  | .icvtI32 d a => some (opsJet2 .v .v2 d a, false)
  | .iaddI64 d a b | .isubI64 d a b | .imulI64 d a b => some (opsBin2 d a b, false)
  | .movi d _ => some (opsDest .v d, false)
  | .lih d _ => some ([{ field := 0, kind := .v, reg := d, src := some 2, dst := true }], false)
  | .iaddC16 d b | .isubC16 d b | .imulC16 d b | .andC16 d b | .orC16 d b | .xorC16 d b | .shlC16 d b | .shrC16 d b
  | .sarC16 d b | .iminC16 d b | .imaxC16 d b => some (opsC16 d b, false)
  | .movC16 d b | .notC16Roltik1 d b => some (opsC16Un d b, false)
  | .faddF32 d a b | .fsubF32 d a b | .fmulF32 d a b | .fdivF32 d a b | .fminF32 d a b | .fmaxF32 d a b =>
    some (opsJet3 .f d a b, false)
  | .ffmaF32 d a b | .ffmaF32Rn d a b | .ffmaF32Rz d a b => some (opsTern w .f d a b, false)
  | .frcpF32 d a | .fsqrtF32 d a | .frsqF32 d a | .fabsF32 d a | .fnegF32 d a | .froundF32 d a | .fexpF32 d a
  | .flogF32 d a | .fsinF32 d a | .fcosF32 d a | .ftanhF32 d a | .jseedF32 d a | .jdiffF32 d a | .jintegF32 d a
  | .jfactF32 d a => some (opsJet2 .f .f d a, false)
  | .faddF64 d a b | .fsubF64 d a b | .fmulF64 d a b | .fdivF64 d a b | .fminF64 d a b | .fmaxF64 d a b =>
    some (opsJet3 .d d a b, false)
  | .ffmaF64 d a b => some (opsTern w .d d a b, false)
  | .fsqrtF64 d a | .fabsF64 d a | .fnegF64 d a | .jseedF64 d a | .jdiffF64 d a | .jintegF64 d a | .jfactF64 d a =>
    some (opsJet2 .d .d d a, false)
  | .fclassF32 d a | .fcvtI32F32 d a | .fcvtN32F32 d a => some (opsJet2 .v .f d a, false)
  | .fcvtF64F32 d a => some (opsJet2 .d .f d a, false)
  | .fcvtF32F64 d a => some (opsJet2 .f .d d a, false)
  | .fcvtF32I32 d a | .fcvtF32N32 d a => some (opsJet2 .f .v d a, false)
  | .fcvtBf16F32 d a b | .fcvtF16F32 d a b => some (opsPack d a b, false)
  | .fcvtF32F16 d a _ => some (opsJet2 .v .p d a, false)
  | .hadd2Bf16 d a b | .hmul2Bf16 d a b | .hadd2F16 d a b | .hmul2F16 d a b => some (opsJet3 .p d a b, false)
  | .hfma2Bf16 d a b | .hfma2F16 d a b => some (opsTern w .p d a b, false)
  | .jextF32 d a _ => some (opsJet2 .v .f d a, false)
  | .jextF64 d a _ => some (opsJet2 .v2 .d d a, false)
  | .jinsF32 d a _ => some (opsJet2 .f .v d a, false)
  | .jinsF64 d a _ => some (opsJet2 .d .v2 d a, false)
  | .faddF32C16 d b | .fsubF32C16 d b | .fmulF32C16 d b | .fmaxF32C16 d b => some (opsJetC16 d b, false)
  | .ld d s o w _ _ => some (opsLoad d s o w, true)
  | _ => none

/-- A prefix that a slice may hold: no predicate and no permutation (R187). -/
def slicePrefix (x : Xmod) : Bool := x.pm == 0 && x.pk == 0

/-- The forms of a slice's instructions, prefixes folded in; none where one is excluded. -/
def sliceForms : Option Xmod → List (Instr × Nat) → Option (List SliceForm)
  | _, [] => some []
  | pre, (i, _) :: t =>
    match i with
    | .xmod x => if slicePrefix x then sliceForms (some x) t else none
    | _ =>
      match sliceForm { pre := pre } i, sliceForms none t with
      | some f, some r => some (f :: r)
      | _, _ => none

/-- The operands read other than the destination register, each once. -/
def sliceInputs (dest : Nat) (fs : List SliceForm) : List (Kind × Nat) :=
  ((fs.flatMap (·.1)).filterMap fun o =>
    if o.dst || (o.kind != .s && o.reg == dest) then none else some (o.kind, o.reg)).eraseDups

/-- A slice meets R187: every destination is its register, at most one load, at most three inputs. -/
def sliceOk (dest : Nat) (code : List (Instr × Nat)) : Bool :=
  match sliceForms none code with
  | none => false
  | some fs =>
    let n := countIf (fun f => f.2) fs
    decide (1 ≤ fs.length) && decide (fs.length ≤ 8) && decide (n ≤ 1) && decide ((sliceInputs dest fs).length ≤ 3) &&
      fs.all fun f => f.1.all fun o => !o.dst || o.reg == dest

/-- The registers that a slice writes at jet order `k`, as a count from its first (R188). -/
def sliceCount (k : Nat) (fs : List SliceForm) : Nat :=
  (fs.flatMap (·.1)).foldr (fun o n => if o.dst then max (o.used k) n else n) 0

/-- At jet order `k` the slice's register begins a group of every destination (R364). -/
def sliceAligned (k dest : Nat) (fs : List SliceForm) : Bool :=
  (fs.flatMap (·.1)).all fun o => !o.dst || decide (dest % o.span k = 0)

/-! ### The recipe instructions (R364, R365) -/

/-- The slice that a label names, as read at the launch check (R414). -/
def State.sliceAt (s : State) (off : Nat) : Option RSlice :=
  (((s.launch s.g.launch).nodes.getD s.g.node {}).slices).find? fun r => r.off == off

/-- The lowest free recipe-table entry of a core (R188; the number is log 6's). -/
def State.freeEntry (s : State) (core : Nat) : Option Nat :=
  let used := (s.wavesOn core).flatMap fun k => (s.wave k).recipes.map (·.entry)
  (List.range Config.recipeEntries).find? fun e => !used.contains e

/-- The vector registers that a kind of operand names at order `k` and are read (R86, R188). -/
def inputRegs (k : Nat) (p : Kind × Nat) : List Nat := ({ field := 0, kind := p.1, reg := p.2 } : Opnd).named k

/-- Register `r` is not full yet: RMARK waits for it, or takes its deferred fault (R28, R364). -/
def askFull (w : Wave) (r : Nat) : Option Ask :=
  if w.isEmpty r then
    match w.deferred.get? r with
    | some d => some (.trap (deferredTrap w d 4))
    | none => some .wait
  else none

/-- The set that holds `d` is regenerated first, where it is demoted (R191, R193). -/
def State.materialThen (s : State) (d : Nat) (k : State → Out) : Out :=
  match s.w.mustRegen d with
  | some x => .next (s.startRegen 4 x)
  | none => k s

/-- The scalars that a kind of operand names. -/
def inputScalars (p : Kind × Nat) : List Nat :=
  match p.1 with
  | .s => [p.2]
  | .s2 => [p.2, p.2 + 1]
  | _ => []

/-- The recipe that RMARK records (R188). -/
def State.recipeOf (s : State) (e d : Nat) (r : RSlice) (fs : List SliceForm) : Recipe :=
  let w := s.w
  let ins := sliceInputs r.dest fs
  { entry := e, dest := d, count := sliceCount w.order fs, lanes := w.active, jord := w.order
    fpctl := w.fpctl &&& 7, slice := (s.g.ep.addr + s.g.ep.rcpOff + 2 * r.off).toNat, len := fs.length
    vins := ins.flatMap (inputRegs w.order), sins := ins.flatMap inputScalars, demoted := false, used := s.now }

/-- A recipe-table-full event is counted (R188, R253). -/
def State.tableFull (s : State) : State := (s.charge s.g.ctx 0x0B 1).finish 4

/-- Steps 3 and 4 of RMARK (R364). -/
def State.markThen (s : State) (d : Nat) (sl : Option (RSlice × List SliceForm)) : Out :=
  match sl with
  | none => .next (s.trap (illegalOperand 0x38 1 0))
  | some (r, fs) =>
    if r.dest ≠ d ∨ sliceAligned s.w.order d fs = false ∨ 8 * s.w.granules < d + sliceCount s.w.order fs then
      .next (s.trap (illegalOperand 0x39 0 d))
    else if s.w.active = 0 then .next (s.finish 4)
    else
      match s.freeEntry s.g.core with
      | none => .next s.tableFull
      | some e =>
        let s := if s.uncorr.isEmpty then s else { s with uncorr := s.uncorr.filter (· != (9, s.g.core, e)) }
        .next ((s.setW { s.w with recipes := s.w.recipes ++ [s.recipeOf e d r fs] }).finish 4)

/-- RMARK (R188, R364): the wait, the drop of an earlier recipe, the checks, the marking. -/
def execRmark (d i : Nat) (s : State) : Out :=
  withOperands s 4 [{ field := 0, kind := .v, reg := d }] none fun s =>
    let on := s.g.ep.recipes
    let sl := if on then (s.sliceAt i).bind fun r => (sliceForms none r.code).map fun f => (r, f) else none
    let ins := match sl with
      | some (r, fs) =>
        (if r.dest = d then (List.range (sliceCount s.w.order fs)).map (d + ·) else [d]) ++
          (sliceInputs r.dest fs).flatMap (inputRegs s.w.order)
      | none => [d]
    let scal := match sl with
      | some (r, fs) => (sliceInputs r.dest fs).flatMap inputScalars
      | none => []
    if scal.any (s.w.sbusy.getLsbD ·) then .next s.block
    else match ins.findSome? (askFull s.w) with
    | some a => .next (s.answer 4 a)
    | none =>
      s.materialThen d fun s =>
        let s := s.setW (s.w.ordinary d)
        if on then s.markThen d sl else .next s.tableFull

/-- RDROP (R193, R365). -/
def execRdrop (d : Nat) (s : State) : Out :=
  withOperands s 4 [{ field := 0, kind := .v, reg := d }] none fun s =>
    s.materialThen d fun s => .next ((s.setW (s.w.ordinary d)).finish 4)
/-- RMAT (R193, R365). -/
def execRmat (d : Nat) (s : State) : Out :=
  withOperands s 4 [{ field := 0, kind := .v, reg := d }] none fun s => s.materialThen d fun s => .next (s.finish 4)

/-- RDEMOTE (R193, R365). -/
def execRdemote (d : Nat) (s : State) : Out :=
  withOperands s 4 [{ field := 0, kind := .v, reg := d }] none fun s =>
    match s.w.setOf d with
    | some x =>
      if x.demoted then .next (s.finish 4)
      else .next ((((s.setW (s.w.demote x.entry)).charge s.g.ctx 0x09 1).finish 4).qFell s.g.core)
    | none => .next (s.finish 4)

/-! ### Register granules (R200, R201, R363) -/

/-- Registers from `lo` up to, not including, `hi` read zero and are full (R60). -/
def Wave.clearRegs (w : Wave) (lo hi : Nat) : Wave :=
  let keep := fun (α : Type) (t : Tab α) => (⟨t.rows.filter fun p => decide (p.1 < lo) || decide (hi ≤ p.1)⟩ : Tab α)
  { w with v := keep _ w.v, deferred := keep _ w.deferred, bad := keep _ w.bad
           empty := w.empty &&& ~~~(BitVec.ofNat 128 (2 ^ hi - 2 ^ lo)) }

/-- GROW takes effect: `n` more granules, whose registers read zero and are full (R363). The lanes continue `barLen` bytes on. -/
def State.grown (s : State) (n : Nat) : State :=
  let w := s.w
  let w := { w.clearRegs (8 * w.granules) (8 * (w.granules + n)) with granules := w.granules + n, phase := .run }
  (s.setW w).finish w.barLen

/-- GROW (R200, R363): granted at once, or the wave enters register wait behind the older requests. -/
def execGrow (n : Nat) (s : State) : Out :=
  withOperands s 4 [] (if n = 0 ∨ 16 < s.w.granules + n then some (illegalOperand 0x37 1 n) else none) fun s =>
    let core := s.g.core
    if (s.regWaiters core).isEmpty then
      let s := s.makeRoom core (8 * n) Config.recipeEntries
      if s.backing core + 8 * n ≤ Config.physRegs then .next ((s.setW { s.w with barLen := 4 }).grown n) else .next (s.registerWait (8 * n) true)
    else .next (s.registerWait (8 * n) true)

/-- A waiting request of wave `k` is granted: GROW takes effect; a wave that waits for a regeneration tries again. -/
def State.grantTo (s : State) (k n : Nat) (grow : Bool) : State :=
  if grow then
    let cur := s.cur
    { ({ s with cur := k } : State).grown (n / 8) with cur := cur }
  else s.setWave k { s.wave k with phase := .run }

/-- Waiting requests are granted oldest first, while they can be (R200, R201). -/
def State.grantAll (s : State) (core : Nat) : Nat → State
  | 0 => s
  | fuel + 1 =>
    match oldestWait (s.regWaiters core) with
    | none => s
    | some (_, k, n, g) =>
      let s := s.makeRoom core n Config.recipeEntries
      if s.backing core + n ≤ Config.physRegs then (s.grantTo k n g).grantAll core fuel else s

/-- The waiting requests of a core that can be granted are granted; a grant ends the cycles of a grow deadlock (R202). -/
def State.grantWaiting (s : State) (core : Nat) : State :=
  let t := s.grantAll core 32
  if (t.regWaiters core).length < (s.regWaiters core).length then t.setCore core { t.core core with deadlockSince := none }
  else t

/-- GROW_GRANT (R200, R201). -/
def execGrowGrant (core : Nat) (s : State) : Out := .next ((s.grantWaiting core).noteDeadlock core)

/-- The eligible sets of a wave that a SHRINK to `8 × g` registers touches. -/
def Wave.setsFrom (w : Wave) (lo : Nat) : List Recipe := w.recipes.filter fun x => decide (lo < x.dest + x.count)

/-- A pinned register in the range that SHRINK releases (R189, R363). -/
def shrinkPin (w : Wave) (lo hi : Nat) : Option Trap :=
  if w.recipes.isEmpty then none
  else ((List.range (hi - lo)).map (lo + ·)).findSome? fun r =>
    if (w.vpinned r).isEmpty then none else some (pinTrap false r 4 (w.vpinned r))

/-- A result is on its way to a register of the range. -/
def Wave.awaits (w : Wave) (lo : Nat) : Bool := w.pending.any fun p => p.vregs.any fun q => decide (lo ≤ q.1)

/-- SHRINK (R189, R200, R363): a set that lies partly in the range is regenerated first. -/
def execShrink (n : Nat) (s : State) : Out :=
  let lo := 8 * (s.w.granules - n)
  let hi := 8 * s.w.granules
  let chk := if n = 0 ∨ s.w.granules ≤ n then some (illegalOperand 0x37 1 n) else shrinkPin s.w lo hi
  withOperands s 4 [] chk fun s =>
    if s.w.awaits lo then .next s.block
    else match (s.w.setsFrom lo).find? fun x => decide (x.dest < lo) && x.demoted with
    | some x => .next (s.startRegen 4 x)
    | none =>
      let w := s.w
      let w := { w.clearRegs lo hi with
        granules := w.granules - n, recipes := w.recipes.filter fun x => !decide (lo < x.dest + x.count) }
      .next (((s.setW w).finish 4).qFell s.g.core)

end Sys2Proof.Machine
end

