-- ==== Sys2Proof/Machine/Tree.lean ====
section
/-!
DEFINITION. What the tree of contexts says about cores and domains: grants, turns, ownership, live work (R3, R208, R222,
R231), and the accounts of the grants (R448).
-/

namespace Sys2Proof.Machine

/-! ### Units (R3) -/

/-- Cluster of a core. -/
def clusterOf (core : Nat) : Nat := core / 4
/-- Voltage domain of a cluster. -/
def domainOf (cl : Nat) : Nat := cl / 48 * 4 + cl % 48 / 12
/-- Voltage domain of a core. -/
def coreDomain (core : Nat) : Nat := domainOf (clusterOf core)
/-- The clusters of a voltage domain. -/
def domainClusters (d : Nat) : List Nat := (List.range 96).filter fun c => domainOf c == d
/-- The cores of a voltage domain. -/
def domainCores (d : Nat) : List Nat := (domainClusters d).flatMap fun c => (List.range 4).map (4 * c + ·)
/-- The other core of a vertical pair (R374). -/
def partner (core : Nat) : Nat := if core < 192 then core + 192 else core - 192

/-! ### Grants and turns (R229, R231) -/

/-- A core is granted to a context. -/
def State.granted (s : State) (c core : Nat) : Bool := (s.ctx c).cores.any fun p => p.1 == core
/-- A core is granted to a child of the context. -/
def State.grantedOn (s : State) (c core : Nat) : Bool := (s.children c).any fun d => s.granted d core
/-- A context holds a core's turn at its own level: it does not share the core, or it is its turn. -/
def State.levelTurn (s : State) (c core : Nat) : Bool :=
  (s.ctx c).cores.any fun p => p.1 == core &&
    (!p.2 || match (s.ctx c).parent with
      | some u => (s.core core).turns.get? u == some c
      | none => true)
/-- A context may run on a core: it and every ancestor hold its turn, and no child holds it (R231). -/
def State.holdsTurn (s : State) (c core : Nat) : Bool :=
  !s.grantedOn c core && (s.chain c).all fun d => s.levelTurn d core
/-- A context's groups on a core: those that hold its resources. -/
def State.groupsOn (s : State) (c core : Nat) : List Nat := (s.resident core).filter fun g => (s.group g).ctx == c
/-- A context runs on at least one core: it holds its time slice (R222, R231). -/
def State.running (s : State) (c : Nat) : Bool := (s.ctx c).cores.any fun p => s.holdsTurn c p.1

/-- A group whose waves are not over: queued groups are records still (R222). -/
def Group.alive (g : Group) : Bool :=
  match g.phase with
  | .ended => false
  | _ => true

/-- A context has live work (R222). -/
def State.liveWork (s : State) (c : Nat) : Bool :=
  (s.groups.vals.any fun g => g.ctx == c && g.alive) ||
    s.launches.vals.any fun l => l.ctx == c && !l.ended && l.nodes.vals.any fun n => !n.slots.rows.isEmpty

/-! ### Domains (R65, R208) -/

/-- All cores of a domain belong to a context's grant (R208); a partition owns them by its range, with the cores that are
retired (R225). -/
def State.grantsDomain (s : State) (d c : Nat) : Bool :=
  match (s.ctx c).span with
  | some (a, b) => (domainClusters d).all fun cl => decide (a ≤ cl) && decide (cl ≤ b)
  | none => (domainCores d).all (s.granted c)

/-- The deepest context to whose grant all cores of a domain belong (R208). -/
def State.domainOwner (s : State) (d : Nat) : Option Nat :=
  s.ctxs.keys.foldl (fun b c =>
    if s.grantsDomain d c then
      match b with
      | some a => if (s.ctx a).depth < (s.ctx c).depth then some c else some a
      | none => some c
    else b) none

/-- Groups are resident on a domain. -/
def State.domainResident (s : State) (d : Nat) : Bool :=
  s.groups.vals.any fun g => g.phase.holds && coreDomain g.core == d
/-- Spine entries bound for a domain are in flight (R65). -/
def State.domainSpine (s : State) (d : Nat) : Bool := (domainCores d).any fun c => !(s.core c).spine.entries.isEmpty
/-- A pending gate request looks at its conditions again. -/
def State.pokeGate (s : State) (d : Nat) : State := if (s.domain d).gatePending then s.postOnce 1 (.gateGrant d) else s

/-- Frequency of an operating point in MHz (R212). -/
def pointMHz (i : Nat) : Nat := 800 + 50 * i

/-! ### Launch queues -/

/-- The Gatherer and the launch queues look at their work again (R196). -/
def State.pokeGatherer (s : State) : State := s.postOnce 1 .gathererDispatch
/-- A cluster's launch queue looks at its head again. -/
def State.pokeQueue (s : State) (cl : Nat) : State := if (s.cluster cl).queue.isEmpty then s else s.postOnce 1 (.groupPlacement cl)
/-- Every launch queue looks at its head again. -/
def State.pokeQueues (s : State) : State := s.clusters.keys.foldl (fun s c => s.pokeQueue c) s

end Sys2Proof.Machine
end

