-- ==== Sys2Proof/Machine/Launch.lean ====
section
/-!
DEFINITION. The structures of a launch as the device reads them (R406 to R409), the launch checks (R414, R415), and the
start of a launch with the placement of its queues (R437, R438, R449).
-/

namespace Sys2Proof.Machine

/-- A little-endian number in some bytes: `n` bytes from byte `o`. -/
def numAt (b : List Byte) (o n : Nat) : Nat := leNat ((b.drop o).take n)

/-! ### Endpapers (R406) -/

/-- An Endpaper's fields, read from its 64 bytes. -/
def endpaperOf (a : Nat) (b : List Byte) : Endpaper :=
  let w := numAt b 4 4
  let x18 := numAt b 0x18 4
  { addr := a, gen := bits w 7 0, gran := bits w 15 8, nib := w.testBit 16, handler := w.testBit 17, promise := w.testBit 18
    recipes := w.testBit 19, reflect := BitVec.ofNat 32 (numAt b 8 4), sres := numAt b 0xC 2, ares := numAt b 0xE 2
    wres := numAt b 0x10 2, cres := numAt b 0x12 1, htFirst := numAt b 0x13 1, htCount := numAt b 0x14 1
    recsz := numAt b 0x15 1, target := numAt b 0x16 2, timer := bits x18 15 0, depth := bits x18 21 16
    energy := numAt b 0x1C 2, ipeak := numAt b 0x1E 2, hoff := numAt b 0x20 4, liveOff := sextNat 32 (numAt b 0x24 4)
    rcpOff := sextNat 32 (numAt b 0x28 4), rcpLen := numAt b 0x2C 2, compat := BitVec.ofNat 64 (numAt b 0x30 8) }

/-- A reserved field of an Endpaper, or a REFLECT bit that must be 0, is set (code 0x04). -/
def endpaperRz (b : List Byte) : Bool :=
  decide (bits (numAt b 4 4) 31 20 ≠ 0) || decide (bits (numAt b 0x18 4) 31 22 ≠ 0) || decide (numAt b 0x2E 2 ≠ 0) ||
    decide (numAt b 0x38 8 ≠ 0) || decide (numAt b 8 4 &&& 0xFFFC1001 ≠ 0)

/-- The codes 0x01 to 0x0A of R415. -/
def endpaperCode (b : List Byte) (e : Endpaper) : Option Nat :=
  if numAt b 0 4 ≠ 0x5A574550 ∨ e.addr % 64 ≠ 0 then some 0x01
  else if e.gen = 0 ∨ 3 < e.gen then some 0x02
  else if e.gran = 0 ∨ 16 < e.gran then some 0x03
  else if endpaperRz b then some 0x04
  else if 256 < e.sres ∨ 512 < e.ares ∨ 512 < e.wres ∨ 16 < e.cres then some 0x05
  else if e.hoff % 2 = 1 ∨ (e.hoff ≠ 0 ∧ e.handler = false) ∨ e.cres < e.htFirst + e.htCount then some 0x06
  else if e.recsz = 0 ∨ 16 < e.recsz ∨ e.target = 0 ∨ 512 < e.target ∨ 1023 < e.timer ∨ 63 < e.depth then some 0x07
  else if e.energy = 0 ∨ e.ipeak = 0 then some 0x08
  else if 2 ^ 6 ≤ e.compat.toNat then some 0x09
  else if e.gen = 1 ∧ (e.recipes = true ∨ e.rcpLen ≠ 0) then some 0x0A
  else none

/-! ### Liveness tables (R408) -/

/-- A liveness entry's fields, read from its 64 bytes. -/
def liveOf (b : List Byte) : LiveEntry :=
  { off := numAt b 0 4, tiles := BitVec.ofNat 16 (numAt b 4 2), regs := BitVec.ofNat 128 (numAt b 8 16)
    ranges := (List.range 8).map fun i => (numAt b (0x18 + 4 * i) 2, numAt b (0x1A + 4 * i) 2) }

/-- A structure of a launch: its value, the check code with the failing index, or a fault of its read. -/
abbrev Checked (α : Type) := Except (MemFault ⊕ (Nat × Nat)) α

/-- A read of a structure through the context's translation. -/
def State.structRead (s : State) (c : Nat) (a : Int) (n : Nat) : Checked (List Byte) :=
  match s.globReadRun c (if a < 0 then 0 else a.toNat) n with
  | .ok b => .ok b
  | .error f => .error (.inl f)

/-- The instruction at an offset from an entry point is a BAR or LBAR of the generation. -/
def State.isBarrier (s : State) (c : Nat) (e : Endpaper) (off : Nat) : Checked Bool :=
  match s.structRead c (e.addr + 64 + off : Nat) 2 with
  | .error x => .error x
  | .ok b =>
    match s.structRead c (e.addr + 66 + off : Nat) 2 with
    | .error x => .error x
    | .ok b2 =>
      if off % 2 = 1 then .ok false
      else match decode e.gen (b ++ b2) with
      | some (.bar _, _) => .ok true
      | some (.lbar, _) => .ok true
      | _ => .ok false

/-- The entry breaks R408 or exceeds the reservations (code 0x0B), barrier apart. -/
def liveBad (e : Endpaper) (b : List Byte) (earlier : List LiveEntry) : Bool :=
  let x := liveOf b
  decide (numAt b 6 2 ≠ 0) || decide (numAt b 0x38 8 ≠ 0) ||
    (x.off != 0xFFFFFFFF && earlier.any fun y => y.off == x.off) ||
    (x.ranges.any fun r => r.2 != 0 && decide (e.sres < r.1 + r.2)) || decide (2 ^ e.cres ≤ x.tiles.toNat)

/-- The entries of a liveness table, from entry `i` on. -/
def State.readLive (s : State) (c : Nat) (e : Endpaper) (base : Int) : Nat → Nat → List LiveEntry → Checked (List LiveEntry)
  | 0, _, acc => .ok acc
  | n + 1, i, acc =>
    match s.structRead c (base + 64 + 64 * i) 64 with
    | .error x => .error x
    | .ok b =>
      if liveBad e b acc then .error (.inr (0x0B, i))
      else
        let x := liveOf b
        match (if x.off = 0xFFFFFFFF then .ok true else s.isBarrier c e x.off) with
        | .error f => .error f
        | .ok false => .error (.inr (0x0B, i))
        | .ok true => s.readLive c e base n (i + 1) (acc ++ [x])

/-- The liveness table of an Endpaper (R408). -/
def State.liveTable (s : State) (c : Nat) (e : Endpaper) : Checked (List LiveEntry) :=
  if e.liveOff = 0 then .ok []
  else
    let base : Int := e.addr + e.liveOff
    match s.structRead c base 64 with
    | .error x => .error x
    | .ok b =>
      let n := numAt b 4 4
      if numAt b 0 4 ≠ 0x5A4C4956 ∨ (b.drop 8).any (· != 0) = true ∨ 65536 < n then .error (.inr (0x0B, 0))
      else s.readLive c e base n 0 []

/-! ### Recipe sections (R409) -/

/-- The instructions of a slice: `n` of them, a pair counting as one (R269), from some bytes. Answers them with their
lengths, and their bytes. -/
def sliceCode (gen : Nat) : Nat → Bool → List Byte → Option (List (Instr × Nat) × Nat)
  | 0, _, _ => some ([], 0)
  | n + 1, paired, b =>
    match decode gen b with
    | none => none
    | some (i, len) =>
      match i with
      | .xmod x =>
        if paired then none
        else
          match decode gen (b.drop len) with
          | none => none
          | some (j, len2) =>
            if x.pairs j then
              match sliceCode gen n false (b.drop (len + len2)) with
              | none => none
              | some (t, k) => some ((i, len) :: (j, len2) :: t, len + len2 + k)
            else none
      | _ =>
        match sliceCode gen n false (b.drop len) with
        | none => none
        | some (t, k) => some ((i, len) :: t, len + k)

/-- The walk of a recipe section from byte `off`: its slices, or the index of the one that fails (code 0x0C). -/
def walkSlices (gen : Nat) (b : List Byte) : Nat → Nat → Nat → Except Nat (List RSlice)
  | 0, _, _ => .ok []
  | fuel + 1, off, i =>
    if b.length ≤ off then .ok []
    else
      let h := numAt b off 4
      let dest := bits h 10 4
      let n := bits h 3 0
      if b.length < off + 4 ∨ bits h 31 24 ≠ 0x5C ∨ bits h 23 11 ≠ 0 ∨ n = 0 ∨ 8 < n then .error i
      else match sliceCode gen n false (b.drop (off + 4)) with
      | none => .error i
      | some (code, len) =>
        let stop := off + 4 + len
        if b.length < stop ∨ sliceOk dest code = false then .error i
        else if stop % 4 ≠ 0 ∧ numAt b stop 2 ≠ 0 then .error i
        else
          match walkSlices gen b fuel (roundUp stop 4) (i + 1) with
          | .error k => .error k
          | .ok t => .ok ({ off := off / 2, dest := dest, code := code } :: t)

/-- The slices of an Endpaper's recipe section. -/
def State.recipeSection (s : State) (c : Nat) (e : Endpaper) : Checked (List RSlice) :=
  if e.recipes = false ∨ e.rcpLen = 0 then .ok []
  else
    let a : Int := e.addr + e.rcpOff
    match s.structRead c a (2 * e.rcpLen) with
    | .error x => .error x
    | .ok b =>
      if a % 4 ≠ 0 then .error (.inr (0x0C, 0))
      else match walkSlices e.gen b e.rcpLen 0 0 with
      | .error i => .error (.inr (0x0C, i))
      | .ok l => .ok l

/-! ### Node tables (R407) -/

/-- The node table breaks R407 at its header or at entry `i` (code 0x0D). -/
def tableBad (h : List Byte) (x : List Byte) : Bool :=
  let cap := numAt x 8 4
  decide (numAt h 0 4 ≠ 0x5A4E4F44) || decide (numAt h 4 2 = 0) || decide (256 < numAt h 4 2) || (h.drop 6).any (· != 0) ||
    decide (numAt x 6 2 ≠ 0) || decide (cap < 32) || decide (65536 < cap) || decide (cap % 32 ≠ 0) ||
    decide (7 < numAt x 12 1) || (x.drop 13).any (· != 0)

/-- The launch check of a node (R414): its table entry and Endpaper, as read at the start of the launch, its liveness table and
its recipe section. Each is read once in a launch. -/
def State.launchCheck (s : State) (l node : Nat) : Checked (Endpaper × List LiveEntry × List RSlice) :=
  let x := s.launch l
  let n := x.nodes.getD node {}
  let e := endpaperOf (numAt n.entry 0 6) n.page
  match endpaperCode n.page e with
  | some c => .error (.inr (c, 0))
  | none =>
    match s.liveTable x.ctx e with
    | .error f => .error f
    | .ok live =>
      match s.recipeSection x.ctx e with
      | .error f => .error f
      | .ok rs => if tableBad x.header n.entry then .error (.inr (0x0D, 0)) else .ok (e, live, rs)

/-- What the reads of a launch check request at the memory-side cache (R253): the liveness table, the barrier instructions that
its entries name, and the recipe section. -/
def State.checkReads (s : State) (l node : Nat) : State :=
  let x := s.launch l
  let n := x.nodes.getD node {}
  let e := endpaperOf (numAt n.entry 0 6) n.page
  if (endpaperCode n.page e).isSome then s
  else
    let base := ((e.addr : Int) + e.liveOff).toNat
    let s := if e.liveOff = 0 then s
      else match s.structRead x.ctx ((e.addr : Int) + e.liveOff) 64 with
        | .ok b => s.globTouch x.ctx base (64 + 64 * min (numAt b 4 4) 65536)
        | .error _ => s
    let s := match s.liveTable x.ctx e with
      | .ok live => (live.filter fun y => y.off != 0xFFFFFFFF).foldl (fun s y => s.globTouch x.ctx (e.addr + 64 + y.off) 4) s
      | .error _ => s
    if e.recipes then s.globTouch x.ctx ((e.addr : Int) + e.rcpOff).toNat (2 * e.rcpLen) else s

/-! ### The start of a launch (R437, R438, R449) -/

/-- The queue memory of a context that its own launches use (R449). -/
def State.queuePart (s : State) (c : Nat) : Nat := (s.ctx c).qmem - sumNat ((s.children c).map fun d => (s.ctx d).qmem)

/-- The ranges of queue memory that the running launches of a context hold. -/
def State.queueRanges (s : State) (c : Nat) : List Range :=
  (s.launches.vals.filter fun l => l.ctx == c && !l.ended).flatMap fun l =>
    l.nodes.vals.map fun n => { base := n.base, size := n.cap * (32 * n.ep.recsz) }

/-- Two ranges have a byte in common. -/
def Range.meets (a b : Range) : Bool := decide (a.base < b.base + b.size) && decide (b.base < a.base + a.size)

/-- The lowest base, a multiple of `step` from `lo` up, at which `size` bytes lie below `hi` and beside the ranges. -/
def lowestFit (used : List Range) (step size hi : Nat) : Nat → Nat → Option Nat
  | 0, _ => none
  | fuel + 1, base =>
    if hi < base + size then none
    else
      match used.find? fun r => r.meets { base := base, size := size } with
      | none => some base
      | some r => lowestFit used step size hi fuel (max (base + step) (roundUp (r.base + r.size) step))

/-- Places queues of the given sizes one after another (R449). -/
def placeQueues (lo hi : Nat) (used : List Range) : List Nat → Option (List Nat)
  | [] => some []
  | n :: t =>
    match lowestFit used 65536 n hi (used.length + 1) lo with
    | none => none
    | some b => (placeQueues lo hi ({ base := b, size := n } :: used) t).map (b :: ·)

/-- What comes of a submission entry. -/
inductive Started where
  | launch (s : State)
  /-- the entry starts no launch (R438) -/
  | badEntry
  /-- a read faulted -/
  | fault (f : MemFault)
  /-- the queues fit the part, but not beside the running launches -/
  | noRoom
  /-- the queues exceed the part -/
  | tooBig

/-- A submission entry breaks R437 or R438 by itself. -/
def entryBad (b : List Byte) : Bool :=
  let h := numAt b 0x20 8
  ((b.drop 0x14).take 12).any (· != 0) || decide (bits h 31 14 ≠ 0) || decide (bits h 13 8 ≠ 0) || decide (numAt b 0x28 8 ≠ 0)

/-- Node `i` of a launch as its table entry and its Endpaper give it, with no queue placed. -/
def State.readNode (s : State) (c table i : Nat) : Except MemFault Node :=
  match s.globReadRun c (table + 16 + 16 * i) 16 with
  | .error f => .error f
  | .ok x =>
    let a := numAt x 0 6
    match s.globReadRun c a 64 with
    | .error f => .error f
    | .ok b => .ok { ep := endpaperOf a b, cap := numAt x 8 4, prio := numAt x 12 1, entry := x, page := b }

/-- A node whose structures could not be read when its launch started: its queue has no slot yet, and its fault is delivered
(R414, log 102). -/
def unreadNode : Node := { cap := 0, readFault := true }

/-- The node that was read, or one that could not be. -/
def Node.orUnread : Except MemFault Node → Node
  | .ok n => n
  | .error _ => unreadNode

/-- What the reads of nodes' structures request at the memory-side cache: the entries from entry `i` on, and the Endpapers
(R253). -/
def State.startReads (s : State) (c table i : Nat) (ns : List Node) : State :=
  ns.foldl (fun s n => if n.entry.isEmpty then s else s.globTouch c n.ep.addr 64)
    (s.globTouch c (table + 16 + 16 * i) (16 * ns.length))

/-- The faults of the nodes that could not be read: each is delivered once, and the reads are made again a microsecond later
(R414, R447). -/
def State.unreadNodes (s : State) (c l : Nat) (ns : List (Except MemFault Node)) : State :=
  ns.zipIdx.foldl (fun s p =>
    match p.1 with
    | .ok _ => s
    | .error f => (s.deviceFault c f false).post Config.usCycles (.launchStructureReread l p.2)) s

/-- The next free slot of a node in ring order (R385, R181). -/
def Node.freeFrom (n : Node) : Nat → Nat → Option Nat
  | 0, _ => none
  | fuel + 1, i => if (n.slots.get? (i % n.cap)).isNone then some (i % n.cap) else n.freeFrom fuel (i + 1)
/-- The slot that the next RQALLOC obtains. -/
def Node.nextFree (n : Node) : Option Nat := if n.slots.rows.length < n.cap then n.freeFrom (n.slots.rows.length + 1) n.ring else none
/-- Record size Z (R179). -/
def Node.z (n : Node) : Nat := 32 * n.ep.recsz

/-- Node `n` of a launch. -/
def State.node (s : State) (l n : Nat) : Node := (s.launch l).nodes.getD n {}
/-- Replaces a node of a launch. -/
def State.setNode (s : State) (l n : Nat) (x : Node) : State :=
  let y := s.launch l
  s.setLaunch l { y with nodes := y.nodes.set n x }

/-- A launch may have come to its end (R186). -/
def State.noteEnd (s : State) (l : Nat) : State := s.postOnce 0 (.launchCompletion l)

/-- Group target as a group is formed with: the launch checks refuse one outside 1 to 512. -/
def Node.target (n : Node) : Nat := max 1 (min n.ep.target 512)

/-- A slot's record is committed: it waits in its class from now on (R181, R184). After a failed launch check it is
discarded (R414). -/
def State.commitSlot (s : State) (l node slot depth : Nat) : State :=
  let n := s.node l node
  if n.check = 2 then
    ((s.setNode l node { n with slots := n.slots.erase slot, abandoned := n.abandoned + 1 }).postOnce 0
      (.continuationEnqueue l)).noteEnd l
  else
    let s := s.setNode l node
      { n with slots := n.slots.set slot .committed, ready := n.ready ++ [{ slot := slot, depth := depth, time := s.now }] }
    (s.post (128 * n.ep.timer) (.gathererTimerExpiry l node depth)).pokeGatherer

/-- The root record enters its node's queue: 32 bytes, and zeros up to Z (R438). -/
def State.rootRecord (s : State) (c l node : Nat) (rec : List Byte) : Except MemFault State :=
  let n := s.node l node
  let slot := n.nextFree.getD 0
  let z := n.z
  match s.globWrites c ((List.range (z / 32)).map fun i =>
    (n.base + slot * z + 32 * i, if i = 0 then rec else List.replicate 32 0)) with
  | .error f => .error f
  | .ok s => .ok ((s.setNode l node { s.node l node with ring := slot + 1 }).commitSlot l node slot 0)

/-- Starts the launch of a submission entry in context `c` (R229, R438, R449). The header, the entry and the Endpaper of the root
node must be read for it; a fault of another node's holds that node only (R414). -/
def State.startLaunch (s : State) (c : Nat) (b : List Byte) (fe : Option Nat) (seq : Nat) : Started :=
  let table := numAt b 0 8
  if entryBad b then .badEntry
  else match s.globReadRun c table 16 with
  | .error f => .fault f
  | .ok h =>
    let count := numAt h 4 2
    let root := numAt b 0x20 1
    if count ≤ root then .badEntry
    else match s.readNode c table root with
    | .error f => .fault f
    | .ok r =>
      if r.ep.recsz = 0 then .badEntry
      else
        let reads := (List.range (min count 256)).map (s.readNode c table)
        let ns := reads.map Node.orUnread
        let lo := (s.ctx c).qbase
        let hi := lo + s.queuePart c
        let sizes := ns.map fun n => n.cap * n.z
        match placeQueues lo hi [] sizes, placeQueues lo hi (s.queueRanges c) sizes with
        | none, _ => .tooBig
        | some _, none => .noRoom
        | some _, some bases =>
          let l := s.nextLaunch
          let nodes := (ns.zip bases).zipIdx.map fun p => (p.2, { p.1.1 with base := p.1.2 })
          let x : Launch :=
            { ctx := c, table := table, completion := numAt b 8 8, vector := BitVec.ofNat 32 (numAt b 0x10 4), seq := seq % 2 ^ 24
              frontEnd := fe, start := s.now, nodes := ⟨nodes⟩, nodeCount := count, header := h
              hung := (s.chain c).any fun d => (s.ctx d).hung }
          let s' : State := { (s.globTouch c table 16).startReads c table 0 ns with nextLaunch := l + 1 }
          match (s'.setLaunch l x).rootRecord c l root (b.drop 0x20) with
          | .error f => .fault f
          | .ok s' => .launch ((s'.unreadNodes c l reads).progress c)

end Sys2Proof.Machine
end

