-- ==== Sys2Proof/Machine/Gatherer.lean ====
section
/-!
DEFINITION. The Gatherer and the placement of groups (R184, R185, R196 to R207), the end of a group (R43, R118) and of a
launch (R142, R183, R186, R439).
-/

namespace Sys2Proof.Machine

/-! ### Shares (R204) -/

/-- Declarations of the groups resident on a cluster that belong to a context or its descendants: energy and current. -/
def State.declared (s : State) (c cl : Nat) : Nat × Nat :=
  let gs := s.groups.vals.filter fun g => g.phase.holds && clusterOf g.core == cl && (s.chain g.ctx).contains c
  (sumNat (gs.map (·.ep.energy)), sumNat (gs.map (·.ep.ipeak)))

/-- Admission of a group of context `c` to a cluster (R204). -/
def State.admits (s : State) (c cl : Nat) (e : Endpaper) : Bool :=
  (s.chain c).all fun d =>
    let u := s.declared d cl
    decide (u.1 + e.energy ≤ (s.ctx d).energy.getD cl 0) && decide (u.2 + e.ipeak ≤ (s.ctx d).ipeak.getD cl 0)

/-- The clusters on which a context holds a core. -/
def State.clustersOf (s : State) (c : Nat) : List Nat := ((s.ctx c).cores.map fun p => clusterOf p.1).eraseDups

/-- On every cluster that the context holds, the node's declarations exceed its shares (R207). -/
def State.neverAdmits (s : State) (c : Nat) (e : Endpaper) : Bool :=
  (s.clustersOf c).all fun cl =>
    decide ((s.ctx c).energy.getD cl 0 < e.energy) || decide ((s.ctx c).ipeak.getD cl 0 < e.ipeak)

/-! ### Classes (R184, R185) -/

/-- What competes for a launch queue: a class of a launch's node, or a stopped group. -/
structure Cand where
  first : Bool
  depth : Nat
  prio : Nat
  time : Nat
  start : Nat
  node : Nat
  ctx : Nat
  launch : Nat
  group : Option Nat
  deriving DecidableEq, Repr

/-- `a` is served before `b` (R185). -/
def Cand.before (a b : Cand) : Bool :=
  if a.first != b.first then a.first
  else if a.depth ≠ b.depth then decide (b.depth < a.depth)
  else if a.prio ≠ b.prio then decide (b.prio < a.prio)
  else if a.time ≠ b.time then decide (a.time < b.time)
  else if a.start ≠ b.start then decide (a.start < b.start)
  else decide (a.node < b.node)

/-- The records of a class, oldest first. -/
def Node.cls (n : Node) (d : Nat) : List Rec := n.ready.filter fun r => r.depth == d

/-- A class is launchable (R184). -/
def Node.launchable (n : Node) (now d : Nat) : Bool :=
  match n.cls d with
  | [] => false
  | r :: t => decide (n.target ≤ t.length + 1) || decide (r.time + 128 * n.ep.timer ≤ now)

/-- The launchable classes. -/
def State.classes (s : State) : List Cand :=
  s.launches.rows.flatMap fun p =>
    let l := p.2
    if l.ended || l.killed || l.hung || (s.ctx l.ctx).hung || (s.ctx l.ctx).freeing then []
    else l.nodes.rows.flatMap fun q =>
      let n := q.2
      ((n.ready.map (·.depth)).eraseDups.filter fun d => n.launchable s.now d).map fun d =>
        { first := n.starved || decide (n.cap ≤ n.slots.rows.length), depth := d, prio := n.prio
          time := ((n.cls d).head?.map (·.time)).getD 0, start := l.start, node := q.1, ctx := l.ctx, launch := p.1
          group := none }

/-- The groups in some launch queue. -/
def State.inQueues (s : State) : List Nat := s.clusters.vals.flatMap (·.queue)

/-- The groups that wait for a launch queue: stopped ones, which are in the first class (R202, R250), and formed ones whose
cluster their context has lost. -/
def State.returning (s : State) : List Cand :=
  let q := s.inQueues
  s.groups.rows.filterMap fun p =>
    let g := p.2
    let wait := match g.phase with
      | .stopped _ => true
      | _ => g.phase == .queued
    if !wait || q.contains p.1 || (s.ctx g.ctx).hung || (s.ctx g.ctx).freeing then none
    else some
        { first := g.phase != .queued, depth := g.depth, prio := (s.node g.launch g.node).prio, time := 0
          start := (s.launch g.launch).start, node := g.node, ctx := g.ctx, launch := g.launch, group := some p.1 }

/-- A core on which a context may place a group: nobody's use of it is just ending. -/
def State.usable (s : State) (c core : Nat) : Bool :=
  s.granted c core && s.holdsTurn c core && (s.core core).leaving.isEmpty && !(s.core core).retired && !(s.core core).testing

/-- Wave slots in use on a core (R4). -/
def State.slotsUsed (s : State) (core : Nat) : List Nat := (s.wavesOn core).map fun k => (s.wave k).slot
/-- Free wave slots of a core. -/
def State.slotsFree (s : State) (core : Nat) : Nat := Config.waveSlots - (s.slotsUsed core).length

/-- The largest of some numbers with a weight, the first of equals. -/
def mostOf (weight : Nat → Nat) : List Nat → Option Nat
  | [] => none
  | a :: t =>
    match mostOf weight t with
    | some b => if weight a < weight b then some b else some a
    | none => some a

/-- The cores of a cluster that are granted to a context and whose turn it holds (R196). -/
def State.heldIn (s : State) (c cl : Nat) : List Nat :=
  ((List.range 4).map (4 * cl + ·)).filter fun k => s.granted c k && s.holdsTurn c k

/-- A cluster is granted to a context: some core of it, that no child has (R196). -/
def State.clusterGranted (s : State) (c cl : Nat) : Bool :=
  ((List.range 4).map (4 * cl + ·)).any fun k => s.granted c k && !s.grantedOn c k

/-- The cluster that takes a group of context `c`: of those granted to it with room in the launch queue, the one with the most
free wave slots (R196). -/
def State.clusterFor (s : State) (c : Nat) : Option Nat :=
  let cs := (List.range 96).filter fun cl => decide ((s.cluster cl).queue.length < 8) && s.clusterGranted c cl
  mostOf (fun cl => sumNat ((s.heldIn c cl).map s.slotsFree)) cs

/-- The best of the candidates whose context has a cluster with room, with that cluster. -/
def State.bestCand (s : State) : List Cand → Option (Cand × Nat)
  | [] => none
  | a :: t =>
    match s.bestCand t with
    | some (b, cl) =>
      if a.before b then
        match s.clusterFor a.ctx with
        | some k => some (a, k)
        | none => some (b, cl)
      else some (b, cl)
    | none => (s.clusterFor a.ctx).map fun k => (a, k)

/-- A group joins a launch queue. -/
def State.enqueueGroup (s : State) (cl g : Nat) : State :=
  let k := s.cluster cl
  (s.setCluster cl { k with queue := k.queue ++ [g] }).postOnce 1 (.groupPlacement cl)

/-- Forms a group from a class: its oldest records are assigned to it (R163, R181, R184). -/
def State.formGroup (s : State) (a : Cand) : State × Nat :=
  let n := s.node a.launch a.node
  let rs := (n.cls a.depth).take n.target
  let slots := rs.map (·.slot)
  let g := s.nextGroup
  let l := s.launch a.launch
  let n' := { n with
    starved := false, ready := n.ready.filter fun r => !slots.contains r.slot
    slots := slots.foldl (fun t i => t.set i (.assigned g)) n.slots }
  let x : Group :=
    { ctx := a.ctx, launch := a.launch, node := a.node, gid := l.nextGid, depth := a.depth, launchBase := n.base, ep := n.ep
      waves := (n.target + 31) / 32, records := slots }
  let s : State := { s with nextGroup := g + 1 }
  (((s.setLaunch a.launch { l with nextGid := l.nextGid + 1 }).setNode a.launch a.node n').setGroup g x, g)

/-- ADMISSION of R207, once per node and launch: to the ring of the context. -/
def State.admissionFault (s : State) (c l node : Nat) : State :=
  let n := s.node l node
  if n.admission then s
  else
    (s.setNode l node { n with admission := true }).toRing (s.ringOf (s.chain c)) (s.partition c)
      { ctx := c, tcause := 0x0A, tinfo := BitVec.ofNat 64 node, word2c := 2 ^ 16 * (s.ctx c).depth }

/-- GATHERER_DISPATCH: the best launchable class, or stopped group, passes to a cluster's launch queue (R185, R196). -/
def execGathererDispatch (s : State) : Out :=
  let all := s.classes
  let bad := all.filter fun a => s.neverAdmits a.ctx (s.node a.launch a.node).ep
  let s := bad.foldl (fun s a => s.admissionFault a.ctx a.launch a.node) s
  match s.bestCand (s.returning ++ all.filter fun a => !bad.contains a) with
  | none => .next s
  | some (a, cl) =>
    match a.group with
    | some g => .next ((s.enqueueGroup cl g).pokeGatherer)
    | none =>
      let r := s.formGroup a
      .next ((r.1.enqueueGroup cl r.2).pokeGatherer)

/-- GATHERER_TIMER_EXPIRY: the oldest record of a class has waited for its node's timer (R184). -/
def execGathererTimerExpiry (_launch _node _depth : Nat) (s : State) : Out := .next s.pokeGatherer

/-! ### Placement (R42, R197, R200) -/

/-- The sizes of a group's reservations, rounded to their granules (R42). -/
def Endpaper.size (e : Endpaper) : Buf → Nat
  | .s => 1024 * e.sres
  | .a => roundUp (1024 * e.ares) 4096
  | .w => roundUp (1024 * e.wres) 4096
  | .c => 16384 * e.cres
/-- Granule and size of a buffer (R39, R42). -/
def Buf.granule : Buf → Nat × Nat
  | .s => (1024, 2 ^ 18)
  | .a => (4096, 2 ^ 19)
  | .w => (4096, 2 ^ 19)
  | .c => (16384, 2 ^ 18)
/-- The four buffers. -/
def allBufs : List Buf := [.s, .a, .w, .c]

/-- The ranges of a buffer that are taken: reservations, and ranges that are being zeroed (R42, R43). -/
def State.takenRanges (s : State) (core : Nat) (b : Buf) : List Range :=
  ((s.resident core).map fun g => (s.group g).range b) ++
    ((s.core core).zeroing.filter fun z => z.2.1 == b).map fun z => z.2.2

/-- The base of a new reservation in a buffer (R42). -/
def State.reserve (s : State) (core : Nat) (b : Buf) (n : Nat) : Option Nat :=
  if n = 0 then some 0
  else
    let used := s.takenRanges core b
    lowestFit used b.granule.1 n b.granule.2 (used.length + 1) 0

/-- Register names that a group needs to be backed (R200). -/
def State.namesOf (s : State) (g : Nat) : Nat :=
  let x := s.group g
  match x.phase with
  | .queued => 8 * x.ep.gran * x.waves
  | _ => sumNat (((s.wavesOf g).filter fun k => (s.wave k).phase != .ended).map fun k =>
      8 * (s.wave k).granules - (s.wave k).demotedNames)

/-- Waves that need a slot. -/
def State.wavesNeeded (s : State) (g : Nat) : Nat :=
  let x := s.group g
  match x.phase with
  | .queued => x.waves
  | _ => countIf (fun k => (s.wave k).phase != .ended) (s.wavesOf g)

/-- Recipe-table entries that a group brings (R194). -/
def State.recipesOf (s : State) (g : Nat) : Nat := sumNat ((s.wavesOf g).map fun k => (s.wave k).recipes.length)
/-- Recipe-table entries in use on a core. -/
def State.entriesUsed (s : State) (core : Nat) : Nat := sumNat ((s.wavesOn core).map fun k => (s.wave k).recipes.length)

/-- Free stack slots of a context. -/
def Context.stackFree (x : Context) : Nat := x.stkSlots - x.stackUsed.length
/-- Free folio slots of a context (R248). -/
def Context.folioFree (x : Context) : Nat := x.saveSlots - x.folioUsed.length

/-- The first condition of R197 that a core does not meet for a group, numbered from 1 in the order of the table. -/
def State.placeFail (s : State) (g core : Nat) : Option Nat :=
  let x := s.group g
  let c := s.ctx x.ctx
  let fresh := x.phase == .queued
  let d := s.domain (coreDomain core)
  if !s.usable x.ctx core then some 1
  else if Config.groupSlots ≤ (s.resident core).length ∨ s.slotsFree core < s.wavesNeeded g then some 2
  else if Config.physRegs < s.backing core + s.namesOf g then some 3
  else if allBufs.any fun b => (s.reserve core b (x.ep.size b)).isNone then some 4
  else if fresh && ((c.stkSlots ≠ 0 && decide (c.stackFree < x.waves)) || c.folioFree = 0) then some 5
  else if !fresh && decide (Config.recipeEntries < s.entriesUsed core + s.recipesOf g) then some 6
  else if !s.admits x.ctx (clusterOf core) x.ep then some 7
  else if d.gatePending || d.gated then some 8
  else none

/-- The check of register room comes with its demotions, on the cores that reach it (R200). -/
def State.roomFor (s : State) (g cl : Nat) : State :=
  ((List.range 4).map (4 * cl + ·)).foldl (fun s k =>
    if s.placeFail g k = some 3 then s.makeRoom k (s.namesOf g) Config.recipeEntries else s) s

/-- The core of a cluster that takes a group (R196). -/
def State.coreFor (s : State) (g cl : Nat) : Option Nat :=
  mostOf s.slotsFree (((List.range 4).map (4 * cl + ·)).filter fun k => s.placeFail g k = none)

/-- The `n` lowest numbers below a bound that are not used. -/
def freeNumbers (used : List Nat) (bound n : Nat) : List Nat := ((List.range bound).filter fun i => !used.contains i).take n

/-- A group takes fresh reservations on a core (R42). -/
def State.takeRanges (s : State) (g core : Nat) : State :=
  let x := s.group g
  let r := fun (b : Buf) => ({ base := (s.reserve core b (x.ep.size b)).getD 0, size := x.ep.size b } : Range)
  s.setGroup g { x with core := core, rs := r .s, ra := r .a, rw := r .w, rc := r .c }

/-- A new wave of a group (R168, R174, R184, R235). `recs`: the byte offsets of its lanes' records from the queue base. -/
def newWave (x : Group) (g wid slot placed count : Nat) (stack : Option Nat) (recs : List Nat) : Wave :=
  let e := x.ep
  { group := g, wid := wid, slot := slot, placed := placed
    dx := lanesOf fun l => if l < recs.length then 0 else 0xFFFFFFFF
    v := (⟨[]⟩ : Tab Lanes).set 0 (lanesOf fun l => BitVec.ofNat 32 (recs.getD l 0))
    s := ((((⟨[]⟩ : Tab DWord).set 0 (BitVec.ofNat 64 count)).set 1 (BitVec.ofNat 64 x.node)).set 2 (BitVec.ofNat 64 x.depth)).set
      3 (BitVec.ofNat 64 x.launchBase)
    ppoint := BitVec.ofNat 64 (4096 + 2 ^ 17 * e.promise.toNat)
    tvec := BitVec.ofNat 64 (e.hoff + 2 ^ 32 * e.handler.toNat)
    granules := e.gran, stackSlot := stack }

/-- The waves of a new group enter a core's wave slots; a wave without a record ends (R184). -/
def State.makeWaves (s : State) (g core : Nat) : State :=
  let x := s.group g
  let c := s.ctx x.ctx
  let z := (s.node x.launch x.node).z
  let slots := freeNumbers (s.slotsUsed core) Config.waveSlots x.waves
  let stackSlots := if c.stkSlots = 0 then [] else freeNumbers c.stackUsed c.stkSlots x.waves
  let offs := x.records.map (· * z)
  let s := s.setCtx x.ctx { c with
    stackUsed := c.stackUsed ++ stackSlots, folioUsed := c.folioUsed ++ [x.folio] }
  let s := (List.range x.waves).foldl (fun s i =>
    s.setWave (16 * g + i)
      (newWave x g i (slots.getD i 0) (s.placements + i) x.records.length stackSlots[i]? ((offs.drop (32 * i)).take 32))) s
  let s : State := { s with placements := s.placements + x.waves }
  (List.range x.waves).foldl (fun s i => if (s.wave (16 * g + i)).live = 0 then s.endWave (16 * g + i) else s) s

/-- A group has been placed: a progress event, and other units look again (R112, R223). -/
def State.placed (s : State) (g core : Nat) : State :=
  let x := s.group g
  let l := s.launch x.launch
  let s := s.setLaunch x.launch { l with ranOn := if l.ranOn.contains core then l.ranOn else l.ranOn ++ [core] }
  (s.progress x.ctx).pokeEngines (clusterOf core)

/-- Places a new group on a core (R184, R196, R248). -/
def State.placeGroup (s : State) (g core : Nat) : State :=
  let s := s.takeRanges g core
  let x := s.group g
  let c := s.ctx x.ctx
  let folio := (freeNumbers c.folioUsed c.saveSlots 1).headD 0
  let all := BitVec.ofNat 16 (2 ^ x.waves - 1)
  let s := s.setGroup g { x with
    phase := .resident, placedAt := s.placements, folio := folio, sets := (⟨[]⟩ : Tab MSet).set 0 { members := all } }
  let s := if x.records.length < (s.node x.launch x.node).target then s.charge x.ctx 0x0E 1 else s
  let s := s.acquireOn core x.ctx kindQueue x.node (s.queueRegion x.launch x.node)
  (s.placed g core).makeWaves g core

/-- Places a stopped group: it takes fresh reservations and wave slots, and its restore follows (R250). -/
def State.placeAgain (s : State) (g core kind : Nat) : State :=
  let s := s.takeRanges g core
  let ks := (s.wavesOf g).filter fun k => (s.wave k).phase != .ended
  let slots := freeNumbers (s.slotsUsed core) Config.waveSlots ks.length
  let s := ks.zipIdx.foldl (fun s p =>
    s.setWave p.1 { s.wave p.1 with slot := slots.getD p.2 0, placed := s.placements + p.2 }) s
  let s := s.setGroup g { s.group g with phase := .restoring kind, placedAt := s.placements }
  let s : State := { s with placements := s.placements + ks.length }
  (s.placed g core).postOnce 1 (.groupRestore g)

/-- Removes a group from a cluster's launch queue. -/
def State.dequeueGroup (s : State) (cl g : Nat) : State :=
  let k := s.cluster cl
  s.setCluster cl { k with queue := k.queue.filter (· != g) }

/-- Every record of a node is discarded as abandoned, with its groups that wait (R414). -/
def State.discardNode (s : State) (l node : Nat) : State :=
  let n := s.node l node
  let gs := (s.groups.rows.filter fun p => p.2.launch == l && p.2.node == node && p.2.phase == .queued).map (·.1)
  let lost := fun (p : Nat × SlotState) => match p.2 with
    | .allocated _ => false
    | _ => true
  let s := s.setNode l node { n with
    check := 2, ready := [], slots := ⟨n.slots.rows.filter fun p => !lost p⟩
    abandoned := n.abandoned + countIf lost n.slots.rows }
  let s := gs.foldl (fun s g => s.setGroup g { s.group g with phase := .ended, records := [] }) s
  let s := s.clusters.keys.foldl (fun s cl => gs.foldl (fun s g => s.dequeueGroup cl g) s) s
  let x := s.launch l
  let gone := fun (k : Nat) => gs.contains (k / 16)
  let s := (s.setLaunch l { x with
    lcounted := x.lcounted.filter fun k => !gone k, larrived := x.larrived.filter fun k => !gone k }).checkLaunchBarrier l
  ((s.postOnce 0 (.continuationEnqueue l)).noteEnd l).pokeGatherer

/-- The LAUNCH cause of a failed check: to the ring of the parent, reflected, with ticket 0 (R414). -/
def State.launchFault (s : State) (g code idx : Nat) : State :=
  let x := s.group g
  let l := s.launch x.launch
  let addr := if code = 0x0D then l.table else x.ep.addr
  s.toRing (s.ringOf (s.chain x.ctx).tail) (s.partition x.ctx)
    { ctx := x.ctx, tcause := 0x11 + 2 ^ 9, taddr := BitVec.ofNat 64 addr, tinfo := BitVec.ofNat 64 (code + 2 ^ 16 * idx)
      gid := x.gid, word2c := 2 ^ 8 * x.node + 2 ^ 16 * (s.ctx x.ctx).depth }

/-- The launch check of a group's node, made once per launch (R414). The record size stays that of the placed queue. -/
def State.checkNode (s : State) (g : Nat) : State :=
  let x := s.group g
  let n := s.node x.launch x.node
  let r := s.launchCheck x.launch x.node
  let s := s.checkReads x.launch x.node
  match r with
  | .error (.inl f) =>
    let s := if n.readFault then s
      else (s.setNode x.launch x.node { n with readFault := true }).deviceFault x.ctx f false
    s.post Config.usCycles (.launchStructureReread x.launch x.node)
  | .error (.inr (code, idx)) => (s.launchFault g code idx).discardNode x.launch x.node
  | .ok (e, live, rs) =>
    s.setNode x.launch x.node
      { n with check := 1, readFault := false, live := live, slices := rs, ep := { e with recsz := n.ep.recsz } }

/-- GROUP_PLACEMENT: the head of a cluster's launch queue is placed on a core that meets every condition (R196, R197). -/
def execGroupPlacement (cl : Nat) (s : State) : Out :=
  match (s.cluster cl).queue with
  | [] => .next s
  | g :: rest =>
    let more := fun (s : State) => if rest.isEmpty then s else s.postOnce 1 (.groupPlacement cl)
    let x := s.group g
    let n := s.node x.launch x.node
    let fresh := x.phase == .queued
    if fresh && n.check = 0 && n.readFault then .next s
    else
      let s := if fresh && n.check = 0 then s.checkNode g else s
      let n := s.node x.launch x.node
      if fresh && n.check ≠ 1 then .next (more s)
      else
        let s := if fresh then s.setGroup g { x with ep := n.ep } else s
        let s := s.roomFor g cl
        match s.coreFor g cl with
        | none => .next s
        | some core =>
          let s := s.dequeueGroup cl g
          let s := match x.phase with
            | .stopped k => s.placeAgain g core k
            | _ => s.placeGroup g core
          .next ((more s).pokeGatherer)

/-- The table entry and the Endpaper of a node that could not be read at the start of its launch are read again; once they can be,
its queue is placed beside the others (R414, R449). DESIGN CHOICE (log 102): until then the node's queue has no slot, and one
that does not fit is tried again. -/
def State.rereadNode (s : State) (l node : Nat) : State :=
  let x := s.launch l
  let n := s.node l node
  match s.readNode x.ctx x.table node with
  | .error _ => s
  | .ok y =>
    let lo := (s.ctx x.ctx).qbase
    match placeQueues lo (lo + s.queuePart x.ctx) (s.queueRanges x.ctx) [y.cap * y.z] with
    | some (b :: _) =>
      (s.startReads x.ctx x.table node [y]).setNode l node
        { n with ep := y.ep, entry := y.entry, page := y.page, cap := y.cap, prio := y.prio, base := b }
    | _ => s

/-- LAUNCH_STRUCTURE_REREAD: the structures of a node are read again, every microsecond until they can be (R414). -/
def execLaunchStructureReread (l node : Nat) (s : State) : Out :=
  if (s.node l node).check ≠ 0 ∨ (s.launch l).ended then .next s
  else if (s.node l node).entry.isEmpty then .next ((s.rereadNode l node).post Config.usCycles (.launchStructureReread l node))
  else match s.inQueues.find? fun g => (s.group g).launch == l && (s.group g).node == node with
  | none => .next (s.postOnce Config.usCycles (.launchStructureReread l node))
  | some g => .next ((s.checkNode g).pokeQueues)

/-! ### Continuations (R183) -/

/-- A continuation record enters a slot of its node's queue, with CONT cleared, as if it had been committed. -/
def State.takeContinuation (s : State) (l join node slot : Nat) : State :=
  let x := s.launch l
  let n := s.node l node
  let z := n.z
  let r := s.globRead x.ctx (join + 64) z
  let s := s.globTouch x.ctx (join + 64) z
  let place := s.setNode l node { n with ring := slot + 1 }
  match r with
  | .error f => (s.deviceFault x.ctx f false).setNode l node { n with abandoned := n.abandoned + 1 }
  | .ok b =>
    let h := numAt b 0 8
    let h' := h - h / 2 ^ 16 % 2 * 2 ^ 16
    let b := leBytes 8 h' ++ b.drop 8
    match place.globWrites x.ctx ((List.range (z / 32)).map fun i => (n.base + slot * z + 32 * i, (b.drop (32 * i)).take 32)) with
    | .error f => (s.deviceFault x.ctx f true).setNode l node { n with abandoned := n.abandoned + 1 }
    | .ok s' => s'.commitSlot l node slot (bits h 13 8)

/-- The Gatherer takes a continuation record now, or when its node's queue has a free slot. -/
def State.continuation (s : State) (l join node : Nat) : State :=
  match (s.node l node).nextFree with
  | some slot => s.takeContinuation l join node slot
  | none =>
    let x := s.launch l
    s.setLaunch l { x with continuations := x.continuations ++ [(join, node)] }

/-- CONTINUATION_ENQUEUE: a waiting continuation record takes a free slot (R183). -/
def execContinuationEnqueue (l : Nat) (s : State) : Out :=
  let x := s.launch l
  match x.continuations.find? fun p => (s.node l p.2).nextFree.isSome with
  | none => .next s
  | some p =>
    match (s.node l p.2).nextFree with
    | none => .next s
    | some slot =>
      let s := s.setLaunch l { x with continuations := x.continuations.filter (· != p) ++
        ((x.continuations.filter (· == p)).drop 1) }
      .next (((s.takeContinuation l p.1 p.2 slot).postOnce 1 (.continuationEnqueue l)).noteEnd l)

/-! ### The end of a group (R43, R118, R181) -/

/-- A group's operations in the engines, the array and the gather unit are complete, and its stores have left (R118). -/
def State.workDone (s : State) (g : Nat) : Bool :=
  let x := s.group g
  let k := s.core x.core
  !((s.cluster (clusterOf x.core)).engines.vals.any fun l => l.any fun o => o.group == g) && (s.matrixWork g).isEmpty &&
    !(k.gatherQ.any fun q => q.group == g) &&
    (s.wavesOf g).all fun j => (s.wave j).storeQ.isEmpty && (s.wave j).remotes.all fun m => m.op == .load

/-- The head of a queue waits on a circular buffer or on slices of a stopped group: it is withdrawn (R118). -/
def State.withdrawable (s : State) (o : EngineOp) : Bool :=
  let noSlot := match o.cb, o.slot with
    | some c, none => decide (((s.core (s.group o.group).core).cbs.getD c {}).free = 0)
    | _, _ => false
  !o.started && (noSlot || o.counted.any fun w => !o.slices.any fun x => x.wid == w)

/-- The targets of a multicast for which its delivery waits are skipped (R112): those that cannot be delivered now. -/
def State.skipTargets (s : State) (cl : Nat) (o : EngineOp) : EngineOp :=
  { o with targets := o.targets.map fun t =>
      let ready := match s.oldestOn o.launch (targetCore cl t.k) with
        | some g => decide (g = o.group) || s.canBind g o.handle
        | none => false
      if o.mcast ≠ 0 ∧ t.state = 0 ∧ t.follow = false ∧ ready = false then { t with state := 2 } else t }

/-- The head of one queue, if it is an operation of the group that waits, is withdrawn or ends its waits (R112, R118). -/
def State.releaseHead (s : State) (g cl key : Nat) : State :=
  match s.queueOf cl (key / 4) (key % 4) with
  | [] => s
  | o :: t =>
    if o.group ≠ g then s
    else if s.withdrawable o then
      let x := s.group g
      ((s.setQueue cl (key / 4) (key % 4) t).setGroup g { x with withdrawn := x.withdrawn ++ [(key, o)] }).pokeEngines cl
    else if o.started then
      let o' := s.skipTargets cl o
      if o' = o then s else s.checkTargets cl (key / 4) (key % 4) o'
    else s

/-- The heads of the eight queues of the group's cluster. -/
def State.releaseHeads (s : State) (g : Nat) : State :=
  (List.range 8).foldl (fun s key => s.releaseHead g (clusterOf (s.group g).core) key) s

/-- The stores of a group's waves leave their queues. -/
def State.drainGroup (s : State) (g : Nat) : State := (s.wavesOf g).foldl (fun s k => s.drain k) s

/-- The slots that a group received are free; those it allocated without committing are abandoned (R181). -/
def State.freeSlots (s : State) (g : Nat) : State :=
  let x := s.group g
  (s.launch x.launch).nodes.keys.foldl (fun s i =>
    let n := s.node x.launch i
    let keep := n.slots.rows.filter fun p => p.2 != .allocated g && p.2 != .assigned g
    let lost := countIf (fun p => p.2 == .allocated g) n.slots.rows
    s.setNode x.launch i { n with slots := ⟨keep⟩, abandoned := n.abandoned + lost }) s

/-- Cycles in which a group's ranges are zeroed: the rows of the busiest bank (R43). -/
def Group.zeroTime (x : Group) : Nat :=
  max 1 (max (x.rs.size / 128) (max (x.ra.size / 1024) (max (x.rw.size / 1024) (x.rc.size / 2048))))

/-- The group's ranges begin to be zeroed (R43). -/
def State.startZeroing (s : State) (g : Nat) : State :=
  let x := s.group g
  let k := s.core x.core
  let zs := (allBufs.filter fun b => (x.range b).size != 0).map fun b => (g, b, x.range b)
  (s.setCore x.core { k with zeroing := k.zeroing ++ zs }).post x.zeroTime (.reservationZeroingDone x.core g)

/-- The circular buffers of a group are released (R54). -/
def State.releaseCbs (s : State) (g core : Nat) : State :=
  let k := s.core core
  s.setCore core { k with cbs := ⟨k.cbs.rows.filter fun p => p.2.owner != g⟩ }

/-- The waves of a group are gone. -/
def State.dropWaves (s : State) (g : Nat) : State :=
  { s with waves := ⟨s.waves.rows.filter fun p => p.1 / 16 != g⟩ }

/-- The units that wait for room on a core, in a cluster or in a context look again. -/
def State.freedOn (s : State) (core : Nat) : State :=
  (((((s.qFell core).poke core).pokeQueues).pokeGatherer).pokeGate (coreDomain core)).noteDeadlock core

/-- Front ends that wait for room look again (R438, R449). -/
def State.pokeFrontEnds (s : State) : State :=
  s.frontEnds.rows.foldl (fun s p => if p.2.enable && p.2.stalled then s.postOnce 1 (.feSubmissionEntry p.1) else s) s

/-- GROUP_TEARDOWN: the end of a group, when its operations have completed (R43, R118, R181). -/
def execGroupTeardown (g : Nat) (s : State) : Out :=
  let x := s.group g
  if x.phase != .ending then .next s
  else
    let s := s.drainGroup g
    let s := if x.frozen.isEmpty then s else (s.thaw g).pokeArray x.core
    -- what waits at the queue heads of a context that its hang stop has ended is withdrawn (R118)
    let s := if (s.ctx x.ctx).hung then s.releaseHeads g else s
    if !s.workDone g then .next (s.postOnce 64 (.groupTeardown g))
    else
      let c := s.ctx x.ctx
      let stackSlots := (s.wavesOf g).filterMap fun k => (s.wave k).stackSlot
      let s := s.setCtx x.ctx { c with
        stackUsed := c.stackUsed.filter fun i => !stackSlots.contains i, folioUsed := c.folioUsed.filter (· != x.folio) }
      let s := ((s.freeSlots g).startZeroing g).releaseCbs g x.core
      let s := (s.setGroup g { ctx := x.ctx, launch := x.launch, node := x.node, gid := x.gid, core := x.core, phase := .ended }).dropWaves g
      let s := (s.progress x.ctx).freedOn x.core
      .next (((s.postOnce 0 (.continuationEnqueue x.launch)).noteEnd x.launch).pokeFrontEnds)

/-- RESERVATION_ZEROING_DONE: the ranges that a group held read zero, with their tile metadata, and may be placed again
(R43). -/
def execReservationZeroingDone (core g : Nat) (s : State) : Out :=
  let k := s.core core
  let zs := k.zeroing.filter fun z => z.1 == g
  let s := s.setCore core { k with zeroing := k.zeroing.filter fun z => z.1 != g }
  let s := zs.foldl (fun s z =>
    let r := z.2.2
    let k := s.core core
    let k := k.setBuf z.2.1 (memClear (k.buf z.2.1) r.base (r.base + r.size))
    let k := if z.2.1 = .c then
        { k with tiles := ⟨k.tiles.rows.filter fun p => !(decide (r.base ≤ 16384 * p.1) && decide (16384 * p.1 < r.base + r.size))⟩ }
      else k
    let s := (s.setCore core k).cure z.2.1.unit core r.base r.size
    if z.2.1 = .c then (List.range (r.size / 16384)).foldl (fun s t => s.cureMeta core (r.base / 16384 + t)) s else s) s
  .next s.pokeQueues

/-! ### The end of a launch (R142, R186, R439) -/

/-- The condition of R186. -/
def State.launchOver (s : State) (l : Nat) : Bool :=
  let x := s.launch l
  (x.nodes.vals.all fun n => n.slots.rows.isEmpty) && x.continuations.isEmpty &&
    !(s.groups.vals.any fun g => g.launch == l && g.alive)

/-- Abandoned slots of a launch (R181). -/
def Launch.abandonedSlots (x : Launch) : Nat := sumNat (x.nodes.vals.map (·.abandoned))

/-- The status of a completion word (R439). -/
def Launch.status (x : Launch) : Nat := if x.hung then 2 else if x.killed then 1 else 0

/-- A completion word (R439). -/
def completionWord (seq abandoned status : Nat) : Nat :=
  seq % 2 ^ 24 * 2 ^ 40 + abandoned % 2 ^ 32 * 2 ^ 8 + status

/-- Writes a completion word where its launch says (R439): for a front end to the host, else through the issuer's window. -/
def State.writeCompletion (s : State) (fe : Option Nat) (issuer addr word : Nat) : State :=
  if addr = 0 then s
  else match fe with
  | some _ => { s with host := memWriteN s.host addr (leBytes 8 word) }
  | none =>
    match s.globWriteRun issuer addr (leBytes 8 word) with
    | .ok s' => s'
    | .error f => s.deviceFault issuer f true

/-- The front end of a launch is in ring error: it writes no completion until the host disables it (R438). -/
def State.ringError (s : State) (fe : Option Nat) : Bool := fe.any fun f => (s.frontEnd f).status == 3

/-- The completion word of a launch is written, and its interrupt follows (R439). -/
def State.complete (s : State) (l word : Nat) : State :=
  let x := s.launch l
  let s := s.writeCompletion x.frontEnd ((s.ctx x.ctx).parent.getD x.ctx) x.completion word
  if x.frontEnd.isSome && x.vector != 0xFFFFFFFF then
    (s.setLaunch l { s.launch l with interrupt := true }).post 1 (.completionInterrupt l)
  else s

/-- The completion word of a launch waits for its front end, in ring error, behind those of the launches that ended before it
(R438, R439). -/
def State.owe (s : State) (l word : Nat) : State :=
  let x := s.launch l
  let f := x.frontEnd.getD 0
  let y := s.frontEnd f
  (s.setLaunch l { x with owed := some word }).setFrontEnd f { y with owes := y.owes ++ [l] }

/-- LAUNCH_COMPLETION: the system-scope release on the cores that ran the launch, then the completion word (R142, R186,
R439). -/
def execLaunchCompletion (l : Nat) (s : State) : Out :=
  let x := s.launch l
  if x.ended || !s.launchOver l || (s.launches.get? l).isNone then .next s
  else
    let s := x.ranOn.foldl (fun s k => (s.l1Clean k fun _ => true).1) s
    let c := s.ctx x.ctx
    let s := s.setCtx x.ctx { c with abandoned := c.abandoned + x.abandonedSlots }
    let s := s.setLaunch l { x with ended := true, nodes := ⟨[]⟩ }
    let word := completionWord x.seq x.abandonedSlots x.status
    .next (if s.ringError x.frontEnd then s.owe l word else s.complete l word).pokeFrontEnds

/-- COMPLETION_INTERRUPT: after the completion word, one 32-bit write of the vector to the interrupt address (R439). -/
def execCompletionInterrupt (l : Nat) (s : State) : Out :=
  let x := s.launch l
  match x.frontEnd with
  | none => .next s
  | some f =>
    if x.interrupt then
      let a := (s.frontEnd f).interrupt.toNat
      let s : State := { s with
        host := memWriteN s.host a (leBytes 4 x.vector.toNat), sent := (a, x.vector.toNat) :: s.sent }
      .next (s.setLaunch l { x with interrupt := false })
    else .next s

end Sys2Proof.Machine
end

