-- ==== Sys2Proof/Machine/Spine.lean ====
section
/-!
DEFINITION. The Spine FIFOs between the cores of a vertical pair (R62 to R64, R374).
-/

namespace Sys2Proof.Machine

/-- Either core of the issuing core's pair is not granted to the issuing context (R374). -/
def pairCheck (s : State) : Option Trap :=
  let c := s.g.ctx
  if s.granted c s.g.core && s.granted c (partner s.g.core) then none else some (refusal 0x5C)

/-- The sender's free count of the FIFO into a core (R62); 0 while the core's domain is gated (R65). -/
def State.spineFree (s : State) (core : Nat) : Nat := if (s.domain (coreDomain core)).gated then 0 else (s.core core).spine.free

/-- The delay of R63 across a pair: 8 cycles of the slower clock, in nominal cycles. -/
def State.spineDelay (s : State) (core : Nat) : Nat :=
  let f := min (pointMHz (s.domain (coreDomain core)).point) (pointMHz (s.domain (coreDomain (partner core))).point)
  (8 * 2000 + f - 1) / f

/-- Replaces the FIFO into a core. -/
def State.setSpine (s : State) (core : Nat) (x : Spine) : State := s.setCore core { s.core core with spine := x }

/-- SPUSH (R62): every lane is sent, whatever the active lanes and JORD. An entry that becomes the head is a word written anew
(R241). -/
def spineSend (a : Nat) (s : State) : Out :=
  withOperands s 4 [{ field := 1, kind := .v, reg := a, src := some 0 }] (pairCheck s) fun s =>
    let p := partner s.g.core
    if s.spineFree p = 0 then .next s.block
    else
      let x := (s.core p).spine
      let d := s.spineDelay p
      let s := s.setSpine p { x with entries := x.entries ++ [(s.now + d, s.vaReg a)], free := x.free - 1 }
      let s := if x.entries.isEmpty then s.cure 10 p 0 2048 else s
      .next ((s.post d (.spineEntryArrival p)).finish 4)

/-- An uncorrectable word in the head entry of the FIFO into a core (R241, log 46). -/
def State.spineBad (s : State) (core : Nat) : Bool := s.uncorr.any fun e => e.1 == 10 && e.2.1 == core

/-- SPOP (R62, R374): the head entry goes to the active lanes, and the register is full four cycles later. -/
def spineTake (d : Nat) (s : State) : Out :=
  withOperands s 4 [{ field := 0, kind := .v, reg := d, dst := true }] (pairCheck s) fun s =>
    let core := s.g.core
    let x := (s.core core).spine
    match x.entries with
    | (0, v) :: rest =>
      if s.spineBad core then .next (s.trap { cause := 0x0B, info := BitVec.ofNat 64 (10 * 2 ^ 24) })
      else
        let delay := s.spineDelay core
        let s := s.setSpine core { x with entries := rest, credits := x.credits ++ [s.now + delay] }
        let w := s.w
        let p : Pending := { tag := w.nextTag, vregs := [(d, v)], lanes := w.active, dem := w.dem }
        let s := s.setW { (w.expect p) with nextTag := w.nextTag + 1, pending := w.pending ++ [p] }
        let s := (s.post 4 (.loadResultReturn s.cur p.tag)).post delay (.spineCreditReturn core)
        .next (((s.progress s.g.ctx).finish 4).pokeGate (coreDomain core))
    | _ => .next s.block

/-- SPCNT (R62, R63). -/
def spineCount (d : Nat) (s : State) : Out :=
  withOperands s 4 [{ field := 0, kind := .s, reg := d, dst := true }] (pairCheck s) fun s =>
    s.putS d (BitVec.ofNat 64 (s.spineFree (partner s.g.core)))

/-- SPUSH (R374). -/
def execSpush (a : Nat) (s : State) : Out := spineSend a s
/-- SPOP (R374). -/
def execSpop (d : Nat) (s : State) : Out := spineTake d s
/-- SPCNT (R374). -/
def execSpcnt (d : Nat) (s : State) : Out := spineCount d s
/-- SPUSH of Roltik-2 (R280). -/
def execSpushRoltik2 (a : Nat) (s : State) : Out := spineSend a s
/-- SPOP of Roltik-2 (R280). -/
def execSpopRoltik2 (d : Nat) (s : State) : Out := spineTake d s
/-- SPCNT of Roltik-2 (R280). -/
def execSpcntRoltik2 (d : Nat) (s : State) : Out := spineCount d s

/-- The entries whose time has come have arrived: their time becomes 0. -/
def arrive (now : Nat) (l : List (Nat × Lanes)) : List (Nat × Lanes) := l.map fun p => if p.1 ≤ now then (0, p.2) else p

/-- SPINE_ENTRY_ARRIVAL: a pushed entry can be popped (R63). -/
def execSpineEntryArrival (core : Nat) (s : State) : Out :=
  let x := (s.core core).spine
  .next (s.setSpine core { x with entries := arrive s.now x.entries })

/-- SPINE_CREDIT_RETURN: the popped slots whose time has come are added to the sender's free count (R63). -/
def execSpineCreditReturn (core : Nat) (s : State) : Out :=
  let x := (s.core core).spine
  let due := countIf (fun t => decide (t ≤ s.now)) x.credits
  .next ((s.setSpine core { x with credits := x.credits.filter fun t => decide (s.now < t), free := x.free + due }).pokeGate
    (coreDomain core))

/-- A saved FIFO placed back: its entries can be popped, and the sender's free count is 16 less their number (R64). -/
def placeSpine (saved : Spine) : Spine :=
  { entries := saved.entries.map fun p => (0, p.2), free := 16 - saved.entries.length, credits := [] }

/-- A saved FIFO as its area at an address of a context's window gives it: the entries in push order from 128 bytes on
(R248). An entry that cannot be read is the one that was saved (log 33). -/
def State.readSpine (s : State) (c a : Nat) (f : Spine) : Spine :=
  { f with entries := f.entries.zipIdx.map fun p =>
      match s.globReadRun c (a + 128 + 128 * p.2) 128 with
      | .ok b => (p.1.1, lanesAt b 0)
      | .error _ => p.1 }

/-- Bytes of a FIFO's area that hold something; none of an empty one. -/
def Spine.areaBytes (f : Spine) : Nat := if f.entries.isEmpty then 0 else 128 * (f.entries.length + 1)

/-- SPINE_PAIR_FOLIO_RESTORE: the entries of a pair folio go back into the FIFOs of their pair when the context holds the
turns of both cores, once those are empty; the slot is then free (R64). DESIGN CHOICE (log 97): they go into the FIFO of a
gated domain too, which the wake then empties (R65). -/
def execSpinePairFolioRestore (c core : Nat) (s : State) : Out :=
  let x := s.ctx c
  let up := core + 192
  match x.pairFolios.find? fun p => p.2.1 == core with
  | none => .next s
  | some (slot, _, lo, hi) =>
    if !(s.holdsTurn c core && s.holdsTurn c up) then .next s
    else if (s.core core).spine.entries.isEmpty && (s.core up).spine.entries.isEmpty then
      let base := x.saveBase + slot * 2 ^ 21
      let s := [(0, 128), (0x49000, lo.areaBytes), (0x50000, hi.areaBytes)].foldl (fun s p => s.globTouch c (base + p.1) p.2) s
      let lo := s.readSpine c (base + 0x49000) lo
      let hi := s.readSpine c (base + 0x50000) hi
      let s := s.setCtx c { s.ctx c with
        pairFolios := x.pairFolios.filter fun p => p.2.1 != core, folioUsed := x.folioUsed.filter (· != slot) }
      let put := fun (s : State) (n : Nat) (f : Spine) => if f.entries.isEmpty then s else s.setSpine n (placeSpine f)
      .next ((put (put s core lo) up hi).pokeQueues)
    else .next (s.postOnce 64 (.spinePairFolioRestore c core))

/-- GATE_GRANT: a pending gate is granted once no group is resident and no entry is bound for the domain; its Spine storage
is then empty (R65). -/
def execGateGrant (d : Nat) (s : State) : Out :=
  let x := s.domain d
  if x.gatePending && !x.gated && !s.domainResident d && !s.domainSpine d then
    let s := s.setDomain d { x with gatePending := false, gated := true }
    let s := (domainClusters d).foldl (fun s c => s.setCluster c { s.cluster c with gated := true }) s
    .next ((domainCores d).foldl (fun s c => s.setSpine c {}) s)
  else .next s

/-- DOMAIN_WAKE_COMPLETE: the domain leaves its power gate 10 us after the request; its FIFOs start empty, and its clusters
wait for their start events (R65, R217). -/
def execDomainWakeComplete (d : Nat) (s : State) : Out :=
  let x := s.domain d
  if x.gated && x.waking then
    let s := s.setDomain d { x with gated := false, waking := false }
    let s := (domainCores d).foldl (fun s c => s.setSpine c {}) s
    let s : State := { s with starts := s.starts ++ (domainClusters d).map fun c => { cluster := c } }
    .next (((s.postOnce 0 .startEventAdmission).pokeQueues.pokeGatherer).pokeGate d)
  else .next s

end Sys2Proof.Machine
end

