-- ==== Sys2Proof/Machine/Folio.lean ====
section
/-!
DEFINITION. The folio: what a stop saves, its bytes in the save area, and reading them back (R64, R245, R247 to R249).
-/

namespace Sys2Proof.Machine

/-! ### What a stop saves (R240, R245, R247) -/

/-- The liveness entry with which a wave is parked. -/
def Phase.entry : Phase → Option Nat
  | .bar _ _ e => e
  | .lbar _ e => e
  | .predone e => some e
  | _ => none

/-- The wave awaits a verdict. -/
def Phase.awaits : Phase → Bool
  | .verdict _ => true
  | _ => false

/-- Entry `i` of the liveness table of a group's node. -/
def State.liveEntry (s : State) (g i : Nat) : LiveEntry :=
  (s.node (s.group g).launch (s.group g).node).live.getD i {}

/-- The entries with which the waves of a group are parked. -/
def State.entriesOf (s : State) (g : Nat) : List LiveEntry :=
  (s.wavesOf g).filterMap fun k => ((s.wave k).phase.entry).map (s.liveEntry g)

/-- A wave of the group awaits a verdict: the buffers are saved whole (R240). -/
def State.anyVerdict (s : State) (g : Nat) : Bool := (s.wavesOf g).any fun k => (s.wave k).phase.awaits

/-- Register `n` of wave `k` is saved by a stop of a kind (R245, R247); a demoted one is saved as its recipe. -/
def State.savesReg (s : State) (kind k n : Nat) : Bool :=
  let w := s.wave k
  decide (n < 8 * w.granules) && (kind != 0 || w.phase.awaits ||
    match w.phase.entry with
    | some i => (s.liveEntry w.group i).regs.getLsbD n
    | none => false)

/-- KiB `u` of the S reservation is saved. -/
def State.savesS (s : State) (kind g u : Nat) : Bool :=
  decide (1024 * u < (s.group g).rs.size) && (kind != 0 || s.anyVerdict g ||
    (s.entriesOf g).any fun e => e.ranges.any fun r => decide (r.1 ≤ u) && decide (u < r.1 + r.2))

/-- Tile `t` of the C reservation is saved. -/
def State.savesTile (s : State) (kind g t : Nat) : Bool :=
  decide (16384 * t < (s.group g).rc.size) && (kind != 0 || s.anyVerdict g || (s.entriesOf g).any fun e => e.tiles.getLsbD t)

/-- Byte `o` of a reservation is saved. -/
def State.savesByte (s : State) (kind g : Nat) (b : Buf) (o : Nat) : Bool :=
  match b with
  | .s => s.savesS kind g (o / 1024)
  | .c => s.savesTile kind g (o / 16384)
  | _ => kind != 0 || s.anyVerdict g

/-- The image of a reservation, by window offset. -/
def State.imageOf (s : State) (kind g : Nat) (b : Buf) : Memory :=
  let x := s.group g
  let r := x.range b
  ((((s.core x.core).buf b).filter fun c => decide (r.base ≤ c.1) && decide (c.1 < r.base + r.size)).map
    fun c => (c.1 - r.base, c.2)).filter fun c => s.savesByte kind g b c.1

/-- A wave keeps the registers that are saved; the others will read zero and are full (R245). -/
def State.trimWave (s : State) (kind k : Nat) : State :=
  let w := s.wave k
  let lost := (List.range (8 * w.granules)).filter fun n => !s.savesReg kind k n && !w.isDemoted n
  let drop := fun (α : Type) (t : Tab α) => (⟨t.rows.filter fun p => !lost.contains p.1⟩ : Tab α)
  s.setWave k { w with
    v := drop _ w.v, deferred := drop _ w.deferred, bad := drop _ w.bad
    empty := lost.foldl (fun m n => setBit m n false) w.empty }

/-! ### The bytes of a folio (R248, R249) -/

/-- Base of a group's folio slot in its context's window. -/
def State.folioBase (s : State) (g : Nat) : Nat := (s.ctx (s.group g).ctx).saveBase + (s.group g).folio * 2 ^ 21

/-- Some bytes, with zeros up to a length. -/
def padTo (n : Nat) (b : List Byte) : List Byte := b ++ List.replicate (n - b.length) 0

/-- The header (R249); where a wave awaits a verdict, the saved maps of a stop at liveness entries are all ones (R240). -/
def State.folioHeader (s : State) (kind g : Nat) : List Byte :=
  let x := s.group g
  let whole := kind == 0 && s.anyVerdict g
  let smap := sumNat (((List.range 256).filter fun u => whole || s.savesS kind g u).map fun u => 2 ^ u)
  let tmap := sumNat (((List.range 16).filter fun t => whole || s.savesTile kind g t).map fun t => 2 ^ t)
  let top := leBytes 4 0x5A464F4C ++ leBytes 1 kind ++ leBytes 1 x.waves ++ leBytes 1 x.node ++ leBytes 1 x.depth ++
    leBytes 4 x.gid ++ leBytes 4 0 ++ leBytes 8 x.ep.addr ++ leBytes 8 x.ctx ++ leBytes 32 smap
  let sets := (List.range 16).flatMap (fun n => leBytes 2 (x.set n).members.toNat) ++
    (List.range 16).flatMap fun n => leBytes 2 (countIf (x.set n).arrived.getLsbD (List.range 16))
  padTo 4096 (top ++ sets ++ leBytes 2 tmap)

/-- The state code of a wave in its area: a wave stopped where it stands has none of R249's and is written 4 (log 33). -/
def Phase.code : Phase → Nat
  | .bar _ _ _ => 0
  | .lbar _ _ => 0
  | .predone _ => 1
  | .verdict _ => 2
  | .ended => 3
  | _ => 4

/-- The per-wave area (R249); a verdict that is not recorded is written 15 (log 33). -/
def State.waveArea (s : State) (k : Nat) : List Byte :=
  let w := s.wave k
  let x := s.group w.group
  let lanes := fun (d : Lanes) => d.toList.flatMap fun e => leBytes 4 e.toNat
  let q := match w.quantum with
    | some (_, n) => n * 2 ^ 33 + 2 ^ 40
    | none => 0
  let slot := w.stackSlot.getD 0
  let sets := sumNat (((List.range 16).filter fun n => (x.set n).has w.wid).map fun n => 2 ^ n)
  let ticket := match w.phase with
    | .verdict n => n
    | _ => 0
  let word := w.phase.code + 2 ^ 4 * w.handler.toNat + 2 ^ 5 * (w.phase.entry.getD 0) + 2 ^ 21 * (w.recorded.getD 15) +
    2 ^ 25 * w.nib + 2 ^ 30 * sets + 2 ^ 46 * w.granules + 2 ^ 53 * (slot % 2 ^ 11)
  padTo 1024 ((List.range 32).flatMap (fun r => leBytes 8 (w.sreg r).toNat) ++
    (List.range 16).flatMap (fun r => leBytes 4 (w.mreg r).toNat) ++ lanes w.dx ++
    lanes (if w.handler then w.hdx else retiredLanes) ++
    [w.jord, w.jsr, w.fpctl, w.ppoint, w.tvec, w.tcause, w.tepc, w.taddr, w.tinfo].flatMap (fun r => leBytes 8 r.toNat) ++
    leBytes 8 (w.timer % 2 ^ 32 + 2 ^ 32 * w.backBranch.toNat + q) ++ leBytes 8 word ++
    leBytes 8 (slot / 2 ^ 11 % 8 + 8 * ticket))

/-- The register images and the three maps of a wave. -/
def State.regAreas (s : State) (base kind k : Nat) : List (Nat × List Byte) :=
  let w := s.wave k
  let names := List.range (8 * w.granules)
  let saved := names.filter fun n => s.savesReg kind k n && !w.isDemoted n
  let map := fun (p : Nat → Bool) => leBytes 16 (sumNat ((names.filter p).map fun n => 2 ^ n))
  (saved.map fun n => (base + 0x5000 + 16384 * w.wid + 128 * n, (w.vreg n).toList.flatMap fun e => leBytes 4 e.toNat)) ++
    [(base + 0x45000 + 64 * w.wid,
      map (fun n => !w.isEmpty n) ++ map w.isDemoted ++ map (fun n => saved.contains n) ++ leBytes 16 0)]

/-- The status words of the handles (R248). -/
def Group.handleWords (x : Group) : List Byte :=
  (List.range 64).flatMap fun h =>
    let y : Handle := x.handles.getD h {}
    leBytes 8 (y.st.word.toNat + 2 ^ 61 * y.bound.toNat)

/-- The two words of a circular buffer (R54). -/
def CBuf.words (x : CBuf) : List Byte :=
  leBytes 8 (x.base + 2 ^ 28 * x.slot + 2 ^ 40 * x.count + 2 ^ 62 * x.buf + 2 ^ 63 * x.valid.toNat) ++
    leBytes 8 (x.free + 2 ^ 8 * x.filled + 2 ^ 16 * x.rdidx + 2 ^ 24 * x.wridx)

/-- Offset of a buffer's image in a slot. -/
def Buf.image : Buf → Nat
  | .s => 0x80000
  | .c => 0xC0000
  | .a => 0x100000
  | .w => 0x180000

/-- The 128-byte rows of the images. -/
def State.imageAreas (s : State) (base kind g : Nat) : List (Nat × List Byte) :=
  allBufs.flatMap fun b =>
    let m := s.imageOf kind g b
    ((List.range (((s.group g).range b).size / 128)).filter fun i => s.savesByte kind g b (128 * i)).map fun i =>
      (base + b.image + 128 * i, memReadN (memFrom m (128 * i)) (128 * i) 128)

/-- The metadata words of the group's tiles. -/
def State.tileWords (s : State) (g : Nat) : List (Nat × Word) :=
  let x := s.group g
  (List.range (x.rc.size / 16384)).map fun t => (t, (s.core x.core).meta (x.rc.base / 16384 + t))

/-- A FIFO's area (R248). -/
def Spine.area (f : Spine) : List Byte :=
  padTo 128 (leBytes 8 f.free) ++ f.entries.flatMap fun e => e.2.toList.flatMap fun x => leBytes 4 x.toNat

/-- The pieces of a run of bytes of at most 128 bytes each. -/
def chunks : Nat → Nat → List Byte → List (Nat × List Byte)
  | 0, _, _ => []
  | n + 1, a, b => if b.isEmpty then [] else (a, b.take 128) :: chunks n (a + 128) (b.drop 128)

/-- Bytes of an area that R248 gives no layout. -/
def State.freeArea (s : State) (off n : Nat) : List Byte := (List.range n).map fun i => Config.folioByte s.now (off + i)

/-- The writes of a folio (R248, R382). What R248 gives no layout is in the group's row as well (log 33). -/
def State.folioWrites (s : State) (kind g : Nat) : List (Nat × List Byte) :=
  let x := s.group g
  let base := s.folioBase g
  let put := fun (a : Nat) (b : List Byte) => chunks (b.length / 128 + 1) (base + a) b
  put 0 (s.folioHeader kind g) ++
    (s.wavesOf g).flatMap (fun k => put (0x1000 + 1024 * (s.wave k).wid) (s.waveArea k)) ++
    (s.wavesOf g).flatMap (s.regAreas base kind) ++
    put 0x48000 x.handleWords ++
    put 0x48200 ((List.range 8).flatMap fun c => ((x.savedCbs.find? fun p => p.1 == c).map fun p => p.2.words).getD (leBytes 16 0)) ++
    put 0x48400 (x.savedLocks.flatMap fun p => leBytes 4 p.1 ++ leBytes 4 (s.wave (16 * g + p.2)).slot) ++
    put 0x4B000 (x.savedTiles.flatMap fun p => leBytes 4 p.2.toNat) ++
    put 0x46000 (s.freeArea 0x46000 (32 * s.recipesOf g)) ++ put 0x4A000 (s.freeArea 0x4A000 (64 * x.withdrawn.length)) ++
    (if x.gathers = 0 then [] else put 0x4C000 x.latch ++ put 0x4B040 (leBytes 8 x.latchRow)) ++ s.imageAreas base kind g

/-- Writes the folio's bytes into the save area (R248). A save area that cannot be written leaves the folio in the
device (log 33). -/
def State.writeFolio (s : State) (kind g : Nat) : State :=
  let c := (s.group g).ctx
  match s.globWrites c (s.folioWrites kind g) with
  | .ok s => s.setGroup g { s.group g with folioWritten := true }
  | .error f => (s.deviceFault c f true).setGroup g { s.group g with folioWritten := false }

/-! ### Reading a folio back (R250) -/

/-- Reads bytes of a slot, in runs of 128; none where a page faults. -/
def State.folioRead (s : State) (c : Nat) : Nat → Nat → Option (List Byte)
  | 0, _ => some []
  | n + 1, a =>
    match s.globReadRun c a 128, s.folioRead c n (a + 128) with
    | .ok b, some t => some (b ++ t)
    | _, _ => none

/-- What a wave was doing when it was stopped, from its area: state code, entry index and ticket. -/
def Phase.read (code entry ticket : Nat) : Phase → Phase
  | .bar n k e => if code = 0 then .bar n k (e.map fun _ => entry) else .bar n k e
  | .lbar k e => if code = 0 then .lbar k (e.map fun _ => entry) else .lbar k e
  | .predone e => if code = 1 then .predone entry else .predone e
  | .verdict n => if code = 2 then .verdict ticket else .verdict n
  | p => p

/-- A wave as its area gives it (R249). The lanes of a quantum, which the area does not hold, stay as they were. -/
def Wave.fromArea (w : Wave) (b : List Byte) : Wave :=
  let d := fun (o : Nat) => BitVec.ofNat 64 (numAt b o 8)
  let t := numAt b 0x288 8
  let x := numAt b 0x290 8
  let y := numAt b 0x298 8
  let handler := decide (bits x 4 4 = 1)
  { w with
    s := (List.range 32).foldl (fun t r => t.set r (d (8 * r))) w.s
    m := (List.range 15).foldl (fun t r => t.set (r + 1) (BitVec.ofNat 32 (numAt b (0x104 + 4 * r) 4))) w.m
    dx := lanesAt b 0x140, hdx := if handler then lanesAt b 0x1C0 else w.hdx, handler := handler
    jord := d 0x240, jsr := d 0x248, fpctl := d 0x250, ppoint := d 0x258, tvec := d 0x260, tcause := d 0x268, tepc := d 0x270
    taddr := d 0x278, tinfo := d 0x280, timer := bits t 31 0, backBranch := decide (bits t 32 32 = 1)
    quantum := if bits t 40 40 = 1 then some ((w.quantum.map (·.1)).getD 0, bits t 39 33) else none
    phase := w.phase.read (bits x 3 0) (bits x 20 5) (bits y 63 3)
    recorded := if bits x 24 21 = 15 then none else some (bits x 24 21)
    nib := bits x 29 25, granules := bits x 52 46
    stackSlot := w.stackSlot.map fun _ => bits x 63 53 + 2 ^ 11 * bits y 2 0 }

/-- The registers of a wave as its maps and images give them (R248). -/
def State.readRegs (s : State) (base : Nat) (w : Wave) : Wave :=
  let c := (s.group w.group).ctx
  match s.folioRead c 1 (base + 0x45000 + 64 * w.wid) with
  | none => w
  | some b =>
    let names := List.range (8 * w.granules)
    let saved := names.filter fun n => (numAt b 32 16).testBit n
    { w with
      empty := names.foldl (fun m n => setBit m n (!(numAt b 0 16).testBit n)) w.empty
      recipes := w.recipes.map fun r => { r with demoted := (numAt b 16 16).testBit r.dest }
      v := saved.foldl (fun t n =>
        match s.folioRead c 1 (base + 0x5000 + 16384 * w.wid + 128 * n) with
        | some b => t.set n (lanesAt b 0)
        | none => t) w.v }

/-- Wave `k` is restored from its areas in a slot. -/
def State.readWave (s : State) (base k : Nat) : State :=
  let w := s.wave k
  let w := match s.folioRead (s.group w.group).ctx 8 (base + 0x1000 + 1024 * w.wid) with
    | some b => w.fromArea b
    | none => w
  s.setWave k (s.readRegs base w)

/-- The image of a buffer as the slot gives it: the saved rows only. -/
def State.readImage (s : State) (kind g : Nat) (b : Buf) (old : Memory) : Memory :=
  let base := s.folioBase g
  let c := (s.group g).ctx
  ((List.range (((s.group g).range b).size / 128)).filter fun i => s.savesByte kind g b (128 * i)).foldl (fun m i =>
    match s.folioRead c 1 (base + b.image + 128 * i) with
    | some x => memWriteN m (128 * i) x
    | none => m) old

/-- The runs of bytes of a slot that a restore reads, by offset and length: the header, the waves' areas, the maps and images of
registers, the objects, the FIFOs, the tile metadata, the latch and the rows of the images. -/
def State.folioReads (s : State) (kind g : Nat) : List (Nat × Nat) :=
  let x := s.group g
  let fifo := fun (a : Nat) (f : Option Spine) => (f.map fun f => (a, f.areaBytes)).toList
  [(0, 128), (0x48000, 2048), (0x4B000, 128)] ++ fifo 0x49000 x.spineIn ++ fifo 0x50000 x.spineOut ++
    (if x.gathers = 0 then [] else [(0x4C000, x.latch.length)]) ++
    ((s.wavesOf g).flatMap fun k =>
      let w := s.wave k
      [(0x1000 + 1024 * w.wid, 1024), (0x45000 + 64 * w.wid, 64)] ++
        ((List.range (8 * w.granules)).filter fun n => s.savesReg kind k n && !w.isDemoted n).map fun n =>
          (0x5000 + 16384 * w.wid + 128 * n, 128)) ++
    allBufs.flatMap fun b =>
      ((List.range ((x.range b).size / 128)).filter fun i => s.savesByte kind g b (128 * i)).map fun i => (b.image + 128 * i, 128)

/-- The requests that reading a folio back makes at the memory-side cache, for its context (R253, R254). -/
def State.folioTouch (s : State) (kind g : Nat) : State :=
  if (s.group g).folioWritten then
    (s.folioReads kind g).foldl (fun t p => t.globTouch (s.group g).ctx (s.folioBase g + p.1) p.2) s
  else s

/-- The images go into the group's new reservations. -/
def State.loadImages (s : State) (kind g : Nat) : State :=
  let x := s.group g
  x.images.foldl (fun s p =>
    let m := if x.folioWritten then s.readImage kind g p.1 p.2 else p.2
    let r := x.range p.1
    let k := s.core x.core
    s.setCore x.core (k.setBuf p.1 (m.foldl (fun t c => memWrite t (r.base + c.1) c.2) (k.buf p.1)))) s

/-- The waves come from the slot. -/
def State.loadWaves (s : State) (g : Nat) : State :=
  if (s.group g).folioWritten then (s.wavesOf g).foldl (fun s k => s.readWave (s.folioBase g) k) s else s

/-- The fields of a status word (R106). -/
def HStatus.ofWord (w : Nat) : HStatus :=
  { state := bits w 63 62, code := bits w 59 56, skip := bits w 55 52, reason := bits w 47 40, conv := bits w 39 36
    tflags := bits w 35 32, len := bits w 31 0 }

/-- A circular buffer as its two words give it (R54); the slots claimed and taken stay as they were. -/
def CBuf.ofWords (x : CBuf) (a b : Nat) : CBuf :=
  { x with
    valid := decide (bits a 63 63 = 1), buf := bits a 62 62, count := bits a 47 40, slot := bits a 39 28, base := bits a 11 0
    wridx := bits b 31 24, rdidx := bits b 23 16, filled := bits b 15 8, free := bits b 7 0 }

/-- The member maps of the header. -/
def Group.readSets (x : Group) (b : List Byte) : Group :=
  { x with sets := ⟨x.sets.rows.map fun p => (p.1, { p.2 with members := BitVec.ofNat 16 (numAt b (0x40 + 2 * p.1) 2) })⟩ }

/-- A handle as its word of a folio gives it. One that was filling at the stop and has become full since keeps its fields: its
walks, its settling or its revocation ended while the group was stopped (R30, R31). -/
def Handle.fromFolio (h : Handle) (w : Nat) : Handle :=
  let full := h.work = .idle ∧ h.st.state = 2 ∧ bits w 62 62 = 1
  { h with st := if full then h.st else HStatus.ofWord w, bound := decide (bits w 61 61 = 1) }

/-- The handles, circular buffers and lock bits of 2 KiB from slot offset 0x04_8000. -/
def Group.readObjects (x : Group) (b : List Byte) : Group :=
  { x with
    handles := ⟨x.handles.rows.map fun p => (p.1, p.2.fromFolio (numAt b (8 * p.1) 8))⟩
    savedCbs := x.savedCbs.map fun p => (p.1, p.2.ofWords (numAt b (0x200 + 16 * p.1) 8) (numAt b (0x208 + 16 * p.1) 8))
    savedLocks := x.savedLocks.zipIdx.map fun p => (numAt b (0x400 + 8 * p.2) 4, p.1.2) }

/-- The tile metadata and the latch's row length of 128 bytes from slot offset 0x04_B000. -/
def Group.readTiles (x : Group) (b : List Byte) : Group :=
  { x with
    savedTiles := x.savedTiles.zipIdx.map fun p => (p.1.1, BitVec.ofNat 32 (numAt b (4 * p.2) 4))
    latchRow := if x.gathers = 0 then x.latchRow else numAt b 0x40 8 }

/-- The group's own part of its folio comes from the slot: sets, handles, circular buffers, lock bits, tile metadata, the
latch and the Spine FIFOs (R248, R382). -/
def State.loadGroup (s : State) (g : Nat) : State :=
  let x := s.group g
  if !x.folioWritten then s
  else
    let base := s.folioBase g
    let read := fun (n a : Nat) (f : Group → List Byte → Group) (x : Group) =>
      match s.folioRead x.ctx n (base + a) with
      | some b => f x b
      | none => x
    let x := read 1 0 Group.readSets x
    let x := read 16 0x48000 Group.readObjects x
    let x := read 1 0x4B000 Group.readTiles x
    let x := if x.gathers = 0 then x
      else read ((x.latch.length + 127) / 128) 0x4C000 (fun x b => { x with latch := b.take x.latch.length }) x
    s.setGroup g { x with
      spineIn := x.spineIn.map (s.readSpine x.ctx (base + 0x49000)), spineOut := x.spineOut.map (s.readSpine x.ctx (base + 0x50000)) }

end Sys2Proof.Machine
end

