-- ==== Sys2Proof/Machine/Preempt.lean ====
section
/-!
DEFINITION. Pre-emption: stop requests, parking and the stop (R244 to R247), the grow-deadlock spill (R202), the hang stop
(R224), the restore (R250), verdicts on stopped waves (R240), and the turns of a shared core with the Spine entries that a
turn leaves behind (R64, R231, R251).
-/

namespace Sys2Proof.Machine

/-! ### Parking (R244) -/

/-- The liveness entry of a group's node at an offset. -/
def State.entryAt (s : State) (g off : Nat) : Option Nat :=
  let es := (s.node (s.group g).launch (s.group g).node).live
  (List.range es.length).find? fun i => (es.getD i {}).off == off

/-- The offset of the barrier at which a wave waits, after its prefix (R269). -/
def Wave.barrierPc (w : Wave) : Nat := w.ipc + (w.barLen - 4)

/-- The group holds a lock bit (R53). -/
def State.holdsLock (s : State) (g : Nat) : Bool := (s.core (s.group g).core).locks.vals.any fun k => k / 16 == g

/-- The phase of a wave that waits at a barrier, parked with an entry. -/
def Phase.park (i : Nat) : Phase → Phase
  | .bar n k none => .bar n k (some i)
  | .lbar k none => .lbar k (some i)
  | p => p

/-- The waves of a group that wait at a barrier with a liveness entry park there, unless the group holds a lock bit. -/
def State.parkWaiting (s : State) (g : Nat) : State :=
  if s.holdsLock g then s
  else (s.wavesOf g).foldl (fun s k =>
    let w := s.wave k
    match s.entryAt g w.barrierPc with
    | some i => s.setWave k { w with phase := w.phase.park i }
    | none => s) s

/-- A wave that does not hold up a stop (R244). -/
def Phase.still : Phase → Bool
  | .bar _ _ e => e.isSome
  | .lbar _ e => e.isSome
  | .predone _ => true
  | .verdict _ => true
  | .ended => true
  | _ => false

/-- A group receives a stop request (R244); its two time limits run (R246). -/
def State.requestStop (s : State) (g : Nat) : State :=
  let x := s.group g
  let running := match x.phase with
    | .resident => true
    | .restoring _ => true
    | _ => false
  if !running || x.stopReq.isSome then s
  else
    let s := (s.setGroup g { x with stopReq := some s.now }).parkWaiting g
    ((s.post (100 * Config.usCycles) (.preemptTimeout g)).post (200 * Config.usCycles) (.predoneTimeout g)).postOnce 0 (.groupStop g)

/-- A group is stopped where its waves stand, with a folio of a kind (R202, R247). -/
def State.forceStop (s : State) (g kind : Nat) : State :=
  (s.setGroup g { s.group g with forced := some kind }).postOnce 0 (.groupStop g)

/-! ### The stop (R53, R118, R244) -/

/-- The lock bits of a group are recorded and released (R53). -/
def State.saveLocks (s : State) (g : Nat) : State :=
  let x := s.group g
  let k := s.core x.core
  let mine := k.locks.rows.filter fun p => p.2 / 16 == g
  let s := s.setCore x.core { k with locks := ⟨k.locks.rows.filter fun p => p.2 / 16 != g⟩ }
  s.setGroup g { x with savedLocks := x.savedLocks ++ mine.map fun p => (k.lockWords.getD p.1 0 - x.rs.base, p.2 % 16) }

/-- Every outstanding producer of a group has delivered, and its stores and commands are done (R118, R244); commands in the
frozen batch stay there. -/
def State.groupQuiet (s : State) (g : Nat) : Bool :=
  let x := s.group g
  let k := s.core x.core
  ((s.wavesOf g).all fun j =>
      (s.wave j).pending.isEmpty && (s.wave j).remotes.isEmpty && !(s.wave j).remoteHold && (s.wave j).storeQ.isEmpty &&
        (s.wave j).hostOut = 0) &&
    !((s.cluster (clusterOf x.core)).engines.vals.any fun l => l.any fun o => o.group == g) &&
    !(k.matrixQ.any fun m => m.group == g) && !(k.gatherQ.any fun q => q.group == g)

/-- A wave stopped while it was running, or while it waited for the backing of a regeneration, drops what its instruction had
begun, the lock bits of an SLOCK among it (R366); it issues that instruction again. A store or an atomic to another package
completes first. -/
def State.settleWave (s : State) (k : Nat) : State :=
  let w := s.wave k
  match w.phase with
  | .run => if w.remoteHold then s else s.undo k
  | .regWait _ _ false => (s.setWave k { w with phase := .run }).undo k
  | _ => s

/-- The waves of a group that is stopped drop what they had begun. -/
def State.settleWaves (s : State) (g : Nat) : State := (s.wavesOf g).foldl (fun s k => s.settleWave k) s

/-- The folio is written and the core's resources are freed (R244, steps 3 to 5). -/
def State.takeFolio (s : State) (g kind : Nat) : State :=
  let x := s.group g
  let s := (s.l1Clean x.core fun _ => true).1
  let s := s.saveLocks g
  let x := s.group g
  let cbs := ((s.core x.core).cbs.rows.filter fun p => p.2.valid && p.2.owner == g)
  let s := s.setGroup g { x with
    savedCbs := cbs, savedTiles := s.tileWords g, images := allBufs.map fun b => (b, s.imageOf kind g b) }
  let s := (s.wavesOf g).foldl (fun s k => s.trimWave kind k) s
  let s := s.writeFolio kind g
  let s := (s.startZeroing g).releaseCbs g x.core
  let s := s.setGroup g { s.group g with phase := .stopped kind, stopReq := none, forced := none }
  let s := if kind = 2 then
      let c := s.ctx x.ctx
      ((s.setCtx x.ctx { c with spills := c.spills + 1 }).charge x.ctx 0x0C 1).post 1 (.growDeadlockBreaker x.core)
    else s
  ((s.freedOn x.core).poke x.core).post 1 (.sliceExpiry x.core)

/-- A restore is given up for a stop: the fresh resources are freed and the group waits again, with its folio (R250). -/
def State.abandonRestore (s : State) (g kind : Nat) : State :=
  let x := s.group g
  let s := s.startZeroing g
  let s := s.setGroup g { s.group g with phase := .stopped kind, stopReq := none, forced := none }
  (s.freedOn x.core).post 1 (.sliceExpiry x.core)

/-- GROUP_STOP: a group whose waves are all parked, stopped or ended, or that is stopped where it stands, comes to its stop
(R244). -/
def execGroupStop (g : Nat) (s : State) : Out :=
  let x := s.group g
  if x.stopReq.isNone && x.forced.isNone then .next s
  else match x.phase with
    | .restoring kind => .next (s.abandonRestore g kind)
    | .resident =>
      let s := if x.forced.isSome then s else s.parkWaiting g
      if x.forced.isNone && !((s.wavesOf g).all fun k => (s.wave k).phase.still) then .next s
      else
        let s := s.settleWaves g
        let s := if x.forced.isSome then s.saveLocks g else s
        let s := ((s.drainGroup g).releaseHeads g)
        if s.groupQuiet g then .next (s.takeFolio g (x.forced.getD 0)) else .next (s.postOnce 64 (.groupStop g))
    | _ => .next s

/-! ### The time limits (R246) -/

/-- A wave will issue its instruction again. -/
def Wave.again (w : Wave) : Wave := { w with phase := .run, stay := none }

/-- The arrival of a wave at its barrier is withdrawn, as though it had not issued it. -/
def State.withdrawArrival (s : State) (k : Nat) : State :=
  let w := s.wave k
  let x := s.group w.group
  match w.phase with
  | .bar n j none =>
    let m := x.set n
    let s := s.setWave k w.again
    if m.k ≠ j then s
    else
      let a := setBit m.arrived w.wid false
      s.setGroup w.group (x.putSet n { m with begun := a ≠ 0, arrived := a, counted := if a = 0 then 0 else m.counted })
  | .lbar j none =>
    let l := s.launch x.launch
    if j < l.lk then s
    else
      let s := s.setWave k w.again
      if l.lk ≠ j then s
      else
        let a := l.larrived.filter (· != k)
        s.setLaunch x.launch { l with lbegun := !a.isEmpty, larrived := a, lcounted := if a.isEmpty then [] else l.lcounted }
  | .regWait _ _ _ => (s.setWave k w.again).qFell x.core
  | _ => s

/-- PREEMPT reaches a wave, at the offset of the instruction where it waits (R246, R366): at once, or when it has left its
handler, when the access that holds it has ended, or when it has departed from a barrier that is complete. -/
def State.preemptWave (s : State) (k : Nat) : State :=
  let pc := (s.wave k).ipc
  let s := s.withdrawArrival k
  let w := s.wave k
  if w.handler || w.remoteHold || w.phase != .run then s.setWave k { w with preemptDue := true }
  else s.trapAt k pc { cause := 0x0C }

/-- PREEMPT_TIMEOUT: 100 us after the stop request (R246). -/
def execPreemptTimeout (g : Nat) (s : State) : Out :=
  let x := s.group g
  match x.stopReq with
  | none => .next s
  | some t =>
    if s.now < t + 100 * Config.usCycles || x.phase != .resident || x.forced.isSome then .next s
    else
      let s := s.parkWaiting g
      let ks := (s.wavesOf g).filter fun k => !(s.wave k).phase.still
      if ks.isEmpty then .next (s.noteStop g)
      else if x.ep.handler then .next ((ks.foldl (fun s k => s.preemptWave k) s).noteStop g)
      else .next (s.forceStop g 1)

/-- PREDONE_TIMEOUT: 200 us after the stop request, to the ring of the parent; the group is saved in full (R246). -/
def execPredoneTimeout (g : Nat) (s : State) : Out :=
  let x := s.group g
  match x.stopReq with
  | none => .next s
  | some t =>
    if s.now < t + 200 * Config.usCycles || x.phase != .resident || x.forced.isSome then .next s
    else
      let s := s.toRing (s.ringOf (s.chain x.ctx).tail) (s.partition x.ctx)
        { ctx := x.ctx, tcause := 0x10, tinfo := BitVec.ofNat 64 x.gid, gid := x.gid
          word2c := 2 ^ 8 * x.node + 2 ^ 16 * (s.ctx x.ctx).depth }
      .next (s.forceStop g 1)

/-- PREDONE (R246, R396): parks the wave with a liveness entry; it resumes at the next instruction, in handler mode. -/
def execPredone (a : Nat) (s : State) : Out :=
  let i := (s.sreg a).toNat
  let n := (s.node s.g.launch s.g.node).live.length
  let chk :=
    if s.w.handler = false ∨ s.w.preempted = false then some (illegalOperand 0x62 7 0)
    else if i < 65536 ∧ i < n then none else some (illegalOperand 0x62 1 a)
  withOperands s 4 [{ field := 1, kind := .s, reg := a }] chk fun s =>
    let s := s.finish 4
    .next ((s.setW { s.w with phase := .predone (s.sreg a).toNat }).noteStop s.w.group)

/-! ### Verdicts (R240) -/

/-- A verdict takes effect on a stopped wave: 0 RETRY, 1 SKIP, 2 KILL. -/
def State.applyVerdict (s : State) (k : Nat) (t : Ticket) (v : Nat) : State :=
  let w := { s.wave k with phase := .run, recorded := none, waiting := false }
  match v with
  | 0 => s.setWave k w
  | 1 => s.setWave k (w.skipFrom t.tepc t.skip)
  | _ => s.endGroup w.group

/-- The wave that a ticket names, while it is stopped for it and no verdict is recorded. -/
def State.ticketWave (s : State) (n : Nat) : Option Ticket :=
  match s.tickets.get? n with
  | none => none
  | some t =>
    let w := s.wave t.wave
    if (s.waves.get? t.wave).isSome && w.phase == .verdict n && w.recorded.isNone && (s.group w.group).phase != .ended then some t
    else none

/-- A verdict on a wave of a stopped group goes into its folio (R240, R249). -/
def State.writeVerdict (s : State) (k v : Nat) : State :=
  let w := s.wave k
  let x := s.group w.group
  let stored := match x.phase with
    | .stopped _ => x.folioWritten
    | .restoring _ => x.folioWritten
    | _ => false
  if !stored then s
  else
    let a := s.folioBase w.group + 0x1000 + 1024 * w.wid + 0x290
    let s := s.globTouch x.ctx a 8
    match s.globReadRun x.ctx a 8 with
    | .error e => s.deviceFault x.ctx e false
    | .ok b =>
      let old := leNat b
      match s.globWriteRun x.ctx a (leBytes 8 (old - bits old 24 21 * 2 ^ 21 + v * 2 ^ 21)) with
      | .error e => s.deviceFault x.ctx e true
      | .ok s => s

/-- A verdict on a ticket (R240): applied at once, or recorded while the group is stopped and applied at its restore. A forced
stop under way saves the wave as it stands: the verdict is recorded too (log 57). -/
def State.giveVerdict (s : State) (n : Nat) (t : Ticket) (v : Nat) : State :=
  let w := s.wave t.wave
  let x := s.group w.group
  if x.phase == .resident && x.forced.isNone then
    ({ s.applyVerdict t.wave t v with tickets := (s.applyVerdict t.wave t v).tickets.erase n })
  else (s.setWave t.wave { w with recorded := some v }).writeVerdict t.wave v

/-! ### The restore (R250) -/

/-- A restore may be made: no lock bit that it needs is held by another wave, the FIFOs that its entries go into are empty,
its circular buffers and physical handles are there, and its withdrawn operations find room. DESIGN CHOICE (log 89): a
descriptor that another group of the core holds is waited for. -/
def State.canRestore (s : State) (g : Nat) : Bool :=
  let x := s.group g
  let k := s.core x.core
  let cl := clusterOf x.core
  (x.savedLocks.all fun p => (k.lockHolder (x.rs.base + p.1)).isNone) &&
    (x.spineIn.isNone || k.spine.entries.isEmpty) &&
    (x.spineOut.isNone || (s.core (partner x.core)).spine.entries.isEmpty) &&
    (x.savedCbs.all fun p => !(k.cbs.getD p.1 {}).valid) && decide (s.handlesUsed x.core ≤ Config.physHandles) &&
    (x.withdrawn.all fun p =>
      decide ((s.queueOf cl (p.1 / 4) (p.1 % 4)).length + countIf (fun q => q.1 == p.1) x.withdrawn ≤ 16))

/-- The barrier at which a wave is parked has completed. -/
def State.barrierDone (s : State) (k : Nat) : Bool :=
  let w := s.wave k
  match w.phase with
  | .bar n j (some _) => decide (j < ((s.group w.group).set n).k)
  | .lbar j (some _) => decide (j < (s.launch (s.group w.group).launch).lk)
  | _ => false

/-- A restored wave resumes: it waits at its barrier, not parked, or goes on after its PREDONE; a recorded verdict is
applied. -/
def State.resumeWave (s : State) (k : Nat) : State :=
  let w := s.wave k
  match w.phase with
  | .bar n j (some _) => if s.barrierDone k then s else s.setWave k { w with phase := .bar n j none }
  | .lbar j (some _) => if s.barrierDone k then s else s.setWave k { w with phase := .lbar j none }
  | .predone _ => s.setWave k { w with phase := .run }
  | .verdict n =>
    match w.recorded, s.tickets.get? n with
    | some v, some t => { s.applyVerdict k t v with tickets := (s.applyVerdict k t v).tickets.erase n }
    | _, _ => s
  | .run => s.setWave k { w with waiting := false, retryAt := 0 }
  | _ => s

/-- The recipe-table entries of a restored group take the lowest free numbers of its core (R194). -/
def State.renumber (s : State) (g : Nat) : State :=
  let core := (s.group g).core
  let used := ((s.wavesOn core).filter fun k => k / 16 != g).flatMap fun k => (s.wave k).recipes.map (·.entry)
  ((s.wavesOf g).foldl (fun (u : State × List Nat) k =>
    let w := u.1.wave k
    let new := fun (e : Nat) =>
      match (List.range w.recipes.length).find? fun i => (w.recipes.getD i default).entry == e with
      | some i => u.2.getD i e
      | none => e
    (u.1.setWave k { w with
        recipes := w.recipes.map fun r => { r with entry := new r.entry }
        regen := w.regen.map fun r => { r with entry := new r.entry }
        needs := w.needs.map new }, u.2.drop w.recipes.length))
    (s, freeNumbers used Config.recipeEntries Config.recipeEntries)).1

/-- What the folio holds goes into the group's new core, after the work of FENCE.D (R143, R250). DESIGN CHOICE (log 89): of
two lock bits of the folio that fall on one at the new base, the wave of the later one holds it. -/
def State.putFolio (s : State) (g kind : Nat) : State :=
  let core := (s.group g).core
  let cl := clusterOf core
  let s := (s.l1Clean core fun _ => true).1.l1Drop core fun _ => true
  let s := (((s.folioTouch kind g).loadImages kind g).loadWaves g).loadGroup g
  let x := s.group g
  let k := s.core x.core
  let k := { k with
    tiles := x.savedTiles.foldl (fun t p => t.set (x.rc.base / 16384 + p.1) p.2) k.tiles
    cbs := x.savedCbs.foldl (fun t p => t.set p.1 p.2) k.cbs
    locks := x.savedLocks.foldl (fun t p => t.set (lockOf (x.rs.base + p.1)) (16 * g + p.2)) k.locks
    lockWords := x.savedLocks.foldl (fun t p => t.set (lockOf (x.rs.base + p.1)) (x.rs.base + p.1)) k.lockWords }
  let s := x.savedTiles.foldl (fun s p => s.cureMeta x.core (x.rc.base / 16384 + p.1)) (s.setCore x.core k)
  let s := match x.spineIn with
    | some f => s.setSpine x.core (placeSpine f)
    | none => s
  let s := match x.spineOut with
    | some f => s.setSpine (partner x.core) (placeSpine f)
    | none => s
  let s := x.withdrawn.foldl (fun s p =>
    s.setQueue cl (p.1 / 4) (p.1 % 4) (s.queueOf cl (p.1 / 4) (p.1 % 4) ++ [p.2])) s
  ((s.setGroup g { s.group g with
    phase := .resident, savedLocks := [], withdrawn := [], savedCbs := [], savedTiles := [], images := [], spineIn := none
    spineOut := none }).renumber g).pokeEngines cl

/-- The regions bound to the sets whose barriers completed are acquired with their departures (R128). -/
def State.restoreAcquire (s : State) (k : Nat) : State :=
  let w := s.wave k
  let x := s.group w.group
  if !s.barrierDone k then s
  else match w.phase with
    | .bar n _ _ => s.acquireOn x.core x.ctx kindSet n []
    | .lbar _ _ => s.acquireOn x.core x.ctx kindLaunch 0 []
    | _ => s

/-- The start event of a restored group is raised: of groups whose restores end together, in ascending GID (R218). -/
def State.raiseRestored (s : State) (g : Nat) : State :=
  let e : StartEvent := { cluster := clusterOf (s.group g).core, group := some g, raised := s.now }
  let later := fun (f : StartEvent) => match f.group with
    | some h => f.raised == s.now && decide ((s.group g).gid < (s.group h).gid)
    | none => false
  let before := s.starts.takeWhile fun f => !later f
  { s with starts := before ++ e :: s.starts.drop before.length }

/-- GROUP_RESTORE: a group that has been placed again is restored from its folio (R250). -/
def execGroupRestore (g : Nat) (s : State) : Out :=
  let x := s.group g
  match x.phase with
  | .restoring kind =>
    if x.stopReq.isSome || x.forced.isSome then .next (s.abandonRestore g kind)
    else if !s.canRestore g then .next (s.postOnce 64 (.groupRestore g))
    else
      let s := s.putFolio g kind
      let done := (s.wavesOf g).filter s.barrierDone
      let s := done.foldl (fun s k => s.restoreAcquire k) s
      let s := (s.wavesOf g).foldl (fun s k => s.resumeWave k) s
      let s := if done.isEmpty then s
        else (s.raiseRestored g).postOnce 0 .startEventAdmission
      .next (((s.postOnce 0 (.growGrant x.core)).poke x.core).noteDeadlock x.core)
  | _ => .next s

/-- The waves of a restored group whose barriers are complete depart. -/
def State.departRestored (s : State) (g : Nat) : State :=
  if (s.group g).phase != .resident then s
  else (s.wavesOf g).foldl (fun s k => if s.barrierDone k then s.setWave k (s.wave k).depart else s) s

/-! ### The grow-deadlock breaker (R202) -/

/-- The group most recently placed on a core. -/
def State.newestOn (s : State) (core : Nat) : Option Nat :=
  mostOf (fun g => (s.group g).placedAt + 1) (s.resident core)

/-- GROW_DEADLOCK_BREAKER: a request is granted after demotions, or the group most recently placed is spilled (R202). -/
def execGrowDeadlockBreaker (core : Nat) (s : State) : Out :=
  let s := s.grantWaiting core
  let due := match (s.core core).deadlockSince with
    | some t => decide (t + 256 ≤ s.now)
    | none => false
  if !(s.growStuck core && due) then .next (s.noteDeadlock core)
  else if (s.resident core).any fun g => (s.group g).forced.isSome then .next s
  else match s.newestOn core with
    | some g => .next (s.forceStop g 2)
    | none => .next s

/-! ### The Spine entries of a stop (R64) -/

/-- The deepest context, of one and its descendants where they stop too, that owns both cores of a pair. -/
def State.spineOwner (s : State) (c core : Nat) (below : Bool) : Option Nat :=
  let both := fun (d : Nat) => s.granted d core && s.granted d (partner core) &&
    (s.chain d).all fun e => s.levelTurn e core && s.levelTurn e (partner core)
  mostOf (fun d => (s.ctx d).depth) ((if below then s.descendants c else [c]).filter both)

/-- The oldest stopped group of a context whose folio was written from a core and has a free area. DESIGN CHOICE (log 98): the
oldest is the one whose latest placement is the earliest. -/
def State.oldestStopped (s : State) (c core : Nat) (free : Group → Bool) : Option Nat :=
  let gs := (s.groups.rows.filter fun p => p.2.ctx == c && p.2.core == core && free p.2 &&
    match p.2.phase with
    | .stopped _ => true
    | _ => false).map (·.1)
  gs.find? fun g => gs.all fun h => decide ((s.group g).placedAt ≤ (s.group h).placedAt)

/-- Writes a FIFO's area at an offset of a group's slot, if the slot was written. -/
def State.writeSpine (s : State) (c base off : Nat) (f : Spine) : State :=
  let b := f.area
  match s.globWrites c (chunks (b.length / 128 + 1) (base + off) b) with
  | .ok s => s
  | .error e => s.deviceFault c e true

/-- The entries of the FIFO into a core go into the folio of a group stopped on its receiving or its sending core; what
remains needs a pair folio. -/
def State.saveFifo (s : State) (c core : Nat) : State × Bool :=
  let f := (s.core core).spine
  if f.entries.isEmpty then ((s.setSpine core {}).pokeGate (coreDomain core), true)
  else match s.oldestStopped c core fun x => x.spineIn.isNone with
    | some g =>
      let s := ((s.setGroup g { s.group g with spineIn := some f }).setSpine core {}).pokeGate (coreDomain core)
      (if (s.group g).folioWritten then s.writeSpine c (s.folioBase g) 0x49000 f else s, true)
    | none =>
      match s.oldestStopped c (partner core) fun x => x.spineOut.isNone with
      | some g =>
        let s := ((s.setGroup g { s.group g with spineOut := some f }).setSpine core {}).pokeGate (coreDomain core)
        (if (s.group g).folioWritten then s.writeSpine c (s.folioBase g) 0x50000 f else s, true)
      | none => (s, false)

/-- The FIFOs of a pair go into a pair folio in a free slot of the context's save area (R249, kind 3). -/
def State.pairFolio (s : State) (c low : Nat) : Option State :=
  let x := s.ctx c
  match (freeNumbers x.folioUsed x.saveSlots 1).head? with
  | none => none
  | some slot =>
    let lo := (s.core low).spine
    let hi := (s.core (low + 192)).spine
    let s := s.setCtx c { x with
      folioUsed := x.folioUsed ++ [slot], pairFolios := x.pairFolios ++ [(slot, low, lo, hi)] }
    let base := x.saveBase + slot * 2 ^ 21
    let head := padTo 4096 (leBytes 4 0x5A464F4C ++ leBytes 1 3 ++ leBytes 3 0 ++ leBytes 4 low)
    let s := match s.globWrites c (chunks 33 base head) with
      | .ok s => s
      | .error e => s.deviceFault c e true
    let s := if lo.entries.isEmpty then s else s.writeSpine c base 0x49000 lo
    let s := if hi.entries.isEmpty then s else s.writeSpine c base 0x50000 hi
    some ((((s.setSpine low {}).setSpine (low + 192) {}).pokeGate (coreDomain low)).pokeGate (coreDomain (low + 192)))

/-- The entries in flight of a core's pair are saved for a context; none while a pair folio finds no free slot. -/
def State.savePair (s : State) (c core : Nat) : Option State :=
  let low := min core (partner core)
  let a := s.saveFifo c low
  let b := a.1.saveFifo c (low + 192)
  if a.2 && b.2 then some b.1 else b.1.pairFolio c low

/-! ### Turns (R231, R251) -/

/-- The groups of a context on a core that have not come to their stop; of its descendants too. -/
def State.stillOn (s : State) (c core : Nat) (below : Bool) : List Nat :=
  (s.resident core).filter fun g => if below then (s.chain (s.group g).ctx).contains c else (s.group g).ctx == c

/-- The slice expiry of a core is due after `d` cycles, and not otherwise. -/
def State.armSlice (s : State) (core d : Nat) : State := (s.unpost (.sliceExpiry core)).post d (.sliceExpiry core)

/-- A context's use of a core is to end: its groups there receive stop requests (R231, R232, R251). -/
def State.leaveCore (s : State) (c core : Nat) (below : Bool) : State :=
  let k := s.core core
  let s := if k.leaving.contains (c, below) then s else s.setCore core { k with leaving := k.leaving ++ [(c, below)] }
  ((s.stillOn c core below).foldl (fun s g => s.requestStop g) s).post 1 (.sliceExpiry core)

/-- One context's use of a core ends, if its groups there have stopped: their Spine entries are saved. -/
def State.tryLeave (s : State) (core : Nat) (p : Nat × Bool) : State :=
  if !(s.stillOn p.1 core p.2).isEmpty then s
  else
    let done := match s.spineOwner p.1 core p.2 with
      | some d => s.savePair d core
      | none => some s
    match done with
    | none => s
    | some s => s.setCore core { s.core core with leaving := (s.core core).leaving.filter (· != p) }

/-- The children that share a core of a context, in ascending ID. -/
def State.sharers (s : State) (u core : Nat) : List Nat := (s.children u).filter fun d => (s.ctx d).cores.contains (core, true)

/-- The contexts with a pair folio look whether they hold the turns of its cores (R64). -/
def State.pokePairs (s : State) : State :=
  s.ctxs.rows.foldl (fun s p => p.2.pairFolios.foldl (fun s f => s.postOnce 1 (.spinePairFolioRestore p.1 f.2.1)) s) s

/-- The turn on a core among the children of a context passes to a child (R231). -/
def State.beginTurn (s : State) (u core c : Nat) : State :=
  let k := s.core core
  let s := s.setCore core { k with
    turns := k.turns.set u c, turnEnds := k.turnEnds.set u (s.now + (s.ctx c).slice * Config.usCycles) }
  s.pokePairs.pokeQueues.pokeGatherer

/-- The next sharer after a holder, in ascending ID and round again. -/
def nextAfter (h : Nat) (l : List Nat) : Option Nat := ((l.filter fun c => decide (h < c)) ++ l).head?

/-- The turn passes on: to the next sharer, or to nobody. -/
def State.passTurn (s : State) (u core h : Nat) : State :=
  match nextAfter h (s.sharers u core) with
  | some c => s.beginTurn u core c
  | none =>
    let k := s.core core
    s.setCore core { k with turns := k.turns.erase u, turnEnds := k.turnEnds.erase u }

/-- The turn among the children of a context on a core, when its slice has run out: the holder's groups stop, and then the
turn passes on (R231). -/
def State.turnStep (s : State) (core u : Nat) : State :=
  let k := s.core core
  match k.turns.get? u with
  | none => s
  | some h =>
    if s.now < k.turnEnds.getD u 0 then s
    else if k.leaving.contains (h, true) then s
    else s.leaveCore h core true

/-- After the stops of a turn that has ended, the next holder's turn begins. -/
def State.turnEnd (s : State) (core : Nat) (p : Nat × Bool) : State :=
  match (s.ctx p.1).parent with
  | none => s
  | some u =>
    let k := s.core core
    if p.2 && !k.leaving.contains p && k.turns.get? u == some p.1 && decide (k.turnEnds.getD u 0 ≤ s.now) then
      s.passTurn u core p.1
    else s

/-- SLICE_EXPIRY: the turns of a core that have run out end, and the uses of the core that are ending end when their groups
have stopped (R64, R231). -/
def execSliceExpiry (core : Nat) (s : State) : Out :=
  let s := (s.core core).turns.keys.foldl (fun s u => s.turnStep core u) s
  let ps := (s.core core).leaving
  let s := ps.foldl (fun s p => (s.tryLeave core p).turnEnd core p) s
  let s := if ps ≠ [] ∧ (s.core core).leaving = [] then s.pokeQueues.pokeGatherer else s
  let k := s.core core
  let s := s.unpost (.sliceExpiry core)
  if k.leaving ≠ [] then .next (s.post Config.usCycles (.sliceExpiry core))
  else match k.turnEnds.vals with
    | [] => .next s
    | t :: ts => .next (s.post (ts.foldl min t - s.now) (.sliceExpiry core))

/-! ### The hang stop (R222 to R224) -/

/-- The hang fault of a context: to the ring of its parent, or to the front end (R224). -/
def State.hangFault (s : State) (c : Nat) : State :=
  s.toRing (s.ringOf (s.chain c).tail) (s.partition c) { ctx := c, tcause := 0x0F, word2c := 2 ^ 16 * (s.ctx c).depth }

/-- The groups of some contexts, with a phase. -/
def State.groupsIn (s : State) (ds : List Nat) (f : GroupPhase → Bool) : List Nat :=
  (s.groups.rows.filter fun p => ds.contains p.2.ctx && f p.2.phase).map (·.1)

/-- A group that waits: in a launch queue, or stopped. -/
def GroupPhase.idle : GroupPhase → Bool
  | .queued => true
  | .stopped _ => true
  | _ => false

/-- A group that is yet to be stopped: its waves issue, or will. -/
def GroupPhase.runs : GroupPhase → Bool
  | .resident => true
  | .restoring _ => true
  | _ => false

/-- The hang stop of a context and its descendants: their groups are stopped and saved in full, and the heads of their
ending groups' operations are withdrawn (R118, R224). -/
def State.hangStop (s : State) (c : Nat) : State :=
  let ds := s.descendants c
  let s := ds.foldl (fun s d => s.setCtx d { s.ctx d with hung := true }) s
  let s := s.setCtx c { s.ctx c with hangDue := true }
  let ls := (s.launches.rows.filter fun p => ds.contains p.2.ctx && !p.2.ended).map (·.1)
  let s := ls.foldl (fun s l => s.setLaunch l { s.launch l with hung := true }) s
  let queued := s.groupsIn ds GroupPhase.idle
  let s := s.clusters.keys.foldl (fun s cl => queued.foldl (fun s g => s.dequeueGroup cl g) s) s
  let s := (s.groupsIn ds GroupPhase.runs).foldl (fun s g => s.forceStop g 1) s
  let s := (s.groupsIn ds (· == .ending)).foldl (fun s g => (s.releaseHeads g).postOnce 1 (.groupTeardown g)) s
  (s.ctx c).cores.foldl (fun s p => if s.levelTurn c p.1 then s.leaveCore c p.1 true else s) s

/-- HANG_WATCHDOG_EXPIRY: every group of a context and its descendants is stopped and saved in full; then the parent
receives the hang fault (R224). -/
def execHangWatchdogExpiry (c : Nat) (s : State) : Out :=
  if (s.ctxs.get? c).isNone then .next s
  else
    let s := if (s.ctx c).hung then s else s.hangStop c
    if (s.ctx c).hangDue = false then .next s
    else if (s.groupsIn (s.descendants c) GroupPhase.runs).isEmpty then
      .next ((s.setCtx c { s.ctx c with hangDue := false }).hangFault c)
    else .next (s.postOnce Config.usCycles (.hangWatchdogExpiry c))

end Sys2Proof.Machine
end

