-- ==== Sys2Proof/Machine/Queue.lean ====
section
/-!
DEFINITION. The record-queue instructions (R181 to R183, R195, R385 to R388).
-/

namespace Sys2Proof.Machine

/-- RECORD_QUEUE (R195): reason, address, target node, depth and lane. -/
def queueTrap (reason addr node depth lane : Nat) : Trap :=
  { cause := 0x08, addr := BitVec.ofNat 64 addr
    info := BitVec.ofNat 64 (reason + 2 ^ 8 * node + 2 ^ 16 * depth + 2 ^ 24 * lane) }

/-- The node operand of RQALLOC and RQINFO (code 0x5D). -/
def nodeCheck (s : State) (a : Nat) : Option Trap :=
  let x := (s.sreg a).toNat
  if (s.launch s.g.launch).nodeCount ≤ x then some (illegalOperand 0x5D 1 a) else none

/-! ### RQALLOC (R385) -/

/-- The slots that RQALLOC obtains for lanes in ascending order; none where the queue is full. -/
def allocSlots (n : Node) (g : Nat) : List Nat → Node × List (Nat × Option Nat)
  | [] => (n, [])
  | l :: t =>
    match n.nextFree with
    | some i =>
      let r := allocSlots { n with slots := n.slots.set i (.allocated g), ring := i + 1 } g t
      (r.1, (l, some i) :: r.2)
    | none =>
      let r := allocSlots { n with exhausted := n.exhausted + 1, starved := true } g t
      (r.1, (l, none) :: r.2)

/-- The header stores of the slots obtained: two 8-byte stores a lane (R180). -/
def headerReqs (base z : Nat) (l : List (Nat × Option Nat)) : List Req :=
  l.flatMap fun p =>
    match p.2 with
    | some i =>
      let a := base + i * z
      [{ lane := p.1, lanes := 0, addr := a + 8 }, { lane := p.1, lanes := 1, addr := a }]
    | none => []

/-- The header stores go to the wave's queue, or to another package; the instruction ends (R28, R121, R385). -/
def State.storeHeaders (s : State) (word : Nat) (r : List Located) : Out :=
  let out := r.map fun x => (x.1, cutPieces (Located.pieces x) (leBytes 8 (if x.1.lanes = 0 then 0 else word)))
  let away := out.any fun x => x.2.any fun p => p.1.remote s
  let s := s.enqueue ((out.flatMap fun x => x.2).filter fun p => !(p.1.remote s))
  let s := if away then out.foldl (fun s x => storeAway x.1 8 s 0 x.2) s else s
  .next (if away then s else s.finish 4)

/-- RQALLOC (R181, R385). -/
def execRqalloc (d a b : Nat) (s : State) : Out :=
  let os : List Opnd := [{ field := 0, kind := .v, reg := d, dst := true }, { field := 1, kind := .s, reg := a },
    { field := 2, kind := .mw, reg := b }]
  withOperands s 4 os (nodeCheck s a) fun s =>
    let g := s.g
    let node := (s.sreg a).toNat
    let lanes := lanesIn s.w.active
    if g.depth = 63 ∧ lanes ≠ [] then .next (s.trap (queueTrap 0x05 0 node 63 (lanes.headD 0)))
    else
      let n := s.node g.launch node
      let r := allocSlots n s.w.group lanes
      let acc : Acc := { write := true }
      let u := locateAll {} acc 8 s (headerReqs n.base n.z r.2)
      match firstFault false u.2 with
      | some (l, f) => .next (u.1.memFault f acc l)
      | none =>
        let away := u.2.any fun x => (Located.pieces x).any fun p => p.1.remote s
        let s := if away then u.1.drain u.1.cur else u.1
        if away && !s.w.storeQ.isEmpty || s.inFlight u.2 then .next s.block
        else
          let qb := (s.ctx g.ctx).qbase
          let off := fun (l : Nat) => match r.2.find? fun p => p.1 == l with
            | some (_, some i) => BitVec.ofNat 32 (n.base + i * n.z - qb)
            | _ => 0
          let fail := maskOf fun l => r.2.any fun p => p.1 == l && p.2.isNone
          let s := (s.setNode g.launch node r.1).writeV d (lanesOf off)
          (s.writeM b fail).storeHeaders (node + 2 ^ 8 * (g.depth + 1)) u.2

/-! ### RQCOMMIT (R182, R386) -/

/-- The slot of a launch that begins at an address: node and slot. -/
def Launch.slotAt (x : Launch) (a : Nat) : Option (Nat × Nat) :=
  x.nodes.rows.findSome? fun p =>
    let n := p.2
    if n.z ≠ 0 ∧ n.base ≤ a ∧ a < n.base + n.cap * n.z ∧ (a - n.base) % n.z = 0 then some (p.1, (a - n.base) / n.z) else none

/-- The header of a record as the wave reads it: its two words (R180), through the load path. -/
def State.readHeader (s : State) (lane a : Nat) : State × Except State (Nat × Nat) :=
  let r := s.readRun {} 8 [{ lane := lane, lanes := 0, addr := a }, { lane := lane, lanes := 0, addr := a + 8 }]
  (r.1, r.2.map fun b => (leNat (b.take 8), leNat (b.drop 8)))

/-- A record that RQCOMMIT would commit: node, slot, depth and join address. -/
structure Commit where
  node : Nat
  slot : Nat
  depth : Nat
  join : Nat
  deriving DecidableEq, Repr

/-- The checks of one record (R182). -/
def commitCheck (s : State) (addr lane : Nat) (h : Nat × Nat) (node : Nat) : Option Trap :=
  let depth := bits h.1 13 8
  if bits h.1 31 17 ≠ 0 ∨ bits h.1 15 14 ≠ 0 ∨ bits h.2 63 48 ≠ 0 then some (queueTrap 0x04 addr node depth lane)
  else if (s.node s.g.launch node).ep.depth < depth then some (queueTrap 0x01 addr node depth lane)
  else none

/-- The records that the lanes name, in ascending order, or the state after the first check that fails. DESIGN CHOICE (log 101):
the NOT_ALLOCATED fault of an address at which no record stands has node 0 and DEPTH 0, and that of a slot which is not the
group's has the slot's node and DEPTH 0. -/
def commitLanes (va : Lanes) : State → List Commit → List Nat → State × Except State (List Commit)
  | s, acc, [] => (s, .ok acc)
  | s, acc, l :: t =>
    let g := s.g
    let addr := ((s.ctx g.ctx).qbase + (lane va l).toNat)
    match (s.launch g.launch).slotAt addr with
    | none => (s, .error (s.trap (queueTrap 0x03 addr 0 0 l)))
    | some (node, slot) =>
      if acc.any fun c => c.node == node && c.slot == slot then commitLanes va s acc t
      else if (s.node g.launch node).slots.get? slot ≠ some (.allocated s.w.group) then
        (s, .error (s.trap (queueTrap 0x03 addr node 0 l)))
      else
        match s.readHeader l addr with
        | (s, .error t) => (s, .error t)
        | (s, .ok h) =>
          match commitCheck s addr l h node with
          | some tr => (s, .error (s.trap tr))
          | none =>
            commitLanes va s (acc ++ [{ node := node, slot := slot, depth := bits h.1 13 8, join := bits h.2 47 0 }]) t

/-- The regions that a release of some nodes' record queues writes back (R131, R132). -/
def State.queueRelease (s : State) (nodes joins : List Nat) : List (Nat × Nat) :=
  let g := s.g
  nodes.flatMap (fun n => boundRanges s g.ctx kindQueue n (s.queueRegion g.launch n)) ++
    (joins.flatMap (joinRegion 512)).flatMap (physRanges s g.ctx)

/-- The header word of the continuation of a join block, as it lies at home. -/
def State.contHeader (s : State) (join : Nat) : Nat :=
  match s.globReadRun s.g.ctx (join + 64) 8 with
  | .ok b => leNat b
  | .error _ => 0

/-- A join block that is named becomes known, with the node of its continuation; the read of the header is charged (R253). -/
def State.noteJoin (s : State) (l join : Nat) : State :=
  if join = 0 then s else (s.globTouch s.g.ctx (join + 64) 8).knowJoin l join (bits (s.contHeader join) 7 0)

/-- RQCOMMIT (R182, R386). -/
def execRqcommit (a : Nat) (s : State) : Out :=
  withOperands s 4 [{ field := 1, kind := .v, reg := a, src := some 0 }] none fun s =>
    match commitLanes (s.vaReg a) s [] (lanesIn s.w.active) with
    | (_, .error s') => .next s'
    | (s, .ok cs) =>
      let l := s.g.launch
      if cs.isEmpty then .next (s.finish 4)
      else
        s.releaseThen (s.queueRelease (cs.map (·.node)).eraseDups (cs.map (·.join))) fun s =>
          let s := cs.foldl (fun s c => (s.noteJoin l c.join).commitSlot l c.node c.slot c.depth) s
          .next ((s.progress s.g.ctx).finish 4)

/-! ### RQJOIN (R183, R387) -/

/-- A lane's join: its lane, its join block and the physical address of the counter. -/
structure Join where
  lane : Nat
  join : Nat
  pa : Nat
  deriving DecidableEq, Repr

/-- The reach of a counter of a join block: the global window (R183). -/
def globOnly : Reach := { stack := false, s := false, a := false, c := false }

/-- The joins of the lanes, in ascending order, or the state after the first fault. -/
def joinLanes (va : Lanes) : State → List Join → List Nat → State × Except State (List Join)
  | s, acc, [] => (s, .ok acc)
  | s, acc, l :: t =>
    let g := s.g
    match s.readHeader l (g.launchBase + (lane va l).toNat) with
    | (s, .error t) => (s, .error t)
    | (s, .ok h) =>
      let join := bits h.2 47 0
      if join = 0 then joinLanes va s acc t
      else
        let acc' : Acc := { write := true, atomic := true }
        match locate s s.w globOnly acc' l join 8 with
        | (s, .error f) => (s, .error (s.memFault f acc' l))
        | (s, .ok ps) =>
          match ps with
          | (.phys pa _, _) :: _ => joinLanes va s (acc ++ [{ lane := l, join := join, pa := pa }]) t
          | _ => joinLanes va s acc t

/-- The lanes' records are those the group received (code 0x5E). -/
def State.recordCheck (s : State) (va : Lanes) : Option Nat :=
  let g := s.g
  let z := (s.node g.launch g.node).z
  (lanesIn s.w.active).find? fun l =>
    let o := (lane va l).toNat
    !(z != 0 && o % z == 0 && g.records.contains (o / z))

/-- One decrement (R183): the state after it, with the trap it raises. -/
def State.decrement (s : State) (j : Join) : State × Option Trap :=
  let g := s.g
  let r := s.atHome g.core g.ctx [(j.pa, 8)] fun old => (old + 2 ^ 64 - 1) % 2 ^ 64
  let s := r.1
  let left := sextNat 64 ((r.2 + 2 ^ 64 - 1) % 2 ^ 64)
  let h := s.contHeader j.join
  let s := s.globTouch s.g.ctx (j.join + 64) 8
  let node := bits h 7 0
  let depth := bits h 13 8
  if left < 0 then (s, some (queueTrap 0x02 j.join node depth j.lane))
  else if left = 0 then
    if (s.launch g.launch).nodeCount ≤ node then (s, some (queueTrap 0x06 j.join node depth j.lane))
    else if (s.node g.launch node).ep.depth < depth then (s, some (queueTrap 0x01 j.join node depth j.lane))
    else (s.continuation g.launch j.join node, none)
  else (s, none)

/-- The decrements in ascending lane order, up to the first that raises a trap. -/
def decrements : State → List Join → State × Option (Trap × Nat)
  | s, [] => (s, none)
  | s, j :: t =>
    match s.decrement j with
    | (s, some tr) => (s, some (tr, j.lane))
    | (s, none) => decrements s t

/-- The trap of an RQJOIN at lane `l`: the lanes up to it are performed and move past it; the others stay (R183). -/
def State.joinTrap (s : State) (t : Trap) (l : Nat) : State :=
  let w := s.w
  let tepc := w.ipc
  let next := w.nextPc 4
  let act := w.active
  let len := if w.pre.isSome then 8 else 4
  (s.setW (w.setDuct (lanesOf fun i => if bit act i && decide (i ≤ l) then next else lane w.duct i))).trapAt s.cur tepc
    { t with len := len }

/-- RQJOIN (R183, R387). -/
def execRqjoin (a : Nat) (s : State) : Out :=
  withOperands s 4 [{ field := 1, kind := .v, reg := a, src := some 0 }] none fun s =>
    let va := s.vaReg a
    match s.recordCheck va with
    | some l => .next (s.trap (illegalOperand 0x5E 1 a l))
    | none =>
      match joinLanes va s [] (lanesIn s.w.active) with
      | (_, .error s') => .next s'
      | (s, .ok js) =>
        let nodes := (js.map fun j => bits (s.contHeader j.join) 7 0).eraseDups
        let s := js.foldl (fun s j => s.noteJoin s.g.launch j.join) s
        s.releaseThen (s.queueRelease nodes (js.map (·.join))) fun s =>
          match decrements s js with
          | (s, some (t, l)) => .next ((s.progress s.g.ctx).joinTrap t l)
          | (s, none) => .next ((s.progress s.g.ctx).finish 4)

/-! ### RQINFO (R388) -/

/-- The word of a select. -/
def State.queueWord (s : State) (node sel : Nat) : Nat :=
  let n := s.node s.g.launch node
  match sel with
  | 0 => (s.ctx s.g.ctx).qbase
  | 1 => n.base
  | 2 => n.cap - n.slots.rows.length
  | 3 => n.ready.length
  | 4 => n.exhausted
  | 5 => n.abandoned
  | 6 => n.cap + 2 ^ 32 * n.z
  | _ => n.ep.target + 2 ^ 16 * n.ep.timer + 2 ^ 32 * n.ep.depth + 2 ^ 40 * n.prio

/-- RQINFO (R388). -/
def execRqinfo (d a n : Nat) (s : State) : Out :=
  let chk :=
    if n ≠ 0 ∧ (nodeCheck s a).isSome then nodeCheck s a
    else if 7 < n then some (illegalOperand 0x5F 2 n)
    else none
  withOperands s 4 [{ field := 0, kind := .s, reg := d, dst := true }, { field := 1, kind := .s, reg := a }] chk fun s =>
    s.putS d (BitVec.ofNat 64 (s.queueWord (s.sreg a).toNat n))

end Sys2Proof.Machine
end

