-- ==== Sys2Proof/Machine/Context.lean ====
section
/-!
DEFINITION. The tree of contexts: CTXNEW, CTXGRANT, CTXTAKE, CTXFREE and CTXSTAT (R18, R225 to R233, R240, R389 to R394,
R448, R449), revocations (R30, R232), and the end of a context with its launches (R439).
-/

namespace Sys2Proof.Machine

/-! ### Descriptors (R18, R228) -/

/-- The 64-bit word at a byte of a descriptor. -/
def descWord (b : List Byte) (o : Nat) : Nat := numAt b o 8

/-- A non-zero RZ field of a descriptor. -/
def descRz (b : List Byte) : Bool :=
  let w := descWord b
  decide (bits (w 0x00) 63 50 ≠ 0) || decide (bits (w 0x00) 11 0 ≠ 0) || decide (bits (w 0x08) 63 48 ≠ 0) ||
    decide (bits (w 0x08) 15 4 ≠ 0) || decide (bits (w 0x10) 31 14 ≠ 0) || decide (bits (w 0x10) 63 42 ≠ 0) ||
    decide (bits (w 0x18) 63 48 ≠ 0) || decide (bits (w 0x18) 7 1 ≠ 0) || decide (bits (w 0x20) 63 48 ≠ 0) ||
    decide (bits (w 0x28) 63 48 ≠ 0) || decide (bits (w 0x30) 63 48 ≠ 0) || decide (bits (w 0x38) 15 13 ≠ 0) ||
    decide (bits (w 0x38) 7 0 ≠ 0) || decide (bits (w 0x40) 31 0 ≠ 0) || ((b.drop 0x48).take 56).any (· != 0)

/-- A field of a descriptor is outside its range, for a context whose parent has a watchdog period, if it has a parent. -/
def descRange (b : List Byte) (parent : Option Nat) : Bool :=
  let w := descWord b
  let stksize := bits (w 0x08) 3 0
  let slots := bits (w 0x10) 13 0
  let wdog := bits (w 0x38) 63 32
  let slice := bits (w 0x40) 63 32
  decide (stksize = 15) || decide (12288 < slots) || decide (8 < bits (w 0x18) 11 8) || decide (8 < bits (w 0x38) 11 8) ||
    decide (bits (w 0x38) 31 16 = 0) || decide (6144 < bits (w 0x38) 31 16) || decide (60000 < wdog) ||
    (match parent with
      | some p => decide (p < wdog)
      | none => false) ||
    (slice != 0 && (decide (slice < 10) || decide (100000 < slice))) || decide (bits (w 0x20) 47 0 % 2 ^ 21 ≠ 0) ||
    decide (bits (w 0x28) 47 0 % 2 ^ 12 ≠ 0) || decide (bits (w 0x30) 47 0 % 2 ^ 16 ≠ 0) ||
    decide (Config.stackBase < bits (w 0x08) 47 16 * 2 ^ 16 + slots * 32 * (2 ^ 16 * 2 ^ stksize))

/-- A descriptor breaks R18 or R228. -/
def descBad (b : List Byte) (parent : Option Nat) : Bool := descRz b || descRange b parent

/-- The context that a descriptor describes. -/
def contextOf (b : List Byte) (depth : Nat) (parent : Option Nat) (parentWdog : Nat) : Context :=
  let w := descWord b
  let lease := bits (w 0x10) 41 32
  let wdog := bits (w 0x38) 63 32
  let slice := bits (w 0x40) 63 32
  { depth := depth, parent := parent, root := bits (w 0x00) 49 12 * 2 ^ 12, stackBase := bits (w 0x08) 47 16 * 2 ^ 16
    stkSize := bits (w 0x08) 3 0, stkSlots := bits (w 0x10) 13 0, prqBase := bits (w 0x18) 47 12 * 2 ^ 12
    prqSize := bits (w 0x18) 11 8, prqEn := decide (bits (w 0x18) 0 0 = 1), lease := if lease = 0 then 64 else lease
    saveBase := bits (w 0x20) 47 0, saveSlots := bits (w 0x38) 31 16, fltBase := bits (w 0x28) 47 0
    fltSize := bits (w 0x38) 11 8, fltEn := decide (bits (w 0x38) 12 12 = 1), qbase := bits (w 0x30) 47 0
    wdog := if wdog = 0 then min 500 parentWdog else wdog, slice := if slice = 0 then 1000 else slice }

/-! ### CTXNEW (R227, R389, R390) -/

/-- A run of bytes of the global window through the wave's load path, as loads of lane 0 under the wave's own ordering. -/
def State.loadRun (s : State) (a n : Nat) : State × Except State (List Byte) :=
  let k := if a % 8 = 0 then 8 else 1
  s.readRun globOnly k ((List.range (n / k)).map fun i => { lane := 0, lanes := 0, addr := (a + k * i) % 2 ^ 64 })

/-- The lowest free context ID from 16 to 0xFFFE (R226). -/
def State.freeId (s : State) : Option Nat :=
  ((List.range (s.ctxs.rows.length + 1)).map (16 + ·)).find? fun i => (s.ctxs.get? i).isNone && decide (i ≤ 0xFFFE)

/-- The result word of R389. -/
def resultWord (status id : Nat) : DWord := BitVec.ofNat 64 (status + 2 ^ 16 * id)

/-- R227: the new child and its ID, or the status of the failure. -/
def State.newContext (s : State) (c : Nat) (b : List Byte) : Except Nat (State × Nat) :=
  let x := s.ctx c
  if 8 ≤ x.depth then .error 1
  else match s.freeId with
  | none => .error 2
  | some id => if descBad b (some x.wdog) then .error 3 else .ok (s.setCtx id (contextOf b (x.depth + 1) (some c) x.wdog), id)

/-- CTXNEW (R227, R390). -/
def execCtxnew (d a : Nat) (s : State) : Out :=
  withOperands s 4 [{ field := 0, kind := .s, reg := d, dst := true }, { field := 1, kind := .s, reg := a }] none fun s =>
    match s.loadRun (s.sreg a).toNat 128 with
    | (_, .error s') => .next s'
    | (s, .ok b) =>
      match s.newContext s.g.ctx b with
      | .error e => s.putS d (resultWord e 0)
      | .ok (s', id) => s'.putS d (resultWord 0 id)

/-! ### The grant word (R391) -/

/-- The bits that a kind names, KIND apart. -/
def namedBits (kind : Nat) : Nat :=
  match kind with
  | 0 => 2 ^ 59 + 0x7F * 2 ^ 48 + 0xF
  | 1 => 2 ^ 56 - 1
  | 2 => 2 ^ 32 - 1
  | 3 => 0x1FF
  | 4 => 0x7F * 2 ^ 48 + 2 ^ 32 - 1
  | 5 => 0x1FF
  | 6 => 2 ^ 48 - 1
  | 7 => 2 ^ 34 - 1
  | _ => 0

/-- KIND of a grant word. -/
def grantKind (w : Nat) : Nat := bits w 63 60

/-- A grant word is refused, for kinds below a bound (code 0x60). -/
def grantBad (w bound : Nat) : Bool :=
  let kind := grantKind w
  let low := bits w 59 0
  decide (bound ≤ kind) || low &&& namedBits kind != low || (kind == 0 && decide (95 < bits w 54 48)) ||
    (kind == 1 && decide (bits w 23 0 = 0)) || (kind == 3 && decide (256 < bits w 8 0)) ||
    (kind == 7 && decide (bits w 33 32 = 3))

/-- The cores that a CORES word names. -/
def grantCores (w : Nat) : List Nat := ((List.range 4).filter fun k => w.testBit k).map (4 * bits w 54 48 + ·)
/-- The window that a MEM word names. -/
def grantWindow (w : Nat) : Range := { base := bits w 55 24 * 2 ^ 16, size := bits w 23 0 * 2 ^ 16 }

/-- A child of a context that is not being freed. -/
def State.childOf (s : State) (c d : Nat) : Bool := (s.ctxs.get? d).isSome && (s.ctx d).parent == some c && !(s.ctx d).freeing

/-! ### What an issuer holds unused (R448) -/

/-- Cores that a context has taken from a child, until the revocation completes. -/
def State.limboCores (s : State) (c : Nat) : List Nat :=
  ((s.ctx c).revokes.filter fun r => r.due.isSome).flatMap (·.cores)
/-- Queue memory likewise. -/
def State.limboQmem (s : State) (c : Nat) : Nat :=
  sumNat (((s.ctx c).revokes.filter fun r => r.due.isSome && r.kind == some 2).map fun r => bits r.word.toNat 31 0 * 2 ^ 16)

/-- A sum over the children of a context. -/
def State.childSum (s : State) (c : Nat) (f : Context → Nat) : Nat := sumNat ((s.children c).map fun d => f (s.ctx d))
/-- Unused queue memory. -/
def State.spareQmem (s : State) (c : Nat) : Nat :=
  (s.ctx c).qmem - s.childSum c (·.qmem) - s.limboQmem c - sumNat ((s.queueRanges c).map (·.size))

/-- The groups that wait in a launch queue of a cluster on which their context has no core leave it. -/
def State.dropQueued (s : State) (cl : Nat) : State :=
  ((s.cluster cl).queue.filter fun g => ((List.range 4).map (4 * cl + ·)).all fun k =>
    !(s.granted (s.group g).ctx k) || s.grantedOn (s.group g).ctx k).foldl (fun s g => s.dequeueGroup cl g) s

/-- The queues and the Gatherer look again after a change of grants. -/
def State.regranted (s : State) (cl : Nat) : State := ((s.dropQueued cl).pokePairs.pokeQueues).pokeGatherer

/-! ### The kinds of CTXGRANT (R229 to R231, R448) -/

/-- QUOTA. -/
def quota : Nat := 5

/-- A core goes to a child (R229, R231): the issuer's groups there stop; a child that shares it alone begins its turn. -/
def State.grantCore (s : State) (c d core : Nat) (shared : Bool) : State :=
  let mine := s.holdsTurn c core
  let x := s.ctx d
  let s := s.setCtx d { x with cores := x.cores.filter (fun p => p.1 != core) ++ [(core, shared)] }
  let s := if mine then s.leaveCore c core false else s
  if shared && ((s.core core).turns.get? c).isNone then (s.beginTurn c core d).post 1 (.sliceExpiry core) else s

/-- CORES. -/
def State.grantOfCores (s : State) (c d w : Nat) : Except Nat State :=
  let ks := grantCores w
  let shared := w.testBit 59
  let sib := (s.children c).filter (· != d)
  let ok := fun (k : Nat) => s.granted c k && !(s.limboCores c).contains k &&
    sib.all fun e => if shared then !(s.ctx e).cores.contains (k, false) else !s.granted e k
  if ks.all ok then .ok ((ks.foldl (fun s k => s.grantCore c d k shared) s).regranted (bits w 54 48)) else .error quota

/-- MEM: at most 8 windows, in the issuer's global window. -/
def State.grantOfMem (s : State) (d w : Nat) : Except Nat State :=
  let r := grantWindow w
  let x := s.ctx d
  if 8 ≤ x.windows.length ∨ Config.stackBase < r.base + r.size then .error quota
  else .ok (s.setCtx d { x with windows := x.windows ++ [r] })

/-- QMEM. -/
def State.grantOfQmem (s : State) (c d w : Nat) : Except Nat State :=
  let n := bits w 31 0 * 2 ^ 16
  let x := s.ctx d
  if s.spareQmem c < n then .error quota else .ok (s.setCtx d { x with qmem := x.qmem + n })

/-- BIND: the issuer's highest-numbered entries, none with V = 1. -/
def State.grantOfBind (s : State) (c d w : Nat) : Except Nat State :=
  let n := bits w 8 0
  let x := s.ctx c
  if x.bindCount < n ∨ ((List.range n).any fun i => ((x.binds.getD (x.bindCount - 1 - i) (0, 0)).1).getLsbD 63) = true then .error quota
  else
    let low := x.bindCount - n
    let s := s.setCtx c { x with bindCount := low, binds := ⟨x.binds.rows.filter fun p => decide (p.1 < low)⟩ }
    let y := s.ctx d
    .ok (s.setCtx d { y with bindCount := y.bindCount + n })

/-- ENERGY, IPEAK (R204); the issuer holds nothing on a cluster that does not exist. -/
def State.grantOfEnergy (s : State) (c d w : Nat) : Except Nat State :=
  let cl := bits w 54 48
  let ma := bits w 31 16
  let nj := bits w 15 0
  let x := s.ctx c
  if 95 < cl ∨ x.energy.getD cl 0 < s.childSum c (fun y => y.energy.getD cl 0) + nj ∨
      x.ipeak.getD cl 0 < s.childSum c (fun y => y.ipeak.getD cl 0) + ma then .error quota
  else
    let y := s.ctx d
    .ok ((s.setCtx d { y with
      energy := y.energy.set cl (y.energy.getD cl 0 + nj)
      ipeak := y.ipeak.set cl (y.ipeak.getD cl 0 + ma) }).pokeQueues.pokeGatherer)

/-- BANDWIDTH (R219). -/
def State.grantOfBandwidth (s : State) (c d w : Nat) : Except Nat State :=
  let n := bits w 8 0
  let y := s.ctx d
  if (s.ctx c).share < s.childSum c (·.share) + n then .error quota else .ok (s.setCtx d { y with share := y.share + n })

/-- ROOT (R392): the entry's launch in the child; the number of earlier ones is its SEQ (R439). -/
def State.grantOfRoot (s : State) (d : Nat) (b : List Byte) : Except Nat State :=
  match s.startLaunch d b none (s.ctx d).roots with
  | .launch s' => .ok (s'.setCtx d { s'.ctx d with roots := (s'.ctx d).roots + 1 })
  | .badEntry => .error 7
  | .fault f => .ok (s.deviceFault d f false)
  | .noRoom => .error quota
  | .tooBig => .error quota

/-- RESUME (R240): STALE for a ticket that names no stopped wave, or that another ring's owner has. -/
def State.resume (s : State) (c w : Nat) : Except Nat State :=
  let n := bits w 31 0
  match s.ticketWave n with
  | none => .error 6
  | some t => if t.frontEnd || t.ring ≠ c then .error 6 else .ok (s.giveVerdict n t (bits w 33 32))

/-- The operands of CTXGRANT. -/
def opsGrant (d a b : Nat) : List Opnd :=
  [{ field := 0, kind := .s, reg := d, dst := true }, { field := 1, kind := .s, reg := a }, { field := 2, kind := .s, reg := b }]

/-- The grant of a kind other than ROOT. -/
def State.grantOf (s : State) (c d w : Nat) : Except Nat State :=
  match grantKind w with
  | 0 => s.grantOfCores c d w
  | 1 => s.grantOfMem d w
  | 2 => s.grantOfQmem c d w
  | 3 => s.grantOfBind c d w
  | 4 => s.grantOfEnergy c d w
  | _ => s.grantOfBandwidth c d w

/-- A ROOT grant whose structures cannot be read starts no launch: BAD_ENTRY, and the fault is delivered (R438, R447). -/
def rootStatus (s : State) (d : Nat) (b : List Byte) : Nat :=
  match s.startLaunch d b none (s.ctx d).roots with
  | .fault _ => 7
  | _ => 0

/-- CTXGRANT of every kind (R229, R392). The issuing wave may itself be stopped or ended by what it grants; its result is
written first. -/
def ctxgrant (d a b : Nat) (s : State) : Out :=
  withOperands s 4 (opsGrant d a b) (if grantBad (s.sreg b).toNat 8 then some (illegalOperand 0x60 2 b) else none) fun s =>
    let c := s.g.ctx
    let w := (s.sreg b).toNat
    let child := (s.sreg a).toNat % 2 ^ 16
    let k := s.cur
    let done := fun (s : State) (status : Nat) => (s.writeS d (resultWord status 0)).finish 4
    let give := fun (s : State) (r : State → Except Nat State) (ok : Nat) =>
      match r s with
      | .error e => done s e
      | .ok _ =>
        let s := done s ok
        match r s with
        | .ok s' => ({ s' with cur := k } : State)
        | .error _ => s
    if grantKind w = 7 then .next (give s (fun s => s.resume c w) 0)
    else if !s.childOf c child then .next (done s 4)
    else if grantKind w = 6 then
      match s.loadRun (bits w 47 0) 64 with
      | (_, .error s') => .next s'
      | (s, .ok e) => .next (give s (fun s => s.grantOfRoot child e) (rootStatus s child e))
    else .next (give s (fun s => s.grantOf c child w) 0)

/-- CTXGRANT CORES (R229, R231); the words of the other kinds decode to it as well, and it performs the kind that its grant
word names. -/
def execCtxgrantCores (d a b : Nat) (s : State) : Out := ctxgrant d a b s
/-- CTXGRANT MEM (R230). -/
def execCtxgrantMem (d a b : Nat) (s : State) : Out := ctxgrant d a b s
/-- CTXGRANT QMEM (R449). -/
def execCtxgrantQmem (d a b : Nat) (s : State) : Out := ctxgrant d a b s
/-- CTXGRANT BIND (R448). -/
def execCtxgrantBind (d a b : Nat) (s : State) : Out := ctxgrant d a b s
/-- CTXGRANT ENERGY, IPEAK (R204). -/
def execCtxgrantEnergyIpeak (d a b : Nat) (s : State) : Out := ctxgrant d a b s
/-- CTXGRANT BANDWIDTH (R219). -/
def execCtxgrantBandwidth (d a b : Nat) (s : State) : Out := ctxgrant d a b s
/-- CTXGRANT ROOT (R392). -/
def execCtxgrantRoot (d a b : Nat) (s : State) : Out := ctxgrant d a b s
/-- CTXGRANT RESUME (R240). -/
def execCtxgrantResume (d a b : Nat) (s : State) : Out := ctxgrant d a b s

/-! ### The end of contexts and launches (R232, R439) -/

/-- A launch is killed: its allocated and committed records are abandoned, its continuations discarded (R181, R439). -/
def State.killLaunch (s : State) (l : Nat) : State :=
  let x := s.launch l
  let lost := fun (p : Nat × SlotState) => match p.2 with
    | .assigned _ => false
    | _ => true
  let nodes := x.nodes.rows.map fun q =>
    let n := q.2
    (q.1, { n with ready := [], slots := ⟨n.slots.rows.filter fun p => !lost p⟩
                   abandoned := n.abandoned + countIf lost n.slots.rows })
  (s.setLaunch l { x with killed := true, nodes := ⟨nodes⟩, continuations := [] }).noteEnd l

/-- A group that holds no resources ends; records that it was formed from and that never ran are abandoned (R439). -/
def State.endIdle (s : State) (g : Nat) : State :=
  let x := s.group g
  let fresh := x.phase == .queued
  let n := s.node x.launch x.node
  let mine := countIf (fun p => p.2 == SlotState.assigned g) n.slots.rows
  let s := if fresh then s.setNode x.launch x.node { n with abandoned := n.abandoned + mine } else s
  let s := (s.freeSlots g).dropWaves g
  let c := s.ctx x.ctx
  let s := if fresh then s else s.setCtx x.ctx { c with folioUsed := c.folioUsed.filter (· != x.folio) }
  (s.setGroup g { ctx := x.ctx, launch := x.launch, node := x.node, gid := x.gid, core := x.core, phase := .ended }).noteEnd x.launch

/-- Groups that wait leave the launch queues. -/
def State.unqueue (s : State) (gs : List Nat) : State :=
  s.clusters.keys.foldl (fun s cl => gs.foldl (fun s g => s.dequeueGroup cl g) s) s

/-- Every launch of some contexts is killed, and their groups that hold no resources end. -/
def State.killContexts (s : State) (ds : List Nat) : State :=
  let s := s.unqueue (s.groupsIn ds GroupPhase.idle)
  let s := (s.groupsIn ds GroupPhase.idle).foldl (fun s g => s.endIdle g) s
  ((s.launches.rows.filter fun p => ds.contains p.2.ctx && !p.2.ended).map (·.1)).foldl (fun s l => s.killLaunch l) s

/-- Some contexts are erased, with their turns and the uses of cores that they were ending. -/
def State.eraseContexts (s : State) (ds : List Nat) : State :=
  let s : State := { s with
    ctxs := ⟨s.ctxs.rows.filter fun p => !ds.contains p.1⟩
    clusters := ⟨s.clusters.rows.map fun p => (p.1, { p.2 with tlb := p.2.tlb.filter fun m => !ds.contains m.ctx })⟩
    walkers := ⟨s.walkers.rows.map fun p => (p.1, p.2.filter fun m => !ds.contains m.ctx)⟩ }
  s.cores.keys.foldl (fun s k =>
    let x := s.core k
    s.setCore k { x with
      turns := ⟨x.turns.rows.filter fun p => !ds.contains p.1⟩
      turnEnds := ⟨x.turnEnds.rows.filter fun p => !ds.contains p.1⟩
      leaving := x.leaving.filter fun p => !ds.contains p.1
      tlb := x.tlb.filter fun m => !ds.contains m.ctx }) s

/-! ### CTXTAKE and CTXFREE (R232, R389, R393, R448) -/

/-- The handle of a CTXTAKE or CTXFREE becomes full. -/
def State.endRevoke (s : State) (g h status : Nat) : State :=
  s.fullHandle g h (if status = 0 then {} else { code := 1, reason := status })

/-- What a child holds covers a CTXTAKE (R448): what it has granted on does not count. -/
def State.canTake (s : State) (d w : Nat) : Bool :=
  let x := s.ctx d
  let cl := bits w 54 48
  match grantKind w with
  | 0 => (grantCores w).all fun k => s.granted d k && !s.grantedOn d k && !(s.limboCores d).contains k &&
      !((s.ctx (x.parent.getD 0)).revokes.any fun r => r.child == d && r.cores.contains k)
  | 1 => x.windows.contains (grantWindow w)
  | 2 => decide (bits w 31 0 * 2 ^ 16 + s.childSum d (·.qmem) ≤ x.qmem)
  | 3 => decide (bits w 8 0 ≤ x.bindCount)
  | 4 => decide (bits w 15 0 + s.childSum d (fun y => y.energy.getD cl 0) ≤ x.energy.getD cl 0) &&
      decide (bits w 31 16 + s.childSum d (fun y => y.ipeak.getD cl 0) ≤ x.ipeak.getD cl 0)
  | _ => decide (bits w 8 0 + s.childSum d (·.share) ≤ x.share)

/-- The committed records of a context above the end of its own queue memory are lost and abandoned (R232, R448). -/
def State.loseRecords (s : State) (d : Nat) : State :=
  let top := (s.ctx d).qbase + s.queuePart d
  ((s.launches.rows.filter fun p => p.2.ctx == d && !p.2.ended).map (·.1)).foldl (fun s l =>
    (s.launch l).nodes.keys.foldl (fun s i =>
      let n := s.node l i
      let lost := fun (slot : Nat) => decide (top < n.base + (slot + 1) * n.z)
      let gone := n.ready.filter fun r => lost r.slot
      if gone.isEmpty then s
      else (s.setNode l i { n with
        ready := n.ready.filter fun r => !lost r.slot
        slots := gone.foldl (fun t r => t.erase r.slot) n.slots
        abandoned := n.abandoned + gone.length }).noteEnd l) s) s

/-- The resource of a CTXTAKE is withdrawn from the child; binding entries return to the issuer with V = 0 (R448). -/
def State.withdrawFrom (s : State) (c : Nat) (r : Revoke) : State :=
  let d := r.child
  let x := s.ctx d
  let w := r.word.toNat
  let cl := bits w 54 48
  match grantKind w with
  | 0 =>
    let s := s.setCtx d { x with cores := x.cores.filter fun p => !r.cores.contains p.1 }
    let s := r.cores.foldl (fun s k => if (s.core k).turns.get? c == some d then s.passTurn c k d else s) s
    s.regranted cl
  | 1 => s.setCtx d { x with windows := x.windows.erase (grantWindow w) }
  | 2 => (s.setCtx d { x with qmem := x.qmem - bits w 31 0 * 2 ^ 16 }).loseRecords d
  | 3 =>
    let low := x.bindCount - bits w 8 0
    let s := s.setCtx d { x with bindCount := low, binds := ⟨x.binds.rows.filter fun p => decide (p.1 < low)⟩ }
    let y := s.ctx c
    s.setCtx c { y with bindCount := y.bindCount + bits w 8 0 }
  | 4 => s.setCtx d { x with
      energy := x.energy.set cl (x.energy.getD cl 0 - bits w 15 0)
      ipeak := x.ipeak.set cl (x.ipeak.getD cl 0 - bits w 31 16) }
  | _ => s.setCtx d { x with share := x.share - bits w 8 0 }

/-- Replaces the record of a revocation. -/
def State.putRevoke (s : State) (c : Nat) (r : Revoke) : State :=
  let x := s.ctx c
  s.setCtx c { x with revokes := x.revokes.map fun q => if q.group = r.group ∧ q.handle = r.handle then r else q }

/-- The stops that a revocation waits for have completed. -/
def State.revokeStopped (s : State) (r : Revoke) : Bool :=
  let below := r.kind.isNone
  (r.cores.all fun k => !(s.core k).leaving.contains (r.child, below) && (s.stillOn r.child k below).isEmpty) &&
    (r.kind.isSome || (s.groupsIn (s.descendants r.child) GroupPhase.holds).isEmpty)

/-- How long after the withdrawal a revocation completes (R30, R232). -/
def State.revokeDelay (s : State) (c : Nat) (r : Revoke) : Nat :=
  match r.kind with
  | none => leaseHorizon s c * Config.usCycles
  | some k => if k < 3 then leaseHorizon s c * Config.usCycles else 0

/-- A revocation completes: a freed child and its descendants are erased, with their binding entries back at the issuer's;
quotas and shares are the issuer's again; the handle becomes full. -/
def State.finishRevoke (s : State) (c : Nat) (r : Revoke) : State :=
  let x := s.ctx c
  let s := s.setCtx c { x with revokes := x.revokes.filter fun q => !(q.group == r.group && q.handle == r.handle) }
  let s := match r.kind with
    | some _ => s
    | none =>
      let ds := s.descendants r.child
      let n := sumNat (ds.map fun d => (s.ctx d).bindCount)
      let y := s.ctx c
      (s.setCtx c { y with bindCount := y.bindCount + n }).eraseContexts ds
  ((s.endRevoke r.group r.handle 0).pokePairs.pokeQueues.pokeGatherer).pokeFrontEnds

/-- A revocation whose stops have completed withdraws its resource; a freed child's launches end (R439). -/
def State.stepRevoke (s : State) (c : Nat) (r : Revoke) : State :=
  match r.due with
  | some t =>
    if t ≤ s.now then s.finishRevoke c r else s.postOnce (t - s.now) (.revocationComplete r.group r.handle)
  | none =>
    if !s.revokeStopped r then s.postOnce Config.usCycles (.revocationComplete r.group r.handle)
    else
      let s := match r.kind with
        | some _ => s.withdrawFrom c r
        | none => s.killContexts (s.descendants r.child)
      let d := s.revokeDelay c r
      let r := { r with due := some (s.now + d) }
      let s := s.putRevoke c r
      if d = 0 then s.finishRevoke c r else s.post d (.revocationComplete r.group r.handle)

/-- REVOCATION_COMPLETE: the next step of a CTXTAKE or CTXFREE that a handle reports (R232). -/
def execRevocationComplete (g h : Nat) (s : State) : Out :=
  match s.ctxs.rows.findSome? fun p => (p.2.revokes.find? fun r => r.group == g && r.handle == h).map fun r => (p.1, r) with
  | some (c, r) => .next (s.stepRevoke c r)
  | none => .next s

/-- A revocation begins: its stops, and a freed tree's groups leave the launch queues. -/
def State.beginRevoke (s : State) (c : Nat) (r : Revoke) : State :=
  let below := r.kind.isNone
  let s := s.setCtx c { s.ctx c with revokes := (s.ctx c).revokes ++ [r] }
  let s := r.cores.foldl (fun s k => s.leaveCore r.child k below) s
  let s := if below then
      let ds := s.descendants r.child
      let s := ds.foldl (fun s d => s.setCtx d { s.ctx d with freeing := true }) s
      s.unqueue (s.groupsIn ds GroupPhase.idle)
    else s
  if r.cores.isEmpty then s.stepRevoke c r else s.post 1 (.revocationComplete r.group r.handle)

/-- CTXTAKE of every kind (R232, R393). -/
def ctxtake (h a b : Nat) (s : State) : Out :=
  withOperands s 4 [{ field := 1, kind := .s, reg := a }, { field := 2, kind := .s, reg := b }]
    (if grantBad (s.sreg b).toNat 6 then some (illegalOperand 0x60 2 b) else none) fun s =>
    s.startThen h fun s =>
      let g := s.w.group
      let c := s.g.ctx
      let w := (s.sreg b).toNat
      let child := (s.sreg a).toNat % 2 ^ 16
      let s := (s.bindHandle g h 1 .revoke).finish 4
      if !s.childOf c child then .next (s.endRevoke g h 4)
      else if !s.canTake child w then .next (s.endRevoke g h quota)
      else .next (s.beginRevoke c
        { child := child, kind := some (grantKind w), word := BitVec.ofNat 64 w, group := g, handle := h
          cores := if grantKind w = 0 then grantCores w else [] })

/-- CTXTAKE CORES (R232); the words of the other kinds decode to it as well, and it performs the kind that its word names. -/
def execCtxtakeCores (h a b : Nat) (s : State) : Out := ctxtake h a b s
/-- CTXTAKE MEM (R230). -/
def execCtxtakeMem (h a b : Nat) (s : State) : Out := ctxtake h a b s
/-- CTXTAKE QMEM (R448). -/
def execCtxtakeQmem (h a b : Nat) (s : State) : Out := ctxtake h a b s
/-- CTXTAKE BIND (R448). -/
def execCtxtakeBind (h a b : Nat) (s : State) : Out := ctxtake h a b s
/-- CTXTAKE ENERGY, IPEAK (R448). -/
def execCtxtakeEnergyIpeak (h a b : Nat) (s : State) : Out := ctxtake h a b s
/-- CTXTAKE BANDWIDTH (R448). -/
def execCtxtakeBandwidth (h a b : Nat) (s : State) : Out := ctxtake h a b s

/-- CTXFREE (R232, R393). -/
def execCtxfree (h a : Nat) (s : State) : Out :=
  withOperands s 4 [{ field := 1, kind := .s, reg := a }] none fun s =>
    s.startThen h fun s =>
      let g := s.w.group
      let c := s.g.ctx
      let child := (s.sreg a).toNat % 2 ^ 16
      let s := (s.bindHandle g h 1 .revoke).finish 4
      if !s.childOf c child then .next (s.endRevoke g h 4)
      else .next (s.beginRevoke c
        { child := child, kind := none, group := g, handle := h, cores := (s.ctx child).cores.map (·.1) })

/-! ### CTXSTAT (R233, R394) -/

/-- Entries of a context's ring whose ticket names a wave that awaits a verdict. -/
def State.openTickets (s : State) (c : Nat) : Nat :=
  countIf (fun n => match s.ticketWave n with
    | some t => !t.frontEnd && t.ring == c && !((s.ctx c).ringQ.any fun e => e.ticket == n)
    | none => false) s.tickets.keys

/-- The abandoned slots of a context: of its launches that have ended, and of those that run (R181, R233). -/
def State.abandonedOf (s : State) (c : Nat) : Nat :=
  (s.ctx c).abandoned + sumNat ((s.launches.vals.filter fun l => l.ctx == c && !l.ended).map (·.abandonedSlots))

/-- The word of a select (R233). -/
def State.statWord (s : State) (c sel : Nat) : DWord :=
  let x := s.ctx c
  match sel with
  | 0 => BitVec.ofNat 64 ((s.liveWork c).toNat + 2 * (s.running c).toNat + 4 * x.hung.toNat + 2 ^ 8 * ((s.children c).length % 256))
  | 1 => BitVec.ofNat 64 x.spills
  | 2 => BitVec.ofNat 64 x.overruns
  | 3 => x.shortfall
  | 4 => BitVec.ofNat 64 (s.abandonedOf c)
  | _ => BitVec.ofNat 64 (s.openTickets c)

/-- CTXSTAT (R394): 0xFFFF names the issuer; reading select 3 re-arms the shortfall event. -/
def execCtxstat (d a n : Nat) (s : State) : Out :=
  withOperands s 4 [{ field := 0, kind := .s, reg := d, dst := true }, { field := 1, kind := .s, reg := a }]
    (if 5 < n then some (illegalOperand 0x5F 2 n) else none) fun s =>
    let id := (s.sreg a).toNat % 2 ^ 16
    let c := if id = 0xFFFF then s.g.ctx else id
    if id = 0xFFFF ∨ s.childOf s.g.ctx id = true then
      let x := s.statWord c n
      let s := if n = 3 then s.setCtx c { s.ctx c with shortArmed := true } else s
      s.putS d x
    else s.putS d (BitVec.allOnes 64)

end Sys2Proof.Machine
end

