-- ==== Sys2Proof/Machine/CrossLane.lean ====
section
/-!
DEFINITION. The cross-lane instructions (R295 to R297) and the mask instructions (R298).
-/

namespace Sys2Proof.Machine

/-! ### Cross-lane (R295 to R297) -/

/-- VLID (R295). -/
def execVlid (d : Nat) (s : State) : Out :=
  withOperands s 4 [{ field := 0, kind := .v, reg := d, dst := true }] none fun s =>
    s.putV 4 d (lanesOf fun l => BitVec.ofNat 32 l)
/-- LPERM (R295): every read takes the value va held before the instruction. -/
def execLperm (d a b : Nat) (s : State) : Out :=
  withOperands s 4 (opsBin d a b) none fun s =>
    let x := s.vaReg a
    let y := s.vreg b
    s.putV 4 d (lanesOf fun l => lane x ((lane y l).toNat % 32))
/-- VOTE (R296); under VOTEALL (R413 bit 4) it writes all 32 bits of md. -/
def execVote (d a : Nat) (s : State) : Out :=
  withOperands s 4 [{ field := 0, kind := .mw, reg := d }, { field := 1, kind := .m, reg := a }] none fun s =>
    let x : Word := if s.w.active &&& s.mreg a = 0 then 0 else 0xFFFFFFFF
    let m : Word := if s.compat 4 then 0xFFFFFFFF else s.w.active
    .next ((s.setW (s.w.writeM m d x)).finish 4)
/-- MPOP (R296). -/
def execMpop (d a : Nat) (s : State) : Out :=
  withOperands s 4 [{ field := 0, kind := .s, reg := d, dst := true }, { field := 1, kind := .m, reg := a }] none fun s =>
    s.putS d (BitVec.ofNat 64 (lanesIn (s.w.active &&& s.mreg a)).length)

/-- A node with an absent child takes the other child's value (R91). -/
def present {α : Type} (op : α → α → α) : Option α → Option α → Option α
  | some x, some y => some (op x y)
  | some x, none => some x
  | none, y => y

/-- REDUCE's tree over the values of the active lanes (R91). -/
def reduceTree {α : Type} (op : α → α → α) (m : Word) (f : Nat → α) : Option α :=
  ((treeLevels (present op) 5 (laneList.map fun l => if bit m l then some (f l) else none)).head?).join

/-- rne arithmetic on a format: REDUCE ignores FPCTL (R297). -/
def rneOf (F : Fmt) : Fp := { F := F }
/-- A NaN made canonical (R297). -/
def canonical (F : Fmt) (x : Nat) : Nat := if (unpack F x).isNan then F.nan else x
/-- A quiet NaN. -/
def isQuiet (F : Fmt) (x : Nat) : Bool := (unpack F x).isNan && !(unpack F x).isSig
/-- A node of REDUCE.MAX.f32; under REDMAXNAN (R413 bit 5) the other child of exactly one quiet NaN passes. -/
def reduceMaxNode (old : Bool) (x y : Nat) : Nat :=
  if old && (isQuiet fp32 x != isQuiet fp32 y) then (if isQuiet fp32 x then y else x) else (rneOf fp32).max x y

/-- REDUCE on 32-bit values: the result goes to every active lane (R297). -/
def reduce32 (d a : Nat) (op : Nat → Nat → Nat) (last : Nat → Nat) (s : State) : Out :=
  withOperands s 4 (opsUn d a) none fun s =>
    let x := s.vaReg a
    let r := (reduceTree op s.w.active fun l => (lane x l).toNat).getD 0
    s.putV 4 d (lanesOf fun _ => BitVec.ofNat 32 (last r))

/-- REDUCE.ADD.i32 (R297). -/
def execReduceAddI32 (d a : Nat) (s : State) : Out := reduce32 d a (fun x y => (x + y) % 2 ^ 32) id s
/-- REDUCE.MAX.i32 (R297). -/
def execReduceMaxI32 (d a : Nat) (s : State) : Out :=
  reduce32 d a (fun x y => (maxS (BitVec.ofNat 32 x) (BitVec.ofNat 32 y)).toNat) id s
/-- REDUCE.ADD.f32 (R297). -/
def execReduceAddF32 (d a : Nat) (s : State) : Out :=
  reduce32 d a (fun x y => ((rneOf fp32).add x y).1) (canonical fp32) s
/-- REDUCE.MAX.f32 (R297). -/
def execReduceMaxF32 (d a : Nat) (s : State) : Out := reduce32 d a (reduceMaxNode (s.compat 5)) (canonical fp32) s
/-- REDUCE.ADD.f64 (R297). -/
def execReduceAddF64 (d a : Nat) (s : State) : Out :=
  withOperands s 4 [{ field := 0, kind := .v2, reg := d, dst := true }, { field := 1, kind := .v2, reg := a, src := some 0 }]
    none fun s =>
      let x := s.vaReg a
      let y := s.vaReg (a + 1)
      let op := fun p q => ((rneOf fp64).add p q).1
      let r := (reduceTree op s.w.active fun l => (pairLane x y l).toNat).getD 0
      .next ((s.writeV2 d fun _ => BitVec.ofNat 64 (canonical fp64 r)).finish 4)

/-! ### Masks (R298) -/

/-- Bit l of md := f(bit l of ma, bit l of mb) in each active lane. -/
def maskBin (d a b : Nat) (f : Word → Word → Word) (s : State) : Out :=
  withOperands s 4 [{ field := 0, kind := .mw, reg := d }, { field := 1, kind := .m, reg := a },
    { field := 2, kind := .m, reg := b }] none fun s => .next ((s.writeM d (f (s.mreg a) (s.mreg b))).finish 4)
/-- Bit l of md := f(bit l of ma) in each active lane. -/
def maskUn (d a : Nat) (f : Word → Word) (s : State) : Out :=
  withOperands s 4 [{ field := 0, kind := .mw, reg := d }, { field := 1, kind := .m, reg := a }] none fun s =>
    .next ((s.writeM d (f (s.mreg a))).finish 4)

/-- MAND (R298). -/
def execMand (d a b : Nat) (s : State) : Out := maskBin d a b (· &&& ·) s
/-- MOR (R298). -/
def execMor (d a b : Nat) (s : State) : Out := maskBin d a b (· ||| ·) s
/-- MXOR (R298). -/
def execMxor (d a b : Nat) (s : State) : Out := maskBin d a b (· ^^^ ·) s
/-- MNOT (R298). -/
def execMnot (d a : Nat) (s : State) : Out := maskUn d a (fun x => ~~~x) s
/-- MMOV (R298). -/
def execMmov (d a : Nat) (s : State) : Out := maskUn d a id s

end Sys2Proof.Machine
end

