-- ==== Sys2Proof/Machine/Select.lean ====
section
/-!
DEFINITION. Which waves are ready (R168, R199), and which wave the selector takes (log 4).
-/

namespace Sys2Proof.Machine

/-- A start event of a cluster waits for the slew limiter (R217). -/
def State.startWaits (s : State) (cl : Nat) : Bool := s.starts.any fun e => e.cluster == cl

/-- A wave has something to issue: a lane that neither retired nor sleeps, or an instruction of a slice (R165, R191). -/
def Wave.hasWork (w : Wave) : Bool := w.eligible != 0 || !w.regen.isEmpty

/-- No older retry is due at a bank of S for which the instruction of wave `k` waits (R52). -/
def State.bankTurn (s : State) (k : Nat) : Bool :=
  (s.wave k).bankWait.all fun x => s.lockTurn (s.group (s.wave k).group).core ((0, k), x)

/-- A wave is ready (R199): its group is resident and not being saved, it issues and does not wait, not for a queued store that
a lock bit holds up either (R52), and its cluster is neither stopped by metering (R205) nor waiting for its start (R217). -/
def State.ready (s : State) (k : Nat) : Bool :=
  let w := s.wave k
  let g := s.group w.group
  let cl := clusterOf g.core
  w.phase == .run && g.phase == .resident && g.forced.isNone && !w.waiting && !w.remoteHold && w.storeWait.isNone &&
    decide (w.retryAt ≤ s.now) && s.bankTurn k && w.hasWork && !(s.cluster cl).stopped && !((s.cluster cl).gated && s.startWaits cl)

/-- Wave `a` is taken before wave `b`: the one placed earlier, then the lower slot (R199). -/
def State.older (s : State) (a b : Nat) : Bool :=
  let x := s.wave a
  let y := s.wave b
  if x.placed ≠ y.placed then decide (x.placed < y.placed) else decide (x.slot ≤ y.slot)

/-- The oldest of some waves. -/
def State.oldest (s : State) : List Nat → Option Nat
  | [] => none
  | k :: t =>
    match s.oldest t with
    | some j => if s.older k j then some k else some j
    | none => some k

/-- The ready waves. -/
def State.readyWaves (s : State) : List Nat := s.waves.keys.filter s.ready

/-- The selector's wave among some ready ones: the oldest of those passed over for 32 cycles, else the oldest (R199). -/
def State.select (s : State) (l : List Nat) : Option Nat :=
  let late := l.filter fun k => decide (32 ≤ s.passed.getD k 0)
  s.oldest (if late.isEmpty then l else late)

/-- A cluster's copy engines or matrix arrays have an operation in progress (R216): a command that waits in its queue is none. -/
def State.enginesBusy (s : State) (cl : Nat) : Bool :=
  ((s.cluster cl).engines.vals.any fun q => q.any (·.started)) ||
    (List.range 4).any fun i => (s.core (4 * cl + i)).matrixQ.any (·.started)

end Sys2Proof.Machine
end

