-- ==== Sys2Proof/Machine/Power.lean ====
section
/-!
DEFINITION. Power (R203 to R221, R400): PWRREQ, changes of the operating point, metering, droop, the governor, the thermal
clamp, clock gating, the slew limiter and bandwidth shares.
-/

namespace Sys2Proof.Machine

/-! ### Operating points (R212, R213) -/

/-- The voltage of a point with undervolt `n`, in units of 0.1 mV (R212). -/
def pointVolts (p n : Nat) : Nat := 5500 + 125 * p - 50 * n

/-- The guard band of a domain: the largest of its clusters' (R212, R443), in mV. -/
def State.domainGuard (s : State) (d : Nat) : Nat := ((domainClusters d).map fun c => (s.cluster c).guard).foldr max 0

/-- The voltage of a point at an undervolt is below its floor (R212). -/
def State.belowFloor (s : State) (d p n : Nat) : Bool :=
  decide (pointVolts p n < 10 * (s.config.floors.getD p 0 + s.domainGuard d))

/-- Time in cycles of a slew between two voltages, at 10 mV per us (R213). -/
def slewTime (a b : Nat) : Nat := 20 * ((a - b) + (b - a))

/-- A change raises the domain: a higher point, or more voltage at the same point. -/
def raises (x : Domain) (p n : Nat) : Bool :=
  decide (x.point < p) || (decide (x.point = p) && decide (n < x.underv))

/-- A change begins: a raise slews the voltage first, a lowering switches the frequency 1 us after the decision (R213). -/
def State.beginChange (s : State) (d p n : Nat) : State :=
  let x := s.domain d
  let s := s.setDomain d { x with step := some (p, n), target := none, slewed := false, switched := false }
  if raises x p n then s.post (slewTime (pointVolts x.point x.underv) (pointVolts p n)) (.voltageSlewComplete d)
  else s.post Config.usCycles (.frequencySwitch d)

/-- A domain moves to a point: the step under way finishes first, and the target replaces a pending one (R210). -/
def State.startChange (s : State) (d p n : Nat) : State :=
  let x := s.domain d
  if x.step.isSome then s.setDomain d { x with target := some (p, n) }
  else if x.point = p ∧ x.underv = n then s
  else s.beginChange d p n

/-- A mode takes effect. -/
def Domain.setMode (x : Domain) (m : Bool × Nat × Nat) : Domain := { x with auto := m.1, lo := m.2.1, hi := m.2.2, mode := none }

/-- The step is done: the pending target follows, else the pending mode takes effect. -/
def State.endStep (s : State) (d : Nat) : State :=
  let x := { s.domain d with step := none, target := none }
  let rest := match x.mode with
    | some m => s.setDomain d (x.setMode m)
    | none => s.setDomain d x
  match (s.domain d).target with
  | some (p, n) => if x.point = p ∧ x.underv = n then rest else (s.setDomain d x).beginChange d p n
  | none => rest

/-- VOLTAGE_SLEW_COMPLETE (R213): of a raise, the frequency follows 1 us later; of a lowering, the change is done. -/
def execVoltageSlewComplete (d : Nat) (s : State) : Out :=
  let x := s.domain d
  match x.step with
  | none => .next s
  | some (_, n) =>
    if x.slewed then .next s
    else
      let s := s.setDomain d { x with slewed := true, underv := n }
      .next (if x.switched then s.endStep d else s.post Config.usCycles (.frequencySwitch d))

/-- FREQUENCY_SWITCH (R213): of a raise, the change is done; of a lowering, the voltage slews down. -/
def execFrequencySwitch (d : Nat) (s : State) : Out :=
  let x := s.domain d
  match x.step with
  | none => .next s
  | some (p, n) =>
    if x.switched then .next s
    else
      let s := s.setDomain d { x with switched := true, point := p }
      .next (if x.slewed then s.endStep d
        else s.post (slewTime (pointVolts x.point x.underv) (pointVolts p n)) (.voltageSlewComplete d))

/-! ### PWRREQ (R65, R208 to R212, R400) -/

/-- The status word (R210) with a code. -/
def State.powerWord (s : State) (d code : Nat) : DWord :=
  let x := s.domain d
  BitVec.ofNat 64 (code + 2 ^ 4 * (x.gatePending && s.domainResident d).toNat + 2 ^ 5 * (x.gatePending && s.domainSpine d).toNat +
    2 ^ 8 * x.point + 2 ^ 16 * x.gated.toNat + 2 ^ 17 * x.auto.toNat + 2 ^ 20 * x.underv)

/-- A request of the domain is in progress. -/
def Domain.busy (x : Domain) : Bool := x.gatePending || x.waking || x.step.isSome

/-- The request word breaks R209. -/
def powerBad (w : Nat) : Bool := bits w 31 11 != 0 || bits w 7 3 != 0 || decide (6 ≤ bits w 10 8)

/-- The ARG of a request is within its kind's ranges (R209). -/
def argOk (kind a : Nat) : Bool :=
  match kind with
  | 2 => decide (bits a 4 0 ≤ 24) && decide (bits a 11 8 ≤ 10) && bits a 7 5 == 0 && bits a 31 12 == 0
  | 3 =>
    decide (bits a 12 8 ≤ bits a 20 16) && decide (bits a 20 16 ≤ 24) && bits a 7 1 == 0 && bits a 15 13 == 0 &&
      bits a 31 21 == 0
  | 4 => decide (1 ≤ a) && decide (a ≤ 64)
  | _ => decide (a = 0)

/-- GATE: granted at once where its conditions hold, else left pending (R65). -/
def State.gate (s : State) (d : Nat) : State × Nat :=
  let x := s.domain d
  if x.gated && !x.waking then (s, 0)
  else
    let s := s.setDomain d { x with gatePending := true }
    if x.waking || s.domainResident d || s.domainSpine d then (s, 1)
    else
      match execGateGrant d s with
      | .next t => (t, 0)
      | _ => (s, 1)

/-- WAKE: completes 10 us later (R65); a gate that is pending is withdrawn. -/
def State.wake (s : State) (d : Nat) : State × Nat :=
  let x := s.domain d
  if !x.gated then ((s.setDomain d { x with gatePending := false }).pokeQueues.pokeGatherer, 0)
  else if x.waking then (s.setDomain d { x with gatePending := false }, 1)
  else ((s.setDomain d { x with waking := true }).post (10 * Config.usCycles) (.domainWakeComplete d), 1)

/-- A request for point `p`: while the thermal clamp holds it goes no higher than the clamped point, to which the domain has
fallen or is falling (R215). -/
def Domain.clampTo (x : Domain) (p : Nat) : Nat := if x.clamped then min p x.clampedPoint else p

/-- POINT: under the thermal clamp a raise is performed up to the clamped point only (R212, R215). -/
def State.point (s : State) (d p n : Nat) : State × Nat :=
  let x := s.domain d
  let q := x.clampTo p
  if s.belowFloor d p n || s.belowFloor d q n then (s, 3)
  else
    let s := (s.setDomain d { x with mode := none }).startChange d q n
    (s, if q ≠ p then 5 else if (s.domain d).step.isSome then 1 else 0)

/-- MODE: the domain first moves to the nearer bound of the range (R209). -/
def State.modeRequest (s : State) (d : Nat) (m : Bool × Nat × Nat) : State × Nat :=
  let x := s.domain d
  let (p, n) := x.step.getD (x.point, x.underv)
  let p' := if p < m.2.1 then m.2.1 else if m.2.2 < p then m.2.2 else p
  let q := x.clampTo p'
  if (p' ≠ p ∧ s.belowFloor d p' n) then (s, 3)
  else if x.step.isNone ∧ q = p then (s.setDomain d (x.setMode m), if q ≠ p' then 5 else 0)
  else ((s.setDomain d { x with mode := some m }).startChange d q n, if q ≠ p' then 5 else 1)

/-- The request of a word, performed for a context; answers the code (R208, R209). -/
def State.request (s : State) (c w : Nat) : State × Nat :=
  let d := bits w 2 0
  let kind := bits w 10 8
  let a := bits w 63 32
  if s.domainOwner d ≠ some c then (s, 2)
  else if argOk kind a = false then (s, 4)
  else match kind with
    | 0 => s.gate d
    | 1 => s.wake d
    | 2 => s.point d (bits a 4 0) (bits a 11 8)
    | 3 => s.modeRequest d (bits a 0 0 == 1, bits a 12 8, bits a 20 16)
    | 4 => (s.setDomain d { s.domain d with hold := a }, 0)
    | _ => (s, if (s.domain d).busy then 1 else 0)

/-- PWRREQ (R400). -/
def pwrreq (d a : Nat) (s : State) : Out :=
  withOperands s 4 [{ field := 0, kind := .s, reg := d, dst := true }, { field := 1, kind := .s, reg := a }]
    (if powerBad (s.sreg a).toNat then some (illegalOperand 0x64 1 a) else none) fun s =>
    let w := (s.sreg a).toNat
    let r := s.request s.g.ctx w
    r.1.putS d (r.1.powerWord (bits w 2 0) r.2)

/-- PWRREQ with kind GATE (R65). -/
def execPwrreqGate (d a : Nat) (s : State) : Out := pwrreq d a s
/-- PWRREQ with kind WAKE (R65). -/
def execPwrreqWake (d a : Nat) (s : State) : Out := pwrreq d a s
/-- PWRREQ with kind POINT (R212). -/
def execPwrreqPoint (d a : Nat) (s : State) : Out := pwrreq d a s
/-- PWRREQ with kind MODE (R209). -/
def execPwrreqMode (d a : Nat) (s : State) : Out := pwrreq d a s
/-- PWRREQ with kind HOLD (R211). -/
def execPwrreqHold (d a : Nat) (s : State) : Out := pwrreq d a s
/-- PWRREQ with kind QUERY (R210). -/
def execPwrreqQuery (d a : Nat) (s : State) : Out := pwrreq d a s

/-- A domain loses its owner: it is woken if gated, its mode ends, and it returns to its configured point (R208). -/
def State.disown (s : State) (d : Nat) : State :=
  let x := s.domain d
  let s := s.setDomain d { x with gatePending := false, auto := false, lo := 0, hi := 24, mode := none, hold := 8 }
  let s := (if x.gated then s.wake d else (s, 0)).1
  let p := s.config.fixed.getD d (24, 0)
  s.startChange d p.1 p.2

/-! ### Metering (R204 to R206) -/

/-- The end of a control interval for one group that used `e` nJ (R206). -/
def State.meterGroup (s : State) (g e : Nat) : State :=
  let x := s.group g
  if 8 * e ≤ 9 * x.ep.energy then s.setGroup g { x with overruns := 0 }
  else
    let n := x.overruns + 1
    let s := s.setGroup g { x with overruns := if n = 256 then 0 else n, admission := x.admission || decide (n = 256) }
    if n = 16 then (s.setCtx x.ctx { s.ctx x.ctx with overruns := (s.ctx x.ctx).overruns + 1 }).charge x.ctx 0x0D 1 else s

/-- CONTROL_INTERVAL_BOUNDARY: the metered energy of each group of a cluster, from its activity counters (an input, log 13); a
cluster that was stopped issues again, and budgets are checked again. -/
def execControlIntervalBoundary (cl : Nat) (metered : List (Nat × Nat)) (s : State) : Out :=
  let gs := (s.groups.rows.filter fun p => p.2.phase.holds && clusterOf p.2.core == cl).map (·.1)
  let used := fun (g : Nat) => sumNat ((metered.filter fun m => m.1 == g).map (·.2))
  let s := gs.foldl (fun s g => s.meterGroup g (used g)) s
  .next ((s.setCluster cl { s.cluster cl with stopped := false }).pokeQueue cl)

/-- The energy budget of a cluster (R204): the whole budget of the partition that holds it, or the configuration block's. -/
def State.clusterBudget (s : State) (cl : Nat) : Nat :=
  match s.ctxs.vals.find? fun x => x.depth == 1 && (x.energy.get? cl).isSome with
  | some x => x.energy.getD cl 0
  | none => s.config.budgetE

/-- The energy metered of a cluster's groups in the interval so far (R205). -/
def State.meteredSum (s : State) (cl : Nat) : Nat :=
  sumNat (((s.groups.rows.filter fun p => p.2.phase.holds && clusterOf p.2.core == cl).map (·.1)).map fun g =>
    Config.meteredEnergy g s.now)

/-- ENERGY_BUDGET_EXHAUSTED: once the energy metered in the interval so far reaches the cluster's budget, the cluster issues
nothing for the rest of the interval (R205). -/
def execEnergyBudgetExhausted (cl : Nat) (s : State) : Out :=
  if s.clusterBudget cl ≤ s.meteredSum cl then .next (s.setCluster cl { s.cluster cl with stopped := true }) else .next s

/-! ### Droop (R211) -/

/-- DROOP_TRIP: the clock is halved until the detector has been clear for the hold time. -/
def execDroopTrip (cl : Nat) (s : State) : Out :=
  let s : State := { s with starts := s.starts.filter fun e => !(e.cluster == cl && e.droop) }
  let s := s.setCluster cl { s.cluster cl with halved := true, slowed := true }
  .next ((s.unpost (.droopHoldExpiry cl)).post ((s.domain (domainOf cl)).hold * 500) (.droopHoldExpiry cl))

/-- DROOP_HOLD_EXPIRY: the return to the full clock is a start event (R217). -/
def execDroopHoldExpiry (cl : Nat) (s : State) : Out :=
  if (s.cluster cl).halved then
    .next (({ s with starts := s.starts ++ [{ cluster := cl, droop := true }] } : State).postOnce 0 .startEventAdmission)
  else .next s

/-! ### Governor and thermal clamp (R214, R215) -/

/-- GOVERNOR_SAMPLE: in auto mode the stalled cycles of the last 10 us, of 20,000, move the point by one index within the mode's
range: down from 0.60 of them on, up to 0.25 of them (R214). -/
def execGovernorSample (d stalled : Nat) (s : State) : Out :=
  let x := s.domain d
  if !x.auto || x.step.isSome then .next s
  else if 12000 ≤ stalled ∧ x.lo < x.point then
    let p := min (x.point - 1) x.hi
    .next (if s.belowFloor d p x.underv then s else s.startChange d p x.underv)
  else if stalled ≤ 5000 ∧ x.point < x.hi ∧ x.clamped = false then
    let p := max (x.point + 1) x.lo
    .next (if s.belowFloor d p x.underv then s else s.startChange d p x.underv)
  else .next s

/-- THERMAL_CLAMP_STEP: a sample of the junction sensor, in degrees (an input, log 13). Above 105 the clamp takes hold; while it
holds the point falls by one index at each sample, until the sensor reads 100 or less. -/
def execThermalClampStep (d temp : Nat) (s : State) : Out :=
  let x := s.domain d
  let on := decide (105 < temp) || (x.clamped && decide (100 < temp))
  let (p, n) := x.step.getD (x.point, x.underv)
  let s := s.setDomain d { x with clamped := on, clampedPoint := if on then p - 1 else x.clampedPoint }
  .next (if on && decide (p - 1 < (x.target.getD (p, n)).1) then s.startChange d (p - 1) n else s)

/-! ### Staggered start (R216 to R218) -/

/-- CLUSTER_CLOCK_GATE: a cluster gates its clock 64 cycles after it last had a ready wave, which State.watchClock notes, or an
engine operation in progress. -/
def execClusterClockGate (cl : Nat) (s : State) : Out :=
  let x := s.cluster cl
  if s.enginesBusy cl || x.gated || decide (s.now < x.busyAt + 64) then .next s
  else .next (s.setCluster cl { x with gated := true })

/-- The waves of a cluster that wait, not parked, at the `k`-th barrier of a launch depart; their departure acquires the
launch-barrier object (R128, R218). -/
def State.departLaunch (s : State) (cl l k : Nat) : State :=
  let ks := (s.launchWaves l).filter fun j =>
    let g := s.group (s.wave j).group
    g.phase == .resident && clusterOf g.core == cl && (s.wave j).phase == .lbar k none
  ks.foldl (fun s j =>
    let g := s.group (s.wave j).group
    (s.setWave j (s.wave j).depart).acquireOn g.core g.ctx kindLaunch 0 []) s

/-- What an admitted start event does. -/
def State.start (s : State) (e : StartEvent) : State :=
  let s := s.setCluster e.cluster { s.cluster e.cluster with gated := false, busyAt := s.now }
  let s := if e.droop then s.setCluster e.cluster { s.cluster e.cluster with halved := false } else s
  let s := match e.group with
    | some g => s.departRestored g
    | none => s
  match e.barrier with
  | some (l, k) => s.departLaunch e.cluster l k
  | none => s

/-- START_EVENT_ADMISSION: fewer than 8 in 100 ns, and one per 0.5 ns, in the order in which they were raised (R217). -/
def execStartEventAdmission (s : State) : Out :=
  match s.starts with
  | [] => .next s
  | e :: rest =>
    let recent := s.admitted.filter fun t => decide (s.now < t + 200)
    if recent.contains s.now then .next (s.postOnce 1 .startEventAdmission)
    else if 8 ≤ recent.length then
      .next (s.postOnce (recent.foldr min s.now + 200 - s.now) .startEventAdmission)
    else
      let s := ({ s with starts := rest, admitted := recent ++ [s.now] } : State).start e
      .next (if rest.isEmpty then s else s.postOnce 1 .startEventAdmission)

/-! ### Bandwidth shares (R219 to R221) -/

/-- The nominal bytes that a stack delivers in an interval (R219). -/
def nominalBytes : Nat := 3276800
/-- The bytes that a stack delivers in an interval in a thermal state (R220). -/
def stackBytesIn : Nat → Nat
  | 0 => 3276800
  | 1 => 3014656
  | _ => 1966080

/-- The rest of an interval is split equally among the contexts that still have demand; the excess is split again (R219), in
whole bytes (log 65). -/
def splitRest : Nat → Nat → List (Nat × Nat × Nat) → List (Nat × Nat × Nat)
  | 0, _, l => l
  | n + 1, rest, l =>
    let k := countIf (fun p => decide (p.2.1 ≠ 0)) l
    let each := if k = 0 then 0 else rest / k
    if each = 0 then l
    else
      let l' := l.map fun p => (p.1, p.2.1 - min each p.2.1, p.2.2 + min each p.2.1)
      splitRest n (rest - sumNat (l.map fun p => min each p.2.1)) l'

/-- The bytes served and unserved: context, unserved, served (R219), of `bytes` bytes in an interval that delivers `base` in
all; the entries give a context, its share and its demand. -/
def serveWithin (base bytes : Nat) (l : List (Nat × Nat × Nat)) : List (Nat × Nat × Nat) :=
  let first := l.map fun p =>
    let x := min p.2.2 (p.2.1 * base / 256)
    (p.1, p.2.2 - x, x)
  splitRest (l.length + 1) (bytes - sumNat (first.map fun p => p.2.2)) first

/-- The next thermal state of a stack: each shift on the way down leaves a hysteresis of 3 degrees (R220). -/
def stackState (old temp : Nat) : Nat :=
  if 95 < temp ∨ (old = 2 ∧ 92 < temp) then 2
  else if 85 < temp ∨ (1 ≤ old ∧ 82 < temp) then 1
  else 0

/-- A shortfall is counted; the event goes to the front end if it is armed, at most once per ms (R221). -/
def State.shortBy (s : State) (c n : Nat) : State :=
  let x := s.ctx c
  if n = 0 then s
  else
    let s := s.setCtx c { x with shortfall := x.shortfall + BitVec.ofNat 64 n }
    if x.shortArmed && x.shortAt.all fun t => decide (t + 1000 * Config.usCycles ≤ s.now) then
      (s.setCtx c { s.ctx c with shortArmed := false, shortAt := some s.now }).notice c
        { ctx := c, tcause := bits (Config.shortfallWord s.now 0).toNat 31 0, tepc := bits (Config.shortfallWord s.now 0).toNat 63 32
          taddr := Config.shortfallWord s.now 1, tinfo := Config.shortfallWord s.now 2
          gid := bits (Config.shortfallWord s.now 3).toNat 31 0, word2c := bits (Config.shortfallWord s.now 3).toNat 63 32 }
    else s

/-- The demand of a context on a stack: new bytes, and those passed on from the last interval. -/
def State.bandDemand (s : State) (stack : Nat) (demands : List (Nat × Nat)) (c : Nat) : Nat :=
  sumNat ((demands.filter fun d => d.1 == c).map (·.2)) + (s.ctx c).carry.getD stack 0

/-- The demand of a context and its descendants. -/
def State.treeDemand (s : State) (stack : Nat) (demands : List (Nat × Nat)) (c : Nat) : Nat :=
  sumNat ((s.descendants c).map (s.bandDemand stack demands))

/-- The part of a context's share that its own requests have: what its children's shares leave (R219). -/
def State.ownShare (s : State) (c : Nat) : Nat := (s.ctx c).share - sumNat ((s.children c).map fun d => (s.ctx d).share)

/-- What is left unserved of a context that was served `bytes` with all its descendants: within it, each child and its own
requests are served by the three steps of R219, with the parts of its share (log 65); a context counts as throttled where a request of
it or of a descendant is passed on. `base`: the deliverable bytes of the interval. -/
def State.serveTree (stack base : Nat) (demands : List (Nat × Nat)) : Nat → State → Nat × Nat → State
  | 0, s, _ => s
  | fuel + 1, s, (c, bytes) =>
    let x := s.ctx c
    let cs := s.children c
    let own := s.bandDemand stack demands c
    let part := serveWithin base bytes ((c, s.ownShare c, own) :: cs.map fun d => (d, (s.ctx d).share, s.treeDemand stack demands d))
    let left := ((part.find? fun p => p.1 == c).map fun p => p.2.1).getD 0
    let s := s.setCtx c { x with
      carry := x.carry.set stack left, throttled := x.throttled || part.any fun p => decide (p.2.1 ≠ 0) }
    (part.filter fun p => p.1 != c).foldl (fun s p => State.serveTree stack base demands fuel s (p.1, p.2.2)) s

/-- BANDWIDTH_INTERVAL: the memory controllers of a stack serve the demands of an interval (inputs, with the temperature: log
13), and the stack's thermal state for the next is set (R219 to R221). -/
def execBandwidthInterval (stack temp : Nat) (demands : List (Nat × Nat)) (s : State) : Out :=
  let base := stackBytesIn (s.hbmStacks.getD stack 0)
  let cs := (s.ctxs.rows.filter fun p => p.2.depth == 1).map (·.1)
  let served := serveWithin base base (cs.map fun c => (c, (s.ctx c).share, s.treeDemand stack demands c))
  let s := served.foldl (fun t p =>
    let short := min (s.treeDemand stack demands p.1) ((s.ctx p.1).share * nominalBytes / 256) - p.2.2
    (State.serveTree stack base demands 9 t (p.1, p.2.2)).shortBy p.1 short) s
  .next { s with hbmStacks := s.hbmStacks.set stack (stackState (s.hbmStacks.getD stack 0) temp) }

end Sys2Proof.Machine
end

