-- ==== Sys2Proof/Machine/FrontEnds.lean ====
section
/-!
DEFINITION. The command front ends (R225, R435 to R439): the settings the host writes, enabling and disabling a partition,
the submission ring, and verdicts from the host.
-/

namespace Sys2Proof.Machine

/-- First and last cluster of a front end's range word (R436). -/
def FrontEnd.first (x : FrontEnd) : Nat := bits x.range.toNat 7 0
/-- Last cluster of the range. -/
def FrontEnd.last (x : FrontEnd) : Nat := bits x.range.toNat 15 8
/-- Share g of the range word. -/
def FrontEnd.g (x : FrontEnd) : Nat := bits x.range.toNat 40 32

/-- The 128 bytes of the partition settings: the layout of a context descriptor (R225, R436). -/
def FrontEnd.descriptor (x : FrontEnd) : List Byte := memReadN x.settings 0 128

/-- Enabling front end `f` fails (R225): its range is no range or overlaps an enabled one, the shares exceed 256, or its
descriptor breaks R228. -/
def State.enableFails (s : State) (f : Nat) : Bool :=
  let x := s.frontEnd f
  let others := (s.frontEnds.rows.filter fun p => p.1 != f && p.2.enable).map (·.2)
  decide (x.last < x.first) || decide (95 < x.last) ||
    (others.any fun y => decide (x.first ≤ y.last) && decide (y.first ≤ x.last)) ||
    decide (256 < x.g + sumNat (others.map (·.g))) || descBad x.descriptor none

/-- The depth-1 context of a front end (R225, R226). -/
def State.partitionOf (s : State) (f : Nat) : Context :=
  let x := s.frontEnd f
  let cl := (List.range (x.last + 1)).filter fun c => decide (x.first ≤ c)
  let nj := bits x.budgets.toNat 15 0
  let ma := bits x.budgets.toNat 31 16
  { contextOf x.descriptor 1 none 500 with
    span := some (x.first, x.last)
    cores := ((cl.flatMap fun c => (List.range 4).map (4 * c + ·)).filter fun k => !(s.core k).retired).map fun k => (k, false)
    energy := ⟨cl.map fun c => (c, if nj = 0 then s.config.budgetE else nj)⟩
    ipeak := ⟨cl.map fun c => (c, if ma = 0 then s.config.budgetI else ma)⟩
    share := x.g, colours := BitVec.ofNat 16 (bits x.range.toNat 31 16), qmem := (bits x.quota.toNat 31 0) * 2 ^ 16
    bindCount := 256 }

/-- FE_ENABLE: ENABLE is written 1 (R225, R436). A partition that is still being ended is waited for. -/
def execFeEnable (f : Nat) (s : State) : Out :=
  let x := s.frontEnd f
  if !s.up || decide (16 ≤ f) || x.enable then .next s
  else if (s.ctxs.get? f).isSome then .next (s.postOnce Config.usCycles (.feEnable f))
  else if s.enableFails f then .next (s.setFrontEnd f { x with status := 2 })
  else
    let s := s.setCtx f (s.partitionOf f)
    let s := s.setFrontEnd f { x with enable := true, status := 1, events := 0, stalled := false }
    .next (if x.consumed.toNat < x.produced.toNat then s.postOnce 1 (.feSubmissionEntry f) else s)

/-- The end of a partition whose groups are gone and whose launches have ended: its contexts are erased, its cores' Spine
entries dropped, its domains lose their owner (R208, R436). -/
def State.endPartition (s : State) (f : Nat) : State :=
  let cores := (s.ctx f).cores.map (·.1)
  let ds := s.descendants f
  let doms := (List.range 8).filter fun d => s.grantsDomain d f
  let s := s.eraseContexts ds
  let s := cores.foldl (fun s k => if (s.core k).spine.entries.isEmpty then s else s.setSpine k {}) s
  (doms.foldl (fun s d => s.disown d) s).pokeQueues

/-- The completion words that a front end owes since its ring error are written, with their interrupts, when it is disabled, in the
order in which the launches ended (R438, R439, log 66). -/
def State.payOwed (s : State) (f : Nat) : State :=
  let s' := (s.frontEnd f).owes.foldl (fun s l =>
    let x := s.launch l
    match x.owed with
    | some w => (s.setLaunch l { x with owed := none }).complete l w
    | none => s) s
  s'.setFrontEnd f { s'.frontEnd f with owes := [] }

/-- FE_DISABLE: ENABLE is written 0: every launch of the partition ends as KILLED, its groups end, and then the partition is
gone (R436, R439). -/
def execFeDisable (f : Nat) (s : State) : Out :=
  let x := s.frontEnd f
  if !s.up || (s.ctxs.get? f).isNone then .next s
  else
    let s := (s.setFrontEnd f { x with enable := false, status := 0, stalled := false }).payOwed f
    let ds := s.descendants f
    let s := (s.groupsIn ds GroupPhase.holds).foldl (fun s g => s.endGroup g) (s.killContexts ds)
    let open' := (s.groupsIn ds fun p => p != .ended) ++ ((s.launches.rows.filter fun p => ds.contains p.2.ctx && !p.2.ended).map (·.1))
    .next (if open'.isEmpty then s.endPartition f else s.postOnce Config.usCycles (.feDisable f))

/-- FE_PRODUCER_COUNT_WRITE (R436, R438). -/
def execFeProducerCountWrite (f : Nat) (count : DWord) (s : State) : Out :=
  if !s.up || decide (16 ≤ f) then .next s
  else
    let x := s.frontEnd f
    let s := s.setFrontEnd f { x with produced := count }
    .next (if x.enable then s.postOnce 1 (.feSubmissionEntry f) else s)

/-- An entry that starts no launch: its completion word and interrupt (R438, R439). -/
def State.refuseEntry (s : State) (f : Nat) (e : List Byte) (seq : Nat) : State :=
  let s := s.writeCompletion (some f) f (numAt e 8 8) (completionWord seq 0 3)
  let v := BitVec.ofNat 32 (numAt e 0x10 4)
  if v = 0xFFFFFFFF then s
  else
    let l := s.nextLaunch
    let s : State := { s with nextLaunch := l + 1 }
    (s.setLaunch l { ctx := f, frontEnd := some f, vector := v, ended := true, interrupt := true }).post 1 (.completionInterrupt l)

/-- The front end has taken an entry; the next one follows. -/
def State.consume (s : State) (f : Nat) : State :=
  let x := s.frontEnd f
  (s.setFrontEnd f { x with consumed := x.consumed + 1, stalled := false }).postOnce 1 (.feSubmissionEntry f)

/-- FE_SUBMISSION_ENTRY: the front end reads its next entry (R437, R438). -/
def execFeSubmissionEntry (f : Nat) (s : State) : Out :=
  let x := s.frontEnd f
  let ahead := x.produced.toNat - x.consumed.toNat
  let capacity := 16 * 2 ^ bits x.ringSize.toNat 3 0
  if !x.enable || x.status ≠ 1 || ahead = 0 then .next s
  else if capacity < ahead then .next (s.setFrontEnd f { x with status := 3 })
  else
    let a := x.ringBase.toNat + 64 * (x.consumed.toNat % capacity)
    let e := memReadN (memFrom s.host a) a 64
    let seq := x.consumed.toNat
    match s.startLaunch f e (some f) seq with
    | .launch s' => .next (s'.consume f)
    | .badEntry => .next ((s.refuseEntry f e seq).consume f)
    | .tooBig => .next ((s.refuseEntry f e seq).consume f)
    | .fault m => .next (((s.deviceFault f m false).refuseEntry f e seq).consume f)
    | .noRoom => .next (s.setFrontEnd f { x with stalled := true })

/-- FE_VERDICT_WRITE: a verdict by the host as the owner of the front end's ring (R240, R436). -/
def execFeVerdictWrite (f : Nat) (word : DWord) (s : State) : Out :=
  let x := s.frontEnd f
  let v := bits word.toNat 33 32
  if !s.up || decide (16 ≤ f) then .next s
  else if bits word.toNat 63 34 ≠ 0 ∨ v = 3 then .next (s.setFrontEnd f { x with verdict := 0x60 })
  else
    let n := bits word.toNat 31 0
    match s.ticketWave n with
    | none => .next (s.setFrontEnd f { x with verdict := 6 })
    | some t =>
      if t.frontEnd && t.ring = f then .next ((s.setFrontEnd f { x with verdict := 0 }).giveVerdict n t v)
      else .next (s.setFrontEnd f { x with verdict := 6 })

/-- FE_SETTINGS_WRITE: the host writes a 64-bit setting; the settings, the range, the budgets and the quota only while the
front end is disabled; read-only and absent offsets take nothing (R436). Reserved bits of the other registers are not kept (R6);
those of the settings make the enable fail (R228) and read as zero (log 66). -/
def execFeSettingsWrite (f off : Nat) (word : DWord) (s : State) : Out :=
  let x := s.frontEnd f
  if !s.up || decide (16 ≤ f) then .next s
  else if off = 0xA0 then .next (s.setFrontEnd f { x with ringBase := word })
  else if off = 0xA8 then .next (s.setFrontEnd f { x with ringSize := word &&& 0xF })
  else if off = 0xC0 then .next (s.setFrontEnd f { x with interrupt := word })
  else if x.enable then .next s
  else if off < 0x80 ∧ off % 8 = 0 then .next (s.setFrontEnd f { x with settings := memWriteN x.settings off (leBytes 8 word.toNat) })
  else if off = 0x80 then .next (s.setFrontEnd f { x with range := word &&& 0x1FFFFFFFFFF })
  else if off = 0x88 then .next (s.setFrontEnd f { x with budgets := word &&& 0xFFFFFFFF })
  else if off = 0xC8 then .next (s.setFrontEnd f { x with quota := word &&& 0xFFFFFFFF })
  else .next s

/-! ### The page as the host reads it (R436) -/

/-- The offset of a front end's page in the register aperture. -/
def fePage (f : Nat) : Nat := 0x10000 + 0x1000 * f

/-- The bits of the settings word at an offset that are no reserved field (R18, R228, R436). -/
def settingsBits (off : Nat) : DWord :=
  match off with
  | 0x00 => 0x0003FFFFFFFFF000
  | 0x08 => 0x0000FFFFFFFF000F
  | 0x10 => 0x000003FF00003FFF
  | 0x18 => 0x0000FFFFFFFFFF01
  | 0x20 => 0x0000FFFFFFFFFFFF
  | 0x28 => 0x0000FFFFFFFFFFFF
  | 0x30 => 0x0000FFFFFFFFFFFF
  | 0x38 => 0xFFFFFFFFFFFF1F00
  | 0x40 => 0xFFFFFFFF00000000
  | _ => 0

/-- The 64-bit word at an offset of a front end's page, for a read by the host; none at an absent offset, and at the
write-only one. -/
def FrontEnd.pageWord (x : FrontEnd) (off : Nat) : Option DWord :=
  if off % 8 ≠ 0 then none
  else if off < 0x80 then some (BitVec.ofNat 64 (leNat (memReadN x.settings off 8)) &&& settingsBits off)
  else if 0x100 ≤ off ∧ off < 0x140 then some (BitVec.ofNat 64 (leNat ((x.event.bytes.drop (off - 0x100)).take 8)))
  else match off with
    | 0x80 => some x.range
    | 0x88 => some x.budgets
    | 0x90 => some (BitVec.ofNat 64 x.enable.toNat)
    | 0x98 => some (BitVec.ofNat 64 x.status)
    | 0xA0 => some x.ringBase
    | 0xA8 => some x.ringSize
    | 0xB0 => some x.produced
    | 0xB8 => some x.consumed
    | 0xC0 => some x.interrupt
    | 0xC8 => some x.quota
    | 0xD8 => some (BitVec.ofNat 64 x.verdict)
    | 0x140 => some (BitVec.ofNat 64 x.events)
    | _ => none

end Sys2Proof.Machine
end

