-- ==== Sys2Proof/Machine/Health.lean ====
section
/-!
DEFINITION. Bring-up, attestation, ageing and self-tests (R441 to R445), the ends of leases in the TLB and the L1 (R27, R28),
drowsy banks (R61), and the start of a quantum (R169).
-/

namespace Sys2Proof.Machine

/-! ### Bring-up and attestation (R441, R442) -/

/-- The valid configuration block of higher version, of the copies in flash; a version below the firmware's minimum is invalid
(R441). Of two copies of one version it is the first (log 7). -/
def State.bestBlock (s : State) : Option PackageConfig :=
  (s.flash.filter fun x => x.valid && decide (s.firmware.minVersion ≤ x.block.version)).foldl (fun b x =>
    match b with
    | some y => if y.version < x.block.version then some x.block else b
    | none => some x.block) none

/-- The clusters that fail their self-tests at bring-up are retired (R442). -/
def State.bootTests (s : State) : State :=
  ((List.range 96).filter fun c => !Config.bootTestPasses c).foldl (fun s c =>
    (List.range 4).foldl (fun s i => s.setCore (4 * c + i) { s.core (4 * c + i) with retired := true }) s) s

/-- The voltage domains, which have no owner at bring-up, take the point and the undervolt that the configuration block fixes for
them (R208). -/
def State.fixDomains (s : State) : State :=
  s.config.fixed.rows.foldl (fun s p =>
    if p.1 < 8 then s.setDomain p.1 { s.domain p.1 with point := p.2.1, underv := p.2.2 } else s) s

/-- POWER_ON_BRINGUP: the firmware and the configuration block are verified, and bring-up stops where one is not valid; the
units start in order, each cluster after its self-tests; then the front-end pages are accessible (R441, R442). The spacing of
the steps is not modelled (log 3). -/
def execPowerOnBringup (s : State) : Out :=
  if s.firmware.valid then
    match s.bestBlock with
    | some b => .next { (({ s with config := b } : State).fixDomains).bootTests with up := true }
    | none => .next s
  else .next s

/-- All the fields of a configuration block, in order; a list has its length first. -/
def PackageConfig.fields (b : PackageConfig) : List Nat :=
  [b.version, b.package, b.budgetE, b.budgetI, b.remoteColours.toNat, b.domain.length] ++ b.domain ++ [b.floors.rows.length] ++
    (b.floors.rows.flatMap fun p => [p.1, p.2]) ++ b.fixed.rows.flatMap fun p => [p.1, p.2.1, p.2.2]

/-- ATTESTATION_REQUEST: the report for a nonce, with its signature over all of it (R441). -/
def execAttestationRequest (nonce : BitVec 256) (s : State) : Out :=
  let boot := Config.bootDigest 0
  let firmware := Config.bootDigest 1
  let config := Config.configDigest s.config.fields
  let r : Report :=
    { nonce := nonce, package := s.config.package, boot := boot, firmware := firmware, config := config
      signature := Config.attestSignature nonce s.config.package [boot, firmware, config] }
  if s.up then .next { s with report := some r } else .next s

/-! ### Health (R443 to R445) -/

/-- AGEING_MONITOR_UPDATE: the predicted hours and the guard band of a cluster (R443), inputs from its monitors (log 13). -/
def execAgeingMonitorUpdate (cl hours guard : Nat) (s : State) : Out :=
  .next (s.setCluster cl { s.cluster cl with eol := BitVec.ofNat 32 (min hours 0xFFFFFFFF), guard := min guard 255 })

/-- The cores that a unit of R241 or R444 takes out of use: one core, or the four of a cluster (unit 11). -/
def unitCores (unit loc : Nat) : List Nat :=
  if unit = 11 then (List.range 4).map (4 * loc + ·)
  else if unit = 7 ∨ unit = 8 then []
  else [loc]

/-- The contexts with groups on a core. -/
def State.contextsOn (s : State) (core : Nat) : List Nat := ((s.resident core).map fun g => (s.group g).ctx).eraseDups

/-- A core is taken out of use: its groups are stopped as at slice end (R444). -/
def State.testCore (s : State) (core : Nat) : State :=
  let s := s.setCore core { s.core core with testing := true }
  (s.contextsOn core).foldl (fun s c => s.leaveCore c core false) s

/-- SELF_TEST_START (R444): the unit is taken out of use; errors that arrive during a test add nothing. How long the test lasts
and whether the unit passes are free values (log 19). The data of an HBM row stays, moved (log 90). -/
def execSelfTestStart (unit loc : Nat) (s : State) : Out :=
  let cores := (unitCores unit loc).filter fun k => !(s.core k).testing && !(s.core k).retired
  let v := s.rows.getD loc 0
  if (unit = 7 ∧ s.slices.getD loc 0 ≠ 0) ∨ (unit = 8 ∧ v % 2 = 1) ∨ (unit ≠ 7 ∧ unit ≠ 8 ∧ cores.isEmpty) then .next s
  else
    let s := if unit = 7 then
        { s with slices := s.slices.set loc 1, msc := ⟨s.msc.rows.filter fun p => p.1 / 2048 != loc⟩ }
      else if unit = 8 then { s with rows := s.rows.set loc (v + 1) }
      else cores.foldl (fun s k => s.testCore k) s
    .next (s.post (Config.selfTestTime s.now) (.selfTestComplete unit loc (Config.selfTestPasses s.now)))

/-- A transient error is counted in the word of a cluster (R443). -/
def State.countTransient (s : State) (cl : Nat) : State :=
  s.setCluster cl { s.cluster cl with trans := min 255 ((s.cluster cl).trans + 1) }

/-- A core is retired: it leaves every grant, and with it its turns (R444). -/
def State.retireCore (s : State) (core : Nat) : State :=
  let s := s.ctxs.keys.foldl (fun s c =>
    let x := s.ctx c
    s.setCtx c { x with cores := x.cores.filter fun p => p.1 != core }) s
  let s := s.setCore core { s.core core with testing := false, retired := true, turns := ⟨[]⟩, turnEnds := ⟨[]⟩ }
  s.regranted (clusterOf core)

/-- A retirement is reported to every context that held the unit, through its ring, and recorded by the partition's front
end (R445). -/
def State.reportRetired (s : State) (holders : List Nat) (unit : Nat) : State :=
  holders.foldl (fun s c =>
    let e : RingEntry :=
      { ctx := c, tcause := 0x0B, tinfo := BitVec.ofNat 64 (2 ^ 32 + 2 ^ 24 * unit), word2c := 2 ^ 16 * (s.ctx c).depth }
    let ring := s.ringOf (s.chain c)
    let s := s.toRing ring (s.partition c) e
    if ring.isSome && (s.ctx c).depth == 1 then s.notice c e else s) s

/-- SELF_TEST_COMPLETE (R444): a unit that passes counts a transient error and returns to use; a unit that fails is retired: a
slice is bypassed, an HBM row is replaced from the stack's spares. A core's test ends after its groups have stopped (log 68),
and the error of a slice or a row is counted in the cluster that met it (log 90). -/
def execSelfTestComplete (unit loc : Nat) (pass : Bool) (s : State) : Out :=
  if unit = 7 then
    if s.slices.getD loc 0 ≠ 1 then .next s
    else if pass then .next (({ s with slices := s.slices.erase loc } : State).countTransient (s.metIn.getD (2 * loc) 0))
    else .next { s with slices := s.slices.set loc 2 }
  else if unit = 8 then
    let v := s.rows.getD loc 0
    if v % 2 = 0 then .next s
    else if pass then .next (({ s with rows := s.rows.set loc (v - 1) } : State).countTransient (s.metIn.getD (2 * loc + 1) 0))
    else .next { s with rows := s.rows.set loc 2 }
  else
    let cores := (unitCores unit loc).filter fun k => (s.core k).testing
    if cores.isEmpty then .next s
    else if cores.any fun k => !(s.resident k).isEmpty || !(s.core k).leaving.isEmpty then
      .next (s.postOnce Config.usCycles (.selfTestComplete unit loc pass))
    else if pass then
      let s := cores.foldl (fun s k => s.setCore k { s.core k with testing := false }) s
      .next ((((s.countTransient (clusterOf (cores.headD 0))).pokePairs).pokeQueues).pokeGatherer)
    else
      let holders := s.ctxs.keys.filter fun c => cores.any (s.granted c)
      let s := cores.foldl (fun s k => s.retireCore k) s
      .next (s.reportRetired holders (if unit = 11 then 11 else 12))

/-- The word of cluster `c` in the health page, at 8c (R443). -/
def State.healthWord (s : State) (c : Nat) : DWord :=
  let x := s.cluster c
  let retired := sumNat ((List.range 4).map fun k => 2 ^ (52 + k) * (s.core (4 * c + k)).retired.toNat)
  BitVec.ofNat 64 (retired + 2 ^ 40 * (x.guard % 256) + 2 ^ 32 * (x.trans % 256) + x.eol.toNat)

/-- The word that the host reads at an offset of the register aperture: of the health page at 0x0, or of a front end's page at
0x1_0000 + 0x1000 f, once the pages are accessible (R436, R442, R443). -/
def State.hostRead (s : State) (a : Nat) : Option DWord :=
  if !s.up then none
  else if a < 8 * 96 then (if a % 8 = 0 then some (s.healthWord (a / 8)) else none)
  else if fePage 0 ≤ a ∧ a < fePage 16 then (s.frontEnd ((a - fePage 0) / 0x1000)).pageWord ((a - fePage 0) % 0x1000)
  else none

/-! ### Leases (R27, R28) -/

/-- MAPPING_LEASE_EXPIRY: a core, its cluster and the walkers discard the mappings that come to within a microsecond of their
expiry (R27). -/
def execMappingLeaseExpiry (core : Nat) (s : State) : Out :=
  let live := fun (m : Mapping) => decide (s.now + Config.usCycles < m.exp)
  let k := s.core core
  let left := k.tlb.filter live
  let x := s.cluster (clusterOf core)
  let s := s.setCore core { k with tlb := left }
  let s := s.setCluster (clusterOf core) { x with tlb := x.tlb.filter live }
  let s : State := { s with walkers := ⟨s.walkers.rows.map fun p => (p.1, p.2.filter live)⟩ }
  match left with
  | [] => .next s
  | m :: ms => .next (s.postOnce (ms.foldl (fun t m => min t m.exp) m.exp - Config.usCycles - s.now) (.mappingLeaseExpiry core))

/-- L1_LEASE_WRITEBACK: a dirty line is written back a microsecond before the earliest expiry of its dirty bytes (R28). -/
def execL1LeaseWriteback (core line : Nat) (s : State) : Out :=
  let due := fun (l : L1Line) => l.line == line && decide (l.exp ≤ s.now + Config.usCycles)
  let s := (s.l1Clean core due).1
  match (s.core core).l1Find line with
  | some l => .next (if l.dirty = 0 then s else s.postOnce (l.exp - Config.usCycles - s.now) (.l1LeaseWriteback core line))
  | none => .next s

/-! ### Drowsy banks (R60, R61) -/

/-- A bank backs no materialised register, or only registers of waves stalled on a memory result (R61). -/
def State.bankIdle (s : State) (core bank : Nat) : Bool :=
  (s.wavesOn core).all fun k =>
    let w := s.wave k
    (w.waiting && w.loading) || !((List.range (8 * w.granules)).any fun r => r % 16 == bank && !w.isDemoted r)

/-- BANK_DROWSY_ENTRY (R61): timing and power only (log 10). -/
def execBankDrowsyEntry (core bank : Nat) (s : State) : Out :=
  if s.bankIdle core bank then .next (s.setCore core { s.core core with drowsy := setBit (s.core core).drowsy bank true })
  else .next s

/-- BANK_WAKE (R61). -/
def execBankWake (core bank : Nat) (s : State) : Out :=
  .next (s.setCore core { s.core core with drowsy := setBit (s.core core).drowsy bank false })

/-! ### Fairness (R169, R170) -/

/-- The wave's next issue begins a quantum (R169, R170); an instruction that waits has issued (R8). -/
def Wave.quantumReady (w : Wave) : Bool :=
  w.regen.isEmpty && w.stay.isNone && w.quantum.isNone && w.waitingLanes != 0 &&
    (w.quantumDue ||
      (w.ppoint.getLsbD 17 && w.backBranch && decide (bits w.ppoint.toNat 16 0 ≤ w.timer)))

/-- A quantum begins: its lanes are those at the lowest waiting PC, and the timer is reset. -/
def Wave.beginQuantum (w : Wave) : Wave :=
  let wait := w.waitingLanes
  let pc := (lanesIn wait).foldr (fun l n => min (lane w.duct l).toNat n) 0xFFFFFFFF
  { w with
    quantum := some (maskOf fun l => bit wait l && (lane w.duct l).toNat == pc, 0)
    timer := 0, backBranch := false, quantumDue := false }

/-- QUANTUM_START: of a wave whose fairness timer has run out, or that has yielded. -/
def execQuantumStart (k : Nat) (s : State) : Out :=
  if (s.wave k).quantumReady then .next (s.setWave k (s.wave k).beginQuantum) else .next s

end Sys2Proof.Machine
end

