-- ==== Sys2Proof/Machine/Fetch.lean ====
section
/-!
DEFINITION. Instruction fetch (R14, R255, R277, R360): the parcels of a wave's code through translation and the core's
instruction cache, and the instruction that they decode to (R273, R274).
-/

namespace Sys2Proof.Machine

/-- What a fetch of one parcel gives. -/
inductive Fetched where
  | parcel (b : List Byte)
  | fault (f : MemFault)
  /-- an uncorrectable word: its unit and slice (R241) -/
  | bad (unit slice : Nat)

/-- The generic address of an offset from a group's entry point (R164, R406). -/
def Group.codeAt (g : Group) (off : Nat) : Nat := g.ep.addr + 64 + off

/-- The unit and slice of an uncorrectable word of code (R241). -/
def State.badCode (s : State) (pa : Nat) : Option (Nat × Nat) :=
  if s.uncorr.any fun e => e.1 == 7 && e.2.2 == pa / 8 then some (7, homeSlice pa)
  else if s.uncorr.any fun e => e.1 == 8 && e.2.2 == pa / 8 then some (8, homeSlice pa)
  else none

/-- The parcel at a physical address as a core fetches it for a context: from home; where the instruction cache holds another,
either may be read (R360). A fetch into the instruction cache requests the line from the memory-side cache, once for the
parcels of a line (R253). -/
def State.cachedParcel (s : State) (core c pa : Nat) (home : Nat) : State × Nat :=
  let k := s.core core
  let fill := fun (s : State) => s.setCore core { s.core core with icache := k.icache.set pa home }
  match k.icache.get? pa with
  | some old => if old = home then (s, home) else if Config.oldParcel pa s.now then (s, old)
      else (fill (s.homeTouch c pa 128 false), home)
  | none => (fill (if k.icache.rows.any fun p => p.1 / 128 == pa / 128 then s else s.homeTouch c pa 128 false), home)

/-- Fetches the parcel at a generic address: the global window only, with the EX permission (R14). -/
def State.fetchParcel (s : State) (core c va : Nat) : State × Fetched :=
  if Config.stackBase ≤ va then (s, .fault (aperture rHole va))
  else
    match translate s core c va { fetch := true } with
    | (s, .error f) => (s, .fault f)
    | (s, .ok (pa, _)) =>
      if isHostPa pa then
        let a := pa % Config.packageSize - Config.hostBase
        (s, .parcel (memReadN (memFrom s.host a) a 2))
      else match s.badCode pa with
      | some u => (s, .bad u.1 u.2)
      | none =>
        let r := s.cachedParcel core c pa (leNat (memReadN (memFrom s.hbm pa) pa 2))
        (r.1, .parcel (leBytes 2 r.2))

/-- The bytes at an offset that the decoder needs: one parcel, or two where bit 0 of the first is set (R255). With a fault
come the offset of the failing parcel and the fault. -/
def State.fetchBytes (s : State) (g off : Nat) : State × Except (Nat × Fetched) (List Byte) :=
  let x := s.group g
  match s.fetchParcel x.core x.ctx (x.codeAt off) with
  | (s, .parcel b) =>
    if (b.headD 0).getLsbD 0 then
      match s.fetchParcel x.core x.ctx (x.codeAt (off + 2)) with
      | (s, .parcel b2) => (s, .ok (b ++ b2))
      | (s, f) => (s, .error (off + 2, f))
    else (s, .ok b)
  | (s, f) => (s, .error (off, f))

/-- The trap of a failed fetch at an offset, for lanes that issue at `pc`; SKIP passes what was fetched (R36, R240). -/
def fetchTrap (lane pc off addr : Nat) : Fetched → Trap
  | .fault f => { memTrap f { fetch := true } lane with len := off + 2 - pc }
  | .bad u k =>
    { cause := 0x0B, addr := BitVec.ofNat 64 addr, info := BitVec.ofNat 64 (u * 2 ^ 24 + k * 2 ^ 16), len := off + 2 - pc }
  | .parcel _ => { cause := 0x01 }

/-- TINFO of an ILLEGAL_INSTR: the parcel or word (R274). -/
def illegalInfo (b : List Byte) : DWord := BitVec.ofNat 64 (leNat b)

/-- ILLEGAL_INSTR (R234, R274), for an instruction of some bytes. -/
def illegalTrap (info : DWord) (len : Nat) : Trap := { cause := 0x01, info := info, len := len }

end Sys2Proof.Machine
end

