-- ==== Sys2Proof/Machine/System.lean ====
section
/-!
DEFINITION. Traps and their return (R236, R237, R395, R396), the control and status registers (R397 to R399), the XMOD
prefix (R266 to R269), and the faults of fetch and decode (R14, R273, R274).
-/

namespace Sys2Proof.Machine

/-! ### Control and status registers (R397, R398) -/

/-- The legacy decoders have no JORD: it reads 0 (R277). -/
def State.legacy (s : State) : Bool := decide (s.g.ep.gen < 3)

/-- The value of register `n` of the map (R398), DX apart. -/
def State.csr (s : State) (n : Nat) : DWord :=
  let w := s.w
  let g := s.g
  let c := s.ctx g.ctx
  match n with
  | 0x00 => if s.legacy then 0 else w.jord
  | 0x01 => w.jsr
  | 0x02 => w.fpctl
  | 0x03 => w.ppoint
  | 0x08 => w.tvec
  | 0x09 => w.tcause
  | 0x0A => w.tepc
  | 0x0B => w.taddr
  | 0x0C => w.tinfo
  | 0x10 => BitVec.ofNat 64 g.ctx
  | 0x11 => BitVec.ofNat 64 c.depth
  | 0x12 => BitVec.ofNat 64 c.lease
  | 0x14 => BitVec.ofNat 64 g.gid
  | 0x15 => BitVec.ofNat 64 w.wid
  | 0x16 => BitVec.ofNat 64 g.node
  | _ => c.pmc.getD (n - 0x20) 0

/-- CSRR of every register but DX (R397). -/
def execCsrr (d c : Nat) (s : State) : Out :=
  withOperands s 4 [{ field := 0, kind := .s, reg := d, dst := true }] none fun s => s.putS d (s.csr c)

/-- CSRR vd, DX (R166): every lane, from the interrupted Ductus; vd is full when the value arrives (R177). -/
def execCsrrDx (d : Nat) (s : State) : Out :=
  withOperands s 4 [{ field := 0, kind := .v, reg := d, dst := true }] none fun s =>
    let w := s.w
    let p : Pending := { tag := w.nextTag, vregs := [(d, w.dx)], lanes := 0xFFFFFFFF, dem := w.dem }
    let s := s.setW { (w.expect p) with nextTag := w.nextTag + 1, pending := w.pending ++ [p] }
    .next ((s.post 4 (.loadResultReturn s.cur p.tag)).finish 4)

/-- A write of `x` to register `n` is refused by the register's rules (R26, R70, R168, R235, R314, R315, R397). -/
def State.csrRefuses (s : State) (n : Nat) (x : DWord) : Bool :=
  let w := s.w
  match n with
  | 0x00 => s.legacy || decide (8 ≤ x.toNat)
  | 0x01 => x &&& ~~~jsrBits != 0
  | 0x02 => x &&& ~~~(0x1F7 : DWord) != 0
  | 0x03 =>
    decide (2 ^ 18 ≤ x.toNat) || x.getLsbD 17 != w.ppoint.getLsbD 17 || decide (bits x.toNat 16 0 < 256) ||
      decide (65536 < bits x.toNat 16 0)
  | 0x08 => decide (2 ^ 33 ≤ x.toNat) || x.getLsbD 32 != w.tvec.getLsbD 32 || x.getLsbD 0
  | 0x12 => decide (1024 ≤ x.toNat) || x == 0
  | _ => decide (n < 0x20)

/-- The state with register `n` of the map written. -/
def State.putCsr (s : State) (n : Nat) (x : DWord) : State :=
  let w := s.w
  let cn := s.g.ctx
  let c := s.ctx cn
  match n with
  | 0x00 => s.setW { w with jord := x }
  | 0x01 => s.setW { w with jsr := x }
  | 0x02 => s.setW { w with fpctl := x }
  | 0x03 => s.setW { w with ppoint := x }
  | 0x08 => s.setW { w with tvec := x }
  | 0x12 =>
    let old := c.leases.filter fun p => decide (s.now < p.2 + 1023 * Config.usCycles)
    s.setCtx cn { c with lease := x.toNat, leases := old ++ [(c.lease, s.now)] }
  | _ => s.setCtx cn { c with pmc := c.pmc.set (n - 0x20) x }

/-- A CSRW that its register refuses (code 0x63): the CSR number stands for the register. -/
def csrTrap (n : Nat) : Trap := illegalOperand 0x63 0 n

/-- CSRW of every register but DX (R397). -/
def execCsrw (c a : Nat) (s : State) : Out :=
  withOperands s 4 [{ field := 1, kind := .s, reg := a }] (if s.csrRefuses c (s.sreg a) then some (csrTrap c) else none) fun s =>
    .next ((s.putCsr c (s.sreg a)).finish 4)

/-- The lowest active lane at which a CSRW DX is refused (R166). -/
def dxRefuses (w : Wave) (x : Lanes) : Option Nat :=
  (lanesIn w.active).find? fun l =>
    let v := lane x l
    (v.getLsbD 0 && v != 0xFFFFFFFF) || (lane w.dx l == 0xFFFFFFFF && v != 0xFFFFFFFF)

/-- CSRW DX, vs (R166): the active lanes' PCs of the interrupted Ductus. Outside handler mode they stand in place of the next
offset. -/
def execCsrwDx (a : Nat) (s : State) : Out :=
  withOperands s 4 [{ field := 1, kind := .v, reg := a, src := some 0 }] none fun s =>
    let x := s.vaReg a
    let w := s.w
    match dxRefuses w x with
    | some l => .next (s.trap (illegalOperand 0x63 0 4 l))
    | none =>
      if w.handler then .next ((s.setW { w with dx := blend w.active x w.dx }).finish 4)
      else .next (s.finishAt 4 (fun l => if bit w.active l then lane x l else w.nextPc 4) (w.active != 0) false false)

/-- PMCR (R399). -/
def execPmcr (d n : Nat) (s : State) : Out :=
  withOperands s 4 [{ field := 0, kind := .s, reg := d, dst := true }] none fun s =>
    s.putS d (BitVec.ofNat 64 (bits ((s.ctx s.g.ctx).pmc.getD n 0).toNat 55 0))

/-! ### Traps (R236, R237, R395, R396) -/

/-- TRAP (R395): where it enters the handler its issuing lanes are left at the next instruction; where it is reflected they
stay at it, so that RETRY issues it again (R240, log 15). -/
def execTrap (i : Nat) (s : State) : Out :=
  withOperands s 4 [] none fun s =>
    let w := s.w
    let t : Trap := { cause := 0x0D, info := BitVec.ofNat 64 (i % 2 ^ 18) }
    if !s.toHandler s.cur t then .next (s.trap t)
    else
      let len := if w.pre.isSome then 8 else 4
      let s := s.setW (w.setDuct (lanesOf fun l => if bit w.issuing l then w.nextPc 4 else lane w.duct l))
      .next (s.trapAt s.cur w.ipc { t with len := len })

/-- TRET (R237, R396): handler mode ends; at the group's last the frozen batch resumes (R243). A PREEMPT that is due follows
before the next issue (R246). -/
def execTret (s : State) : Out :=
  withOperands s 4 [] (if s.w.handler then none else some (refusal 0x61)) fun s =>
    let k := s.cur
    let s := s.leaveHandler k
    let s := if s.groupHandler (s.wave k).group then s else s.pokeArray (s.group (s.wave k).group).core
    .next (if (s.wave k).live = 0 then s.endWave k else s)

/-! ### Fetch and decode (R14, R269, R273, R274) -/

/-- The issuing wave takes a trap of its fetch; in a slice, SKIP passes the instruction that waits for it (R192, R240). -/
def State.trapFetch (s : State) (t : Trap) : State :=
  let len := match s.w.regen with
    | r :: _ => r.skip
    | [] => t.len
  s.trapAt s.cur s.w.ipc { t with len := len }

/-- ILLEGAL_INSTR, with the instruction word: SKIP passes the parcel, the word, or the pair (R240, R274). -/
def execIllegalInstr (info : DWord) (s : State) : Out :=
  let len :=
    if !info.getLsbD 0 then 2
    else if bits info.toNat 6 1 = 0x3E then (if info.getLsbD 32 then 8 else 6)
    else 4
  .next (s.trapFetch (illegalTrap info len))

/-- A fault of a fetch at the issue PC (R14, R36): at the first parcel, or, where that one can be fetched, at the second. -/
def execFetchFault (f : MemFault) (s : State) : Out :=
  let w := s.w
  let x := s.g
  let off := match s.fetchParcel x.core x.ctx (x.codeAt w.ipc) with
    | (_, .parcel _) => w.ipc + 2
    | _ => w.ipc
  let l := (lowestLane w.here).getD 0
  .next (s.trapFetch (fetchTrap l w.ipc off (x.codeAt off) (.fault f)))

/-- The bytes of the instruction `n` bytes after the one that issues: at the issue PC, or, while a slice is replayed, at the
slice's address (R191). -/
def State.fetchAt (s : State) (n : Nat) : State × Except (Nat × Fetched) (List Byte) :=
  match s.w.regen with
  | r :: _ =>
    let x := s.g
    match s.fetchParcel x.core x.ctx (r.pc + n) with
    | (s, .parcel b) =>
      if (b.headD 0).getLsbD 0 then
        match s.fetchParcel x.core x.ctx (r.pc + n + 2) with
        | (s, .parcel b2) => (s, .ok (b ++ b2))
        | (s, f) => (s, .error (s.w.ipc + n + 2, f))
      else (s, .ok b)
    | (s, f) => (s, .error (s.w.ipc + n, f))
  | [] => s.fetchBytes s.w.group (s.w.ipc + n)

/-- XMOD (R266 to R269, R280): the instruction after it is fetched with it; the pair then issues as one instruction. A pair that
breaks R267 or R269 is not an instruction (R274). -/
def execXmod (x : Xmod) (s : State) : Out :=
  let word := leNat (encode (.xmod x))
  match s.fetchAt 4 with
  | (s, .error (off, f)) =>
    let l := (lowestLane s.w.here).getD 0
    .next (s.trapFetch (fetchTrap l s.w.ipc off (s.g.codeAt off) f))
  | (s, .ok b) =>
    let bad := .next (s.trapFetch (illegalTrap (BitVec.ofNat 64 (word + 2 ^ 32 * leNat b)) (4 + b.length)))
    match decode s.g.ep.gen b with
    | some (j, _) => if x.pairs j then
      .next (s.setW { s.w with pre := some x, preVd := s.g.ep.gen == 1, waiting := false }) else bad
    | none => bad

end Sys2Proof.Machine
end

