-- ==== Sys2Proof/Machine/Dispatch.lean ====
section
/-!
DEFINITION. The dispatcher: one arm per constructor of Instr, each one call of the instruction's meaning.
-/

namespace Sys2Proof.Machine

/-- Executes one instruction, or one move of another agent. -/
def exec (i : Instr) (s : State) : Host.Outcome State Fault Refusal :=
  match i with
  | .iadd d a b => Sys2Proof.Machine.execIadd d a b s
  | .isub d a b => Sys2Proof.Machine.execIsub d a b s
  | .imul d a b => Sys2Proof.Machine.execImul d a b s
  | .imulhI32 d a b => Sys2Proof.Machine.execImulhI32 d a b s
  | .imulhN32 d a b => Sys2Proof.Machine.execImulhN32 d a b s
  | .imin d a b => Sys2Proof.Machine.execImin d a b s
  | .imax d a b => Sys2Proof.Machine.execImax d a b s
  | .and d a b => Sys2Proof.Machine.execAnd d a b s
  | .or d a b => Sys2Proof.Machine.execOr d a b s
  | .xor d a b => Sys2Proof.Machine.execXor d a b s
  | .andn d a b => Sys2Proof.Machine.execAndn d a b s
  | .shl d a b => Sys2Proof.Machine.execShl d a b s
  | .shr d a b => Sys2Proof.Machine.execShr d a b s
  | .sar d a b => Sys2Proof.Machine.execSar d a b s
  | .rot d a b => Sys2Proof.Machine.execRot d a b s
  | .imad d a b => Sys2Proof.Machine.execImad d a b s
  | .iabs d a => Sys2Proof.Machine.execIabs d a s
  | .ineg d a => Sys2Proof.Machine.execIneg d a s
  | .not d a => Sys2Proof.Machine.execNot d a s
  | .clz d a => Sys2Proof.Machine.execClz d a s
  | .popc d a => Sys2Proof.Machine.execPopc d a s
  | .brev d a => Sys2Proof.Machine.execBrev d a s
  | .mov d a => Sys2Proof.Machine.execMov d a s
  | .sel d a b => Sys2Proof.Machine.execSel d a b s
  | .bfxI32 d a b => Sys2Proof.Machine.execBfxI32 d a b s
  | .bfxN32 d a b => Sys2Proof.Machine.execBfxN32 d a b s
  | .bfi d a b => Sys2Proof.Machine.execBfi d a b s
  | .icvtI8 d a => Sys2Proof.Machine.execIcvtI8 d a s
  | .icvtI16 d a => Sys2Proof.Machine.execIcvtI16 d a s
  | .icvtI64 d a => Sys2Proof.Machine.execIcvtI64 d a s
  | .icvtI32 d a => Sys2Proof.Machine.execIcvtI32 d a s
  | .icmpEq d a b => Sys2Proof.Machine.execIcmpEq d a b s
  | .icmpLtI32 d a b => Sys2Proof.Machine.execIcmpLtI32 d a b s
  | .icmpLtN32 d a b => Sys2Proof.Machine.execIcmpLtN32 d a b s
  | .iaddI64 d a b => Sys2Proof.Machine.execIaddI64 d a b s
  | .isubI64 d a b => Sys2Proof.Machine.execIsubI64 d a b s
  | .imulI64 d a b => Sys2Proof.Machine.execImulI64 d a b s
  | .iaddImm d a n => Sys2Proof.Machine.execIaddImm d a n s
  | .shlImm d a n => Sys2Proof.Machine.execShlImm d a n s
  | .movi d n => Sys2Proof.Machine.execMovi d n s
  | .lih d n => Sys2Proof.Machine.execLih d n s
  | .sadd d a b => Sys2Proof.Machine.execSadd d a b s
  | .ssub d a b => Sys2Proof.Machine.execSsub d a b s
  | .smul d a b => Sys2Proof.Machine.execSmul d a b s
  | .sand d a b => Sys2Proof.Machine.execSand d a b s
  | .sor d a b => Sys2Proof.Machine.execSor d a b s
  | .sxor d a b => Sys2Proof.Machine.execSxor d a b s
  | .sshl d a b => Sys2Proof.Machine.execSshl d a b s
  | .sshr d a b => Sys2Proof.Machine.execSshr d a b s
  | .smov d a => Sys2Proof.Machine.execSmov d a s
  | .scmpEq d a b => Sys2Proof.Machine.execScmpEq d a b s
  | .scmpLtI64 d a b => Sys2Proof.Machine.execScmpLtI64 d a b s
  | .scmpLtN64 d a b => Sys2Proof.Machine.execScmpLtN64 d a b s
  | .saddImm d a n => Sys2Proof.Machine.execSaddImm d a n s
  | .sandImm d a n => Sys2Proof.Machine.execSandImm d a n s
  | .sshlImm d a n => Sys2Proof.Machine.execSshlImm d a n s
  | .smovi d n => Sys2Proof.Machine.execSmovi d n s
  | .slih d n => Sys2Proof.Machine.execSlih d n s
  | .vlid d => Sys2Proof.Machine.execVlid d s
  | .lperm d a b => Sys2Proof.Machine.execLperm d a b s
  | .vote d a => Sys2Proof.Machine.execVote d a s
  | .mpop d a => Sys2Proof.Machine.execMpop d a s
  | .reduceAddI32 d a => Sys2Proof.Machine.execReduceAddI32 d a s
  | .reduceMaxI32 d a => Sys2Proof.Machine.execReduceMaxI32 d a s
  | .reduceAddF32 d a => Sys2Proof.Machine.execReduceAddF32 d a s
  | .reduceMaxF32 d a => Sys2Proof.Machine.execReduceMaxF32 d a s
  | .reduceAddF64 d a => Sys2Proof.Machine.execReduceAddF64 d a s
  | .mand d a b => Sys2Proof.Machine.execMand d a b s
  | .mor d a b => Sys2Proof.Machine.execMor d a b s
  | .mxor d a b => Sys2Proof.Machine.execMxor d a b s
  | .mnot d a => Sys2Proof.Machine.execMnot d a s
  | .mmov d a => Sys2Proof.Machine.execMmov d a s
  | .br c w => Sys2Proof.Machine.execBr c w s
  | .call c w => Sys2Proof.Machine.execCall c w s
  | .brsZ c w => Sys2Proof.Machine.execBrsZ c w s
  | .brsNz c w => Sys2Proof.Machine.execBrsNz c w s
  | .jmp a => Sys2Proof.Machine.execJmp a s
  | .ret a => Sys2Proof.Machine.execRet a s
  | .wake d => Sys2Proof.Machine.execWake d s
  | .elect d a => Sys2Proof.Machine.execElect d a s
  | .join d => Sys2Proof.Machine.execJoin d s
  | .leave d => Sys2Proof.Machine.execLeave d s
  | .bar d => Sys2Proof.Machine.execBar d s
  | .nopH1 d a b => Sys2Proof.Machine.execNopH1 d a b s
  | .nopH2 d a b => Sys2Proof.Machine.execNopH2 d a b s
  | .faddF32 d a b => Sys2Proof.Machine.execFaddF32 d a b s
  | .fsubF32 d a b => Sys2Proof.Machine.execFsubF32 d a b s
  | .fmulF32 d a b => Sys2Proof.Machine.execFmulF32 d a b s
  | .ffmaF32 d a b => Sys2Proof.Machine.execFfmaF32 d a b s
  | .fdivF32 d a b => Sys2Proof.Machine.execFdivF32 d a b s
  | .fminF32 d a b => Sys2Proof.Machine.execFminF32 d a b s
  | .fmaxF32 d a b => Sys2Proof.Machine.execFmaxF32 d a b s
  | .frcpF32 d a => Sys2Proof.Machine.execFrcpF32 d a s
  | .fsqrtF32 d a => Sys2Proof.Machine.execFsqrtF32 d a s
  | .frsqF32 d a => Sys2Proof.Machine.execFrsqF32 d a s
  | .fabsF32 d a => Sys2Proof.Machine.execFabsF32 d a s
  | .fnegF32 d a => Sys2Proof.Machine.execFnegF32 d a s
  | .fclassF32 d a => Sys2Proof.Machine.execFclassF32 d a s
  | .froundF32 d a => Sys2Proof.Machine.execFroundF32 d a s
  | .ffmaF32Rn d a b => Sys2Proof.Machine.execFfmaF32Rn d a b s
  | .ffmaF32Rz d a b => Sys2Proof.Machine.execFfmaF32Rz d a b s
  | .faddF64 d a b => Sys2Proof.Machine.execFaddF64 d a b s
  | .fsubF64 d a b => Sys2Proof.Machine.execFsubF64 d a b s
  | .fmulF64 d a b => Sys2Proof.Machine.execFmulF64 d a b s
  | .ffmaF64 d a b => Sys2Proof.Machine.execFfmaF64 d a b s
  | .fdivF64 d a b => Sys2Proof.Machine.execFdivF64 d a b s
  | .fminF64 d a b => Sys2Proof.Machine.execFminF64 d a b s
  | .fmaxF64 d a b => Sys2Proof.Machine.execFmaxF64 d a b s
  | .fsqrtF64 d a => Sys2Proof.Machine.execFsqrtF64 d a s
  | .fabsF64 d a => Sys2Proof.Machine.execFabsF64 d a s
  | .fnegF64 d a => Sys2Proof.Machine.execFnegF64 d a s
  | .fexpF32 d a => Sys2Proof.Machine.execFexpF32 d a s
  | .flogF32 d a => Sys2Proof.Machine.execFlogF32 d a s
  | .fsinF32 d a => Sys2Proof.Machine.execFsinF32 d a s
  | .fcosF32 d a => Sys2Proof.Machine.execFcosF32 d a s
  | .ftanhF32 d a => Sys2Proof.Machine.execFtanhF32 d a s
  | .fcmpEqF32 d a b => Sys2Proof.Machine.execFcmpEqF32 d a b s
  | .fcmpLtF32 d a b => Sys2Proof.Machine.execFcmpLtF32 d a b s
  | .fcmpLeF32 d a b => Sys2Proof.Machine.execFcmpLeF32 d a b s
  | .fcmpEqF64 d a b => Sys2Proof.Machine.execFcmpEqF64 d a b s
  | .fcmpLtF64 d a b => Sys2Proof.Machine.execFcmpLtF64 d a b s
  | .fcmpLeF64 d a b => Sys2Proof.Machine.execFcmpLeF64 d a b s
  | .fcvtF64F32 d a => Sys2Proof.Machine.execFcvtF64F32 d a s
  | .fcvtF32F64 d a => Sys2Proof.Machine.execFcvtF32F64 d a s
  | .fcvtF32I32 d a => Sys2Proof.Machine.execFcvtF32I32 d a s
  | .fcvtF32N32 d a => Sys2Proof.Machine.execFcvtF32N32 d a s
  | .fcvtI32F32 d a => Sys2Proof.Machine.execFcvtI32F32 d a s
  | .fcvtN32F32 d a => Sys2Proof.Machine.execFcvtN32F32 d a s
  | .fcvtBf16F32 d a b => Sys2Proof.Machine.execFcvtBf16F32 d a b s
  | .fcvtF16F32 d a b => Sys2Proof.Machine.execFcvtF16F32 d a b s
  | .fcvtF32F16 d a e => Sys2Proof.Machine.execFcvtF32F16 d a e s
  | .hadd2Bf16 d a b => Sys2Proof.Machine.execHadd2Bf16 d a b s
  | .hmul2Bf16 d a b => Sys2Proof.Machine.execHmul2Bf16 d a b s
  | .hfma2Bf16 d a b => Sys2Proof.Machine.execHfma2Bf16 d a b s
  | .hadd2F16 d a b => Sys2Proof.Machine.execHadd2F16 d a b s
  | .hmul2F16 d a b => Sys2Proof.Machine.execHmul2F16 d a b s
  | .hfma2F16 d a b => Sys2Proof.Machine.execHfma2F16 d a b s
  | .jseedF32 d a => Sys2Proof.Machine.execJseedF32 d a s
  | .jseedF64 d a => Sys2Proof.Machine.execJseedF64 d a s
  | .jextF32 d a n => Sys2Proof.Machine.execJextF32 d a n s
  | .jextF64 d a n => Sys2Proof.Machine.execJextF64 d a n s
  | .jinsF32 d a n => Sys2Proof.Machine.execJinsF32 d a n s
  | .jinsF64 d a n => Sys2Proof.Machine.execJinsF64 d a n s
  | .jdiffF32 d a => Sys2Proof.Machine.execJdiffF32 d a s
  | .jdiffF64 d a => Sys2Proof.Machine.execJdiffF64 d a s
  | .jintegF32 d a => Sys2Proof.Machine.execJintegF32 d a s
  | .jintegF64 d a => Sys2Proof.Machine.execJintegF64 d a s
  | .jfactF32 d a => Sys2Proof.Machine.execJfactF32 d a s
  | .jfactF64 d a => Sys2Proof.Machine.execJfactF64 d a s
  | .setjord k => Sys2Proof.Machine.execSetjord k s
  | .jsrr d => Sys2Proof.Machine.execJsrr d s
  | .jsrc a => Sys2Proof.Machine.execJsrc a s
  | .ld d sb o w h n => Sys2Proof.Machine.execLd d sb o w h n s
  | .st d sb o w h n => Sys2Proof.Machine.execSt d sb o w h n s
  | .stX d sb o w n => Sys2Proof.Machine.execStX d sb o w n s
  | .ldb d sb o w h n => Sys2Proof.Machine.execLdb d sb o w h n s
  | .ldbX d sb o w n => Sys2Proof.Machine.execLdbX d sb o w n s
  | .ldr d sb o w m => Sys2Proof.Machine.execLdr d sb o w m s
  | .atom d sb o w p => Sys2Proof.Machine.execAtom d sb o w p s
  | .spatom d sb o p => Sys2Proof.Machine.execSpatom d sb o p s
  | .slock d sb o m => Sys2Proof.Machine.execSlock d sb o m s
  | .sunlk d sb o => Sys2Proof.Machine.execSunlk d sb o s
  | .pref sb o w h n => Sys2Proof.Machine.execPref sb o w h n s
  | .bind a b => Sys2Proof.Machine.execBind a b s
  | .unbind a => Sys2Proof.Machine.execUnbind a s
  | .acq a b => Sys2Proof.Machine.execAcq a b s
  | .rel a b => Sys2Proof.Machine.execRel a b s
  | .lock a => Sys2Proof.Machine.execLock a s
  | .unlock a => Sys2Proof.Machine.execUnlock a s
  | .signal a b => Sys2Proof.Machine.execSignal a b s
  | .waitge a b => Sys2Proof.Machine.execWaitge a b s
  | .qfence a => Sys2Proof.Machine.execQfence a s
  | .rdrop d => Sys2Proof.Machine.execRdrop d s
  | .rmat d => Sys2Proof.Machine.execRmat d s
  | .rdemote d => Sys2Proof.Machine.execRdemote d s
  | .grow n => Sys2Proof.Machine.execGrow n s
  | .shrink n => Sys2Proof.Machine.execShrink n s
  | .rmark d n => Sys2Proof.Machine.execRmark d n s
  | .cpy v h g c q e => Sys2Proof.Machine.execCpy v h g c q e s
  | .cpyd v h g c q e => Sys2Proof.Machine.execCpyd v h g c q e s
  | .hwait h => Sys2Proof.Machine.execHwait h s
  | .hstat d h => Sys2Proof.Machine.execHstat d h s
  | .hfree h => Sys2Proof.Machine.execHfree h s
  | .pagereqFill h a => Sys2Proof.Machine.execPagereqFill h a s
  | .pagereqSettle h => Sys2Proof.Machine.execPagereqSettle h s
  | .cbset c a => Sys2Proof.Machine.execCbset c a s
  | .cbwait d c => Sys2Proof.Machine.execCbwait d c s
  | .cbrel c => Sys2Proof.Machine.execCbrel c s
  | .spush a => Sys2Proof.Machine.execSpush a s
  | .spop d => Sys2Proof.Machine.execSpop d s
  | .spcnt d => Sys2Proof.Machine.execSpcnt d s
  | .spushRoltik2 a => Sys2Proof.Machine.execSpushRoltik2 a s
  | .spopRoltik2 d => Sys2Proof.Machine.execSpopRoltik2 d s
  | .spcntRoltik2 d => Sys2Proof.Machine.execSpcntRoltik2 d s
  | .mmaPtBf16 d a b sat => Sys2Proof.Machine.execMmaPtBf16 d a b sat s
  | .mmaPtDpw8 d a b sat => Sys2Proof.Machine.execMmaPtDpw8 d a b sat s
  | .mmaPtF32 d a b sat => Sys2Proof.Machine.execMmaPtF32 d a b sat s
  | .mmaMinpF32 d a b sat => Sys2Proof.Machine.execMmaMinpF32 d a b sat s
  | .mmaMaxpF32 d a b sat => Sys2Proof.Machine.execMmaMaxpF32 d a b sat s
  | .mmaMaxtF32 d a b sat => Sys2Proof.Machine.execMmaMaxtF32 d a b sat s
  | .mmaOrandBits d a b => Sys2Proof.Machine.execMmaOrandBits d a b s
  | .mgather a b => Sys2Proof.Machine.execMgather a b s
  | .mzero a => Sys2Proof.Machine.execMzero a s
  | .mflags d a => Sys2Proof.Machine.execMflags d a s
  | .mflagsClr d a => Sys2Proof.Machine.execMflagsClr d a s
  | .rqalloc d a b => Sys2Proof.Machine.execRqalloc d a b s
  | .rqcommit a => Sys2Proof.Machine.execRqcommit a s
  | .rqjoin a => Sys2Proof.Machine.execRqjoin a s
  | .rqinfo d a n => Sys2Proof.Machine.execRqinfo d a n s
  | .ctxnew d a => Sys2Proof.Machine.execCtxnew d a s
  | .ctxgrantCores d a b => Sys2Proof.Machine.execCtxgrantCores d a b s
  | .ctxtakeCores h a b => Sys2Proof.Machine.execCtxtakeCores h a b s
  | .ctxstat d a n => Sys2Proof.Machine.execCtxstat d a n s
  | .ctxfree h a => Sys2Proof.Machine.execCtxfree h a s
  | .predone a => Sys2Proof.Machine.execPredone a s
  | .csrr d c => Sys2Proof.Machine.execCsrr d c s
  | .csrrDx d => Sys2Proof.Machine.execCsrrDx d s
  | .csrw c a => Sys2Proof.Machine.execCsrw c a s
  | .csrwDx a => Sys2Proof.Machine.execCsrwDx a s
  | .pmcr d n => Sys2Proof.Machine.execPmcr d n s
  | .pwrreqGate d a => Sys2Proof.Machine.execPwrreqGate d a s
  | .trap n => Sys2Proof.Machine.execTrap n s
  | .xmod x => Sys2Proof.Machine.execXmod x s
  | .iaddC16 d b => Sys2Proof.Machine.execIaddC16 d b s
  | .isubC16 d b => Sys2Proof.Machine.execIsubC16 d b s
  | .imulC16 d b => Sys2Proof.Machine.execImulC16 d b s
  | .andC16 d b => Sys2Proof.Machine.execAndC16 d b s
  | .orC16 d b => Sys2Proof.Machine.execOrC16 d b s
  | .xorC16 d b => Sys2Proof.Machine.execXorC16 d b s
  | .shlC16 d b => Sys2Proof.Machine.execShlC16 d b s
  | .shrC16 d b => Sys2Proof.Machine.execShrC16 d b s
  | .sarC16 d b => Sys2Proof.Machine.execSarC16 d b s
  | .movC16 d b => Sys2Proof.Machine.execMovC16 d b s
  | .iminC16 d b => Sys2Proof.Machine.execIminC16 d b s
  | .imaxC16 d b => Sys2Proof.Machine.execImaxC16 d b s
  | .faddF32C16 d b => Sys2Proof.Machine.execFaddF32C16 d b s
  | .fsubF32C16 d b => Sys2Proof.Machine.execFsubF32C16 d b s
  | .fmulF32C16 d b => Sys2Proof.Machine.execFmulF32C16 d b s
  | .fmaxF32C16 d b => Sys2Proof.Machine.execFmaxF32C16 d b s
  | .notC16Roltik1 d b => Sys2Proof.Machine.execNotC16Roltik1 d b s
  | .exit => Sys2Proof.Machine.execExit s
  | .yield => Sys2Proof.Machine.execYield s
  | .sleep => Sys2Proof.Machine.execSleep s
  | .nop => Sys2Proof.Machine.execNop s
  | .lbar => Sys2Proof.Machine.execLbar s
  | .fenceW => Sys2Proof.Machine.execFenceW s
  | .fenceG => Sys2Proof.Machine.execFenceG s
  | .fenceC => Sys2Proof.Machine.execFenceC s
  | .fenceD => Sys2Proof.Machine.execFenceD s
  | .fenceS => Sys2Proof.Machine.execFenceS s
  | .ifence => Sys2Proof.Machine.execIfence s
  | .tret => Sys2Proof.Machine.execTret s
  | .loadResultReturn w tag => Sys2Proof.Machine.execLoadResultReturn w tag s
  | .storeQueueDrain w => Sys2Proof.Machine.execStoreQueueDrain w s
  | .remoteAccessArrival w tag => Sys2Proof.Machine.execRemoteAccessArrival w tag s
  | .remoteAccessRefused w tag => Sys2Proof.Machine.execRemoteAccessRefused w tag s
  | .remoteAcknowledge w tag => Sys2Proof.Machine.execRemoteAcknowledge w tag s
  | .mappingLeaseExpiry core => Sys2Proof.Machine.execMappingLeaseExpiry core s
  | .l1LeaseWriteback core line => Sys2Proof.Machine.execL1LeaseWriteback core line s
  | .pagereqRewalk g h => Sys2Proof.Machine.execPagereqRewalk g h s
  | .pagereqSettleExpiry g h => Sys2Proof.Machine.execPagereqSettleExpiry g h s
  | .lockBitRetry w => Sys2Proof.Machine.execLockBitRetry w s
  | .bankDrowsyEntry core bank => Sys2Proof.Machine.execBankDrowsyEntry core bank s
  | .bankWake core bank => Sys2Proof.Machine.execBankWake core bank s
  | .spineEntryArrival core => Sys2Proof.Machine.execSpineEntryArrival core s
  | .spineCreditReturn core => Sys2Proof.Machine.execSpineCreditReturn core s
  | .spinePairFolioRestore ctx core => Sys2Proof.Machine.execSpinePairFolioRestore ctx core s
  | .gateGrant dom => Sys2Proof.Machine.execGateGrant dom s
  | .domainWakeComplete dom => Sys2Proof.Machine.execDomainWakeComplete dom s
  | .cbSlotClaim cl e q => Sys2Proof.Machine.execCbSlotClaim cl e q s
  | .copyOperationStart cl e q => Sys2Proof.Machine.execCopyOperationStart cl e q s
  | .copyOperationComplete cl e q => Sys2Proof.Machine.execCopyOperationComplete cl e q s
  | .multicastDelivery cl e q k => Sys2Proof.Machine.execMulticastDelivery cl e q k s
  | .multicastWaitExpiry cl e q k => Sys2Proof.Machine.execMulticastWaitExpiry cl e q k s
  | .followOnPlacement cl e q k => Sys2Proof.Machine.execFollowOnPlacement cl e q k s
  | .mmaStart core g => Sys2Proof.Machine.execMmaStart core g s
  | .mmaAccumulationComplete core => Sys2Proof.Machine.execMmaAccumulationComplete core s
  | .mzeroExecute core g => Sys2Proof.Machine.execMzeroExecute core g s
  | .mflagsExecute core g => Sys2Proof.Machine.execMflagsExecute core g s
  | .mgatherExecute core => Sys2Proof.Machine.execMgatherExecute core s
  | .quantumStart w => Sys2Proof.Machine.execQuantumStart w s
  | .gathererTimerExpiry launch node depth => Sys2Proof.Machine.execGathererTimerExpiry launch node depth s
  | .gathererDispatch => Sys2Proof.Machine.execGathererDispatch s
  | .groupPlacement cl => Sys2Proof.Machine.execGroupPlacement cl s
  | .launchStructureReread launch node => Sys2Proof.Machine.execLaunchStructureReread launch node s
  | .continuationEnqueue launch => Sys2Proof.Machine.execContinuationEnqueue launch s
  | .groupTeardown g => Sys2Proof.Machine.execGroupTeardown g s
  | .reservationZeroingDone core g => Sys2Proof.Machine.execReservationZeroingDone core g s
  | .launchCompletion launch => Sys2Proof.Machine.execLaunchCompletion launch s
  | .completionInterrupt launch => Sys2Proof.Machine.execCompletionInterrupt launch s
  | .growGrant core => Sys2Proof.Machine.execGrowGrant core s
  | .growDeadlockBreaker core => Sys2Proof.Machine.execGrowDeadlockBreaker core s
  | .controlIntervalBoundary cl metered => Sys2Proof.Machine.execControlIntervalBoundary cl metered s
  | .energyBudgetExhausted cl => Sys2Proof.Machine.execEnergyBudgetExhausted cl s
  | .droopTrip cl => Sys2Proof.Machine.execDroopTrip cl s
  | .droopHoldExpiry cl => Sys2Proof.Machine.execDroopHoldExpiry cl s
  | .voltageSlewComplete dom => Sys2Proof.Machine.execVoltageSlewComplete dom s
  | .frequencySwitch dom => Sys2Proof.Machine.execFrequencySwitch dom s
  | .governorSample dom ratio => Sys2Proof.Machine.execGovernorSample dom ratio s
  | .thermalClampStep dom temp => Sys2Proof.Machine.execThermalClampStep dom temp s
  | .clusterClockGate cl => Sys2Proof.Machine.execClusterClockGate cl s
  | .startEventAdmission => Sys2Proof.Machine.execStartEventAdmission s
  | .bandwidthInterval stack temp demands => Sys2Proof.Machine.execBandwidthInterval stack temp demands s
  | .hangWatchdogExpiry ctx => Sys2Proof.Machine.execHangWatchdogExpiry ctx s
  | .sliceExpiry core => Sys2Proof.Machine.execSliceExpiry core s
  | .groupStop g => Sys2Proof.Machine.execGroupStop g s
  | .preemptTimeout g => Sys2Proof.Machine.execPreemptTimeout g s
  | .predoneTimeout g => Sys2Proof.Machine.execPredoneTimeout g s
  | .groupRestore g => Sys2Proof.Machine.execGroupRestore g s
  | .faultRingWrite ctx => Sys2Proof.Machine.execFaultRingWrite ctx s
  | .revocationComplete g h => Sys2Proof.Machine.execRevocationComplete g h s
  | .lockRetry w => Sys2Proof.Machine.execLockRetry w s
  | .waitgePoll w => Sys2Proof.Machine.execWaitgePoll w s
  | .feEnable f => Sys2Proof.Machine.execFeEnable f s
  | .feDisable f => Sys2Proof.Machine.execFeDisable f s
  | .feProducerCountWrite f count => Sys2Proof.Machine.execFeProducerCountWrite f count s
  | .feSubmissionEntry f => Sys2Proof.Machine.execFeSubmissionEntry f s
  | .feVerdictWrite f word => Sys2Proof.Machine.execFeVerdictWrite f word s
  | .feSettingsWrite f off word => Sys2Proof.Machine.execFeSettingsWrite f off word s
  | .powerOnBringup => Sys2Proof.Machine.execPowerOnBringup s
  | .attestationRequest nonce => Sys2Proof.Machine.execAttestationRequest nonce s
  | .ageingMonitorUpdate cl hours guard => Sys2Proof.Machine.execAgeingMonitorUpdate cl hours guard s
  | .selfTestStart unit loc => Sys2Proof.Machine.execSelfTestStart unit loc s
  | .selfTestComplete unit loc pass => Sys2Proof.Machine.execSelfTestComplete unit loc pass s
  | .illegalInstr info => Sys2Proof.Machine.execIllegalInstr info s
  | .fetchFault f => Sys2Proof.Machine.execFetchFault f s
  | .writeBackAcknowledge w => Sys2Proof.Machine.execWriteBackAcknowledge w s
  | .hostStoreAcknowledge w => Sys2Proof.Machine.execHostStoreAcknowledge w s
  | .ctxgrantMem d a b => Sys2Proof.Machine.execCtxgrantMem d a b s
  | .ctxgrantQmem d a b => Sys2Proof.Machine.execCtxgrantQmem d a b s
  | .ctxgrantBind d a b => Sys2Proof.Machine.execCtxgrantBind d a b s
  | .ctxgrantEnergyIpeak d a b => Sys2Proof.Machine.execCtxgrantEnergyIpeak d a b s
  | .ctxgrantBandwidth d a b => Sys2Proof.Machine.execCtxgrantBandwidth d a b s
  | .ctxgrantRoot d a b => Sys2Proof.Machine.execCtxgrantRoot d a b s
  | .ctxgrantResume d a b => Sys2Proof.Machine.execCtxgrantResume d a b s
  | .ctxtakeMem h a b => Sys2Proof.Machine.execCtxtakeMem h a b s
  | .ctxtakeQmem h a b => Sys2Proof.Machine.execCtxtakeQmem h a b s
  | .ctxtakeBind h a b => Sys2Proof.Machine.execCtxtakeBind h a b s
  | .ctxtakeEnergyIpeak h a b => Sys2Proof.Machine.execCtxtakeEnergyIpeak h a b s
  | .ctxtakeBandwidth h a b => Sys2Proof.Machine.execCtxtakeBandwidth h a b s
  | .pwrreqWake d a => Sys2Proof.Machine.execPwrreqWake d a s
  | .pwrreqPoint d a => Sys2Proof.Machine.execPwrreqPoint d a s
  | .pwrreqMode d a => Sys2Proof.Machine.execPwrreqMode d a s
  | .pwrreqHold d a => Sys2Proof.Machine.execPwrreqHold d a s
  | .pwrreqQuery d a => Sys2Proof.Machine.execPwrreqQuery d a s

end Sys2Proof.Machine
end

