-- ==== Sys2Proof/Machine/Events.lean ====
section
/-!
DEFINITION. What a move that is due does: the meaning of its row of the table (log 5).
-/

namespace Sys2Proof.Machine

/-- Performs a move. -/
def Event.run (e : Event) (s : State) : Out :=
  match e with
  | .loadResultReturn w tag => execLoadResultReturn w tag s
  | .storeQueueDrain w => execStoreQueueDrain w s
  | .remoteAccessArrival w tag => execRemoteAccessArrival w tag s
  | .remoteAccessRefused w tag => execRemoteAccessRefused w tag s
  | .remoteAcknowledge w tag => execRemoteAcknowledge w tag s
  | .mappingLeaseExpiry core => execMappingLeaseExpiry core s
  | .l1LeaseWriteback core line => execL1LeaseWriteback core line s
  | .pagereqRewalk g h => execPagereqRewalk g h s
  | .pagereqSettleExpiry g h => execPagereqSettleExpiry g h s
  | .lockBitRetry w => execLockBitRetry w s
  | .bankDrowsyEntry core bank => execBankDrowsyEntry core bank s
  | .bankWake core bank => execBankWake core bank s
  | .spineEntryArrival core => execSpineEntryArrival core s
  | .spineCreditReturn core => execSpineCreditReturn core s
  | .spinePairFolioRestore ctx core => execSpinePairFolioRestore ctx core s
  | .gateGrant dom => execGateGrant dom s
  | .domainWakeComplete dom => execDomainWakeComplete dom s
  | .cbSlotClaim cl e q => execCbSlotClaim cl e q s
  | .copyOperationStart cl e q => execCopyOperationStart cl e q s
  | .copyOperationComplete cl e q => execCopyOperationComplete cl e q s
  | .multicastDelivery cl e q k => execMulticastDelivery cl e q k s
  | .multicastWaitExpiry cl e q k => execMulticastWaitExpiry cl e q k s
  | .followOnPlacement cl e q k => execFollowOnPlacement cl e q k s
  | .mmaStart core g => execMmaStart core g s
  | .mmaAccumulationComplete core => execMmaAccumulationComplete core s
  | .mzeroExecute core g => execMzeroExecute core g s
  | .mflagsExecute core g => execMflagsExecute core g s
  | .mgatherExecute core => execMgatherExecute core s
  | .quantumStart w => execQuantumStart w s
  | .gathererTimerExpiry launch node depth => execGathererTimerExpiry launch node depth s
  | .gathererDispatch => execGathererDispatch s
  | .groupPlacement cl => execGroupPlacement cl s
  | .launchStructureReread launch node => execLaunchStructureReread launch node s
  | .continuationEnqueue launch => execContinuationEnqueue launch s
  | .groupTeardown g => execGroupTeardown g s
  | .reservationZeroingDone core g => execReservationZeroingDone core g s
  | .launchCompletion launch => execLaunchCompletion launch s
  | .completionInterrupt launch => execCompletionInterrupt launch s
  | .growGrant core => execGrowGrant core s
  | .growDeadlockBreaker core => execGrowDeadlockBreaker core s
  | .controlIntervalBoundary cl metered => execControlIntervalBoundary cl metered s
  | .energyBudgetExhausted cl => execEnergyBudgetExhausted cl s
  | .droopTrip cl => execDroopTrip cl s
  | .droopHoldExpiry cl => execDroopHoldExpiry cl s
  | .voltageSlewComplete dom => execVoltageSlewComplete dom s
  | .frequencySwitch dom => execFrequencySwitch dom s
  | .governorSample dom ratio => execGovernorSample dom ratio s
  | .thermalClampStep dom temp => execThermalClampStep dom temp s
  | .clusterClockGate cl => execClusterClockGate cl s
  | .startEventAdmission => execStartEventAdmission s
  | .bandwidthInterval stack temp demands => execBandwidthInterval stack temp demands s
  | .hangWatchdogExpiry ctx => execHangWatchdogExpiry ctx s
  | .sliceExpiry core => execSliceExpiry core s
  | .groupStop g => execGroupStop g s
  | .preemptTimeout g => execPreemptTimeout g s
  | .predoneTimeout g => execPredoneTimeout g s
  | .groupRestore g => execGroupRestore g s
  | .faultRingWrite ctx => execFaultRingWrite ctx s
  | .revocationComplete g h => execRevocationComplete g h s
  | .lockRetry w => execLockRetry w s
  | .waitgePoll w => execWaitgePoll w s
  | .feEnable f => execFeEnable f s
  | .feDisable f => execFeDisable f s
  | .feProducerCountWrite f count => execFeProducerCountWrite f count s
  | .feSubmissionEntry f => execFeSubmissionEntry f s
  | .feVerdictWrite f word => execFeVerdictWrite f word s
  | .feSettingsWrite f off word => execFeSettingsWrite f off word s
  | .powerOnBringup => execPowerOnBringup s
  | .attestationRequest nonce => execAttestationRequest nonce s
  | .ageingMonitorUpdate cl hours guard => execAgeingMonitorUpdate cl hours guard s
  | .selfTestStart unit loc => execSelfTestStart unit loc s
  | .selfTestComplete unit loc pass => execSelfTestComplete unit loc pass s
  | .writeBackAcknowledge w => execWriteBackAcknowledge w s
  | .hostStoreAcknowledge w => execHostStoreAcknowledge w s

end Sys2Proof.Machine
end

