-- ==== Sys2Proof/Machine/Issue.lean ====
section
/-!
DEFINITION. One issue of a wave (R165, R199, R246, R269): what comes before the fetch, the fetch, and the instruction or pair;
which waves issue in a cycle (R199); and the passing of time: counters per cycle, fairness timers, clock gating, drowsy banks,
and what happens at each microsecond (R204, R214, R222).
-/

namespace Sys2Proof.Machine

/-! ### Regeneration (R191, R192) -/

/-- The slice of the innermost regeneration has run: its set is materialised once its registers are full. -/
def State.regenEnd (s : State) (r : Regen) (rest : List Regen) : State :=
  let w := s.w
  match w.recipes.find? fun x => x.entry == r.entry with
  | none => s.setW { w with regen := rest }
  | some x =>
    match x.regs.findSome? fun v => if w.isEmpty v then w.deferred.get? v else none with
    | some d =>
      s.trap { cause := 0x07, addr := BitVec.ofNat 64 d.fault.addr, info := memInfo d.fault {} d.lane true r.entry d.ldpc
               owner := d.fault.owner }
    | none =>
      if x.regs.any fun v => w.isEmpty v || w.pending.any fun p => p.vregs.any fun q => q.1 == v then s.block
      else
        let v := x.regs.foldl (fun t v => t.set v (lanesOf fun l => if bit x.lanes l then lane (w.vreg v) l else 0)) w.v
        (s.setW { w with
          v := v, regen := rest
          recipes := w.recipes.map fun y => if y.entry = r.entry then { y with demoted := false, used := s.now } else y }).charge
          s.g.ctx 0x0A 1

/-! ### Issue -/

/-- The issue slot of an instruction, given by its bytes (R199, R282, chapter 13; log 71): 0 vector, 1 scalar, 2 engine command,
with the Spine instructions of the legacy generations in major 0x15 (R279). -/
def issueSlot (b : List Byte) : Nat :=
  if b.length < 4 then 0
  else
    let major := bits (leNat b) 6 1
    if (0x30 ≤ major ∧ major ≤ 0x35) ∨ major = 0x15 then 2
    else if (0x08 ≤ major ∧ major ≤ 0x0D) ∨ (0x36 ≤ major ∧ major ≤ 0x3D) then 1
    else 0

/-- The issue of an instruction is counted, unless the wave waits at it (R253). -/
def State.countIssue (k : Nat) (b : List Byte) : Out → Out
  | .next s =>
    if (s.wave k).waiting then .next s
    else
      let c := (s.group (s.wave k).group).ctx
      .next (match issueSlot b with
        | 0 => s.charge c 2 1
        | 1 => s.charge c 3 1
        | _ => s)
  | o => o

/-- Executes an instruction that was decoded from the bytes `b`: an XMOD issues with the instruction after it (R269). -/
def State.perform (s : State) (i : Instr) (b : List Byte) : Out :=
  match i with
  | .xmod x =>
    match exec (.xmod x) s with
    | .next t =>
      match t.w.pre, t.fetchAt 4 with
      | some _, (t, .ok b2) =>
        match decode t.g.ep.gen b2 with
        | some (j, _) => State.countIssue s.cur b2 (exec j t)
        | none => .next t
      | _, _ => .next t
    | o => o
  | i => State.countIssue s.cur b (exec i s)

/-- An XMOD word that is no XMOD fails as a pair, with the instruction after it (R269, R274). -/
def State.illegalPair (s : State) (b : List Byte) : Out :=
  match s.fetchAt 4 with
  | (s, .error (off, f)) =>
    .next (s.trapFetch (fetchTrap ((lowestLane s.w.here).getD 0) s.w.ipc off (s.g.codeAt off) f))
  | (s, .ok b2) => execIllegalInstr (illegalInfo (b ++ b2)) s

/-- Fetches and executes the instruction at the issue PC, or the next of a slice. -/
def State.fetchIssue (s : State) : Out :=
  match s.fetchAt 0 with
  | (s, .error (_, .fault f)) => execFetchFault f s
  | (s, .error (off, f)) => .next (s.trapFetch (fetchTrap ((lowestLane s.w.here).getD 0) s.w.ipc off (s.g.codeAt off) f))
  | (s, .ok b) =>
    match decode s.g.ep.gen b with
    | none => if bits (leNat b) 6 0 = 0x7D then s.illegalPair b else execIllegalInstr (illegalInfo b) s
    | some (i, _) => s.perform i b

/-- Something is due before the wave's next instruction: an uncorrectable error that a matrix command met (R241), PREEMPT
(R246), the end of a slice (R191), or a quantum (R169). Answers nothing where the instruction issues. -/
def State.beforeIssue (s : State) : Option State :=
  let w := s.w
  match w.alarm with
  | some a => some ((s.setW { w with alarm := none }).trapAt s.cur w.ipc { cause := 0x0B, addr := a.1, info := a.2, len := 0 })
  | none =>
    if w.preemptDue && !w.handler then
      some ((s.setW { w with preemptDue := false }).trapAt s.cur w.ipc { cause := 0x0C, len := 0 })
    else match w.regen with
    | r :: rest => if r.left = 0 then some (s.regenEnd r rest) else none
    | [] => if w.quantumReady then some (s.setW w.beginQuantum) else none

/-- One issue of the wave State.cur, whatever its clock. -/
def State.issueNow (s : State) : Out :=
  match s.beforeIssue with
  | some t => .next t
  | none => s.fetchIssue

/-- Wave `k`, ready otherwise, issues its instruction and does not wait at it: its sources are full and the units that it needs
are not busy (R199). -/
def State.wouldIssue (s : State) (k : Nat) : Bool :=
  match ({ s with cur := k } : State).issueNow with
  | .next t => !(t.wave k).waiting
  | _ => false

/-- The ready waves that would issue. -/
def State.issuable (s : State) : List Nat := s.readyWaves.filter s.wouldIssue

/-- A cluster has a ready wave or an engine operation in progress (R216). -/
def State.clusterBusy (s : State) (cl : Nat) : Bool :=
  s.enginesBusy cl || s.readyWaves.any fun k => clusterOf (s.group (s.wave k).group).core == cl && s.wouldIssue k

/-- One issue of the wave State.cur. A cluster whose clock is gated raises its start event instead, where the wave would issue
(R216, R217). -/
def State.issue (s : State) : Out :=
  let cl := clusterOf s.g.core
  if (s.waves.get? s.cur).isNone then .fault .noWave
  else if (s.cluster cl).gated then
    if s.wouldIssue s.cur then
      .next (({ s with starts := s.starts ++ [{ cluster := cl }] } : State).postOnce 0 .startEventAdmission)
    else .next (s.setW { s.w with waiting := true })
  else s.issueNow

/-! ### The slots of a cycle (R199) -/

/-- The slot that the next instruction of wave `k` takes; of a pair, the slot of the instruction after the XMOD (R269). -/
def State.nextSlot (s : State) (k : Nat) : Nat :=
  match ({ s with cur := k } : State).fetchAt 0 with
  | (s, .ok b) =>
    if bits (leNat b) 6 0 = 0x7D then
      match s.fetchAt 4 with
      | (_, .ok b2) => issueSlot b2
      | _ => 0
    else issueSlot b
  | _ => 0

/-- The slots of a kind that a core has in a cycle: two for vector instructions, one for scalar instructions, one for engine
commands. -/
def slotsOfKind (kind : Nat) : Nat := if kind = 0 then 2 else 1

/-- A slot for the next instruction of wave `k` is free on its core, and the wave has not issued in this cycle. -/
def State.slotFree (s : State) (k : Nat) : Bool :=
  let core := (s.group (s.wave k).group).core
  let used := s.issuedNow.filter fun p => (s.group (s.wave p.1).group).core == core
  used.isEmpty || (!(used.any fun p => p.1 == k) &&
    (let kind := s.nextSlot k
     decide (countIf (fun p => p.2 == kind) used < slotsOfKind kind)))

/-- The ready waves that may issue in this cycle. -/
def State.mayIssue (s : State) : List Nat := s.readyWaves.filter s.slotFree

/-- The wave that issues next: the first of State.turn if it may, else the selector's (log 4). -/
def State.choose (s : State) : Option Nat :=
  match s.turn with
  | k :: _ => if (s.waves.get? k).isSome && s.ready k && s.slotFree k then some k else s.select s.mayIssue
  | [] => s.select s.mayIssue

/-! ### Time (R2, R169, R253) -/

/-- The fairness timer of a wave that is resident, after `d` cycles (R169). -/
def Wave.age (w : Wave) (d : Nat) : Wave :=
  if w.waitingLanes = 0 then (if w.timer = 0 ∧ w.backBranch = false then w else { w with timer := 0, backBranch := false })
  else { w with timer := w.timer + d }

/-- The cores on which a context has a resident wave, counted per core and cycle (R253). -/
def State.residentCores (s : State) (c : Nat) : Nat :=
  ((s.groups.vals.filter fun g => g.ctx == c && g.phase.holds).map (·.core)).eraseDups.length

/-- `d` cycles pass. -/
def State.pass (s : State) (d : Nat) : State :=
  let s := s.ctxs.keys.foldl (fun s c => s.charge c 1 (d * s.residentCores c)) s
  { s with
    now := s.now + d
    waves := ⟨s.waves.rows.map fun p => (p.1, if (s.group p.2.group).phase == .resident && p.2.phase != .ended then p.2.age d else p.2)⟩ }

/-- The clock gating of a cluster as `d` cycles begin (R216): it is busy in them, or its gating is due 64 cycles after it was. -/
def State.watchClock (s : State) (d cl : Nat) : State :=
  let x := s.cluster cl
  if x.gated then s
  else if s.clusterBusy cl then (s.setCluster cl { x with busyAt := s.now + d }).unpost (.clusterClockGate cl)
  else s.postOnce (x.busyAt + 64 - s.now) (.clusterClockGate cl)

/-- The domains with resident groups. -/
def State.domainsLive (s : State) : List Nat := ((s.groups.vals.filter (·.phase.holds)).map fun g => coreDomain g.core).eraseDups

/-- Some resident wave of a domain waits for a memory result, and none is ready (R214, log 63). -/
def State.domainStalls (s : State) (d : Nat) : Bool :=
  let ks := s.waves.keys.filter fun k =>
    (s.group (s.wave k).group).phase == .resident && coreDomain (s.group (s.wave k).group).core == d
  (ks.any fun k => (s.wave k).phase == .run && (s.wave k).hasWork && (s.wave k).loading) && !ks.any fun k => s.ready k && s.wouldIssue k

/-- The stall counter of a domain over `d` cycles (R214). -/
def State.watchStalls (s : State) (d dom : Nat) : State :=
  if s.domainStalls dom then s.setDomain dom { s.domain dom with stalled := (s.domain dom).stalled + d } else s

/-- The banks of the register file of a core (R61): one that is idle enters retention 16 cycles later, unless it is used; a
drowsy one that is used wakes 6 cycles later. -/
def State.watchBanks (s : State) (core : Nat) : State :=
  (List.range 16).foldl (fun s b =>
    let drowsy := (s.core core).drowsy.getLsbD b
    if s.bankIdle core b then (if drowsy then s else s.postOnce 16 (.bankDrowsyEntry core b))
    else if drowsy then s.postOnce 6 (.bankWake core b)
    else s.unpost (.bankDrowsyEntry core b)) s

/-- Grow deadlock and waiting requests of a core: one that can be granted by now is (R200 to R202). -/
def State.watchWaits (s : State) (core : Nat) : State :=
  if (s.core core).deadlockSince.isSome || (s.wavesOn core).any fun k => (s.wave k).phase.isRegWait then
    let t := s.noteDeadlock core
    if s.grantable core then t.postOnce 0 (.growGrant core) else t
  else s

/-- The cores that have held something: those whose banks and waits are watched (log 10). -/
def State.coresSeen (s : State) : List Nat := (s.cores.keys ++ s.groups.vals.map (·.core)).eraseDups

/-- The clusters on which a context has a group. -/
def State.clustersRunning (s : State) (c : Nat) : List Nat :=
  (s.groups.vals.filter fun g => g.ctx == c && g.phase.holds).map fun g => clusterOf g.core

/-- A context was throttled for power in the microsecond: a cluster that runs its groups was stopped by metering or under a
halved clock (R205, R211). -/
def State.powerThrottled (s : State) (c : Nat) : Bool :=
  (s.clustersRunning c).any fun cl => (s.cluster cl).stopped || (s.cluster cl).slowed

/-- A core refuses a group for admission first (R197, R198). -/
def State.admissionHolds (s : State) (g core : Nat) : Bool := s.placeFail g core == some 7

/-- A group waits for its placement: formed, or stopped (R198, R250). -/
def GroupPhase.waits : GroupPhase → Bool
  | .queued => true
  | .stopped _ => true
  | _ => false

/-- The cores on which a waiting group may be placed: those of the cluster whose launch queue holds it, else those of its
context. -/
def State.coresFor (s : State) (g : Nat) : List Nat :=
  match s.clusters.rows.find? fun p => p.2.queue.contains g with
  | some p => (List.range 4).map (4 * p.1 + ·)
  | none => (s.ctx (s.group g).ctx).cores.map (·.1)

/-- A group of a context is held by admission: one that waits, in a launch queue or outside, or one of a launchable class that no
queue has taken, with a core that R204 is the first condition to close to it (R198, R207). -/
def State.heldByAdmission (s : State) (c : Nat) : Bool :=
  (s.groups.rows.any fun p => p.2.ctx == c && p.2.phase.waits && (s.coresFor p.1).any (s.admissionHolds p.1)) ||
  s.classes.any fun a => a.ctx == c &&
    (let r := s.formGroup a
     (s.ctx c).cores.any fun p => r.1.admissionHolds r.2 p.1)

/-- The watchdog of a context at the end of a microsecond (R222, log 74), and the charge of a throttled one (R198, R253). -/
def State.watch (s : State) (c : Nat) : State :=
  let power := s.powerThrottled c || s.heldByAdmission c
  let band := (s.ctx c).throttled
  let counts := s.liveWork c && s.running c && !power && !band
  let s := if power || band then s.charge c 0x0F 1 else s
  let x := s.ctx c
  if counts && !x.hung then
    let s := s.setCtx c { x with wdogCount := x.wdogCount + 1 }
    if x.wdog * 1000 ≤ x.wdogCount + 1 then s.postOnce 0 (.hangWatchdogExpiry c) else s
  else s

/-- The waves that wait try again. -/
def State.wakeWaiting (s : State) : State :=
  { s with waves := ⟨s.waves.rows.map fun p => (p.1, if p.2.waiting then { p.2 with waiting := false } else p.2)⟩ }

/-- Every 10 us each governor reads its stall counter, which begins anew (R214). -/
def State.sampleStalls (s : State) : State :=
  if s.now / Config.usCycles % 10 ≠ 0 then s
  else s.domains.keys.foldl (fun s d =>
    (s.setDomain d { s.domain d with stalled := 0 }).post 0 (.governorSample d (s.domain d).stalled)) s

/-- The end of a microsecond: watchdogs, the end of the control interval's stops, marks of page requests, governors, and the
queues look again. -/
def State.microsecond (s : State) : State :=
  let s := s.ctxs.keys.foldl State.watch s
  let s := s.clusters.keys.foldl (fun s c =>
    let x := s.cluster c
    s.setCluster c { x with stopped := false, slowed := x.halved }) s
  let s := s.ctxs.keys.foldl (fun s c => if (s.ctx c).throttled then s.setCtx c { s.ctx c with throttled := false } else s) s
  let s := s.ctxs.keys.foldl (fun s c => if (s.ctx c).requested.isEmpty then s else s.refreshMarks c) s
  let s := s.sampleStalls
  let s := if s.groups.rows.isEmpty && s.launches.rows.isEmpty then s else s.pokeQueues.pokeGatherer
  s.wakeWaiting

/-- `d` cycles pass; the end of a microsecond is met if it lies within them. -/
def State.advance (s : State) (d : Nat) : State :=
  let s := s.clusters.keys.foldl (fun s c => s.watchClock d c) s
  let s := s.domainsLive.foldl (fun s c => s.watchStalls d c) s
  let t := s.pass d
  let t := t.coresSeen.foldl (fun s c => (s.watchBanks c).watchWaits c) t
  if t.now / Config.usCycles = s.now / Config.usCycles then t else t.microsecond

/-- The end of a cycle, or of the `d` cycles in which no wave issues: the ready waves that did not issue have been passed over
(R199, log 70). -/
def State.endCycle (s : State) (d : Nat) : State :=
  let missed := s.readyWaves.filter fun k => !(s.issuedNow.any fun p => p.1 == k) && s.wouldIssue k
  ({ s with issuedNow := [], passed := ⟨missed.map fun k => (k, s.passed.getD k 0 + 1)⟩ } : State).advance d

/-- How far time goes when nothing is ready: to the next move that is due, or to the end of the microsecond. -/
def State.idleTime (s : State) : Nat :=
  let us := Config.usCycles - s.now % Config.usCycles
  match s.agenda with
  | (t, _) :: _ => min (t - s.now) us
  | [] => us

/-- Wave `k` is taken for issue. -/
def State.take (s : State) (k : Nat) : State :=
  { s with
    cur := k, turn := match s.turn with
      | j :: r => if j = k then r else j :: r
      | [] => [] }

/-- No wave issues for now: the cycle ends in which one has issued, else time goes on to the next move that is due. -/
def State.idle (s : State) : State := s.endCycle (if s.issuedNow.isEmpty then s.idleTime else 1)

/-- After an issue of wave `k` that took a slot of a kind: unless the wave waits at its instruction, the slot is used and the
others look again, and its cluster was busy (R216); the cycle ends when no other wave may issue in it (R199, log 4). -/
def State.issued (s : State) (k kind : Nat) : State :=
  let cl := clusterOf (s.group (s.wave k).group).core
  let s := if (s.wave k).waiting then s
    else
      let t := ({ s with issuedNow := (k, kind) :: s.issuedNow } : State).wakeWaiting
      t.setCluster cl { t.cluster cl with busyAt := t.now + 1 }
  if s.choose.isSome then s else s.endCycle 1

/-- The issue of a wave as a step. -/
def State.issueStep (s : State) (k : Nat) : Out :=
  match (s.take k).issue with
  | .next t => .next (t.issued k (s.nextSlot k))
  | o => o

/-- A move that is due, as a step. -/
def State.moveStep (s : State) (e : Event) : Out :=
  match e.run s with
  | .next t => .next t.wakeWaiting
  | o => o

end Sys2Proof.Machine
end

