-- ==== Sys2Proof/Machine/Program.lean ====
section
/-!
DEFINITION. A program of one instruction, placed as a launch would place it (log 6): the page tables and the code in HBM, a
partition that maps them, and a group of one wave, all its lanes at the entry point.
-/

namespace Sys2Proof.Machine

/-- Physical base of the own package (R23). -/
def State.ownBase (s : State) : Nat := s.config.package * Config.packageSize

/-- The tables and the code: the top table at 0x1000, the middle table at 0x20000 with a 32 MiB leaf for address 0, the code 64
bytes into its page (R19, R20, R406). -/
def State.programMemory (s : State) (code : List Byte) : Memory :=
  let b := s.ownBase
  memWriteN (memWriteN (memWriteN s.hbm (b + 0x1000) (leBytes 8 (b + 0x20000 + 1))) (b + 0x20000)
    (leBytes 8 (b + 0x2000000 + 31))) (b + 0x2000040) code

/-- The Endpaper of the program: 16 granules, no handler, at address 0. -/
def programEndpaper (gen : Nat) : Endpaper := { addr := 0, gen := gen, gran := 16 }

/-- The group of the program. -/
def programGroup (gen : Nat) : Group :=
  { ctx := 0, launch := 0, ep := programEndpaper gen, waves := 1, core := 0, phase := .resident
    sets := ⟨[(0, { members := 1 })]⟩, records := List.range 32 }

/-- The wave of the program, with 32 records in its queue. -/
def programWave (gen placed : Nat) : Wave :=
  newWave (programGroup gen) 0 0 0 placed 32 none ((List.range 32).map (32 * ·))

/-- The partition that holds cluster 0 and maps the program. -/
def State.programContext (s : State) : Context :=
  { depth := 1, root := s.ownBase + 0x1000, cores := [(0, false), (1, false), (2, false), (3, false)], bindCount := 256
    energy := ⟨[(0, s.config.budgetE)]⟩, ipeak := ⟨[(0, s.config.budgetI)]⟩, folioUsed := [0] }

/-- The launch of the program: one node, whose 32 records are assigned to the group. -/
def programLaunch (gen : Nat) : Launch :=
  { nodes := ⟨[(0, { ep := programEndpaper gen, slots := ⟨(List.range 32).map fun i => (i, .assigned 0)⟩, check := 1 })]⟩
    nextGid := 1, ranOn := [0] }

/-- The state with a program of one instruction placed, whose wave issues next; moves that are due already are dropped. -/
def State.placeProgram (s : State) (gen : Nat) (code : List Byte) : State :=
  { s with
    agenda := s.agenda.filter fun p => decide (s.now < p.1)
    cur := 0, turn := [0], hbm := s.programMemory code, uncorr := []
    waves := s.waves.set 0 (programWave gen s.placements), placements := s.placements + 1
    groups := s.groups.set 0 (programGroup gen), nextGroup := max 1 s.nextGroup
    launches := s.launches.set 0 (programLaunch gen), nextLaunch := max 1 s.nextLaunch
    ctxs := s.ctxs.set 0 s.programContext
    cores := s.cores.set 0 { s.core 0 with tlb := [], icache := ⟨[]⟩ }
    clusters := s.clusters.set 0 { s.cluster 0 with stopped := false, gated := false } }

end Sys2Proof.Machine
end

