-- ==== Sys2Proof/Machine/Step.lean ====
section
/-!
DEFINITION. One step of the device: a move that is due, else the issue of a wave, else the passing of time (log 3, log 4,
log 5).
-/

namespace Sys2Proof.Machine

/-- One step. -/
def step (s : State) : Host.Outcome State Fault Refusal :=
  match s.agenda with
  | (t, e) :: rest =>
    if t ≤ s.now then ({ s with agenda := rest } : State).moveStep e
    else match s.choose with
      | some k => s.issueStep k
      | none => .next s.idle
  | [] =>
    match s.choose with
    | some k => s.issueStep k
    | none => .next s.idle

/-- The state with an instruction, given by the opcode table's numbering of its bits, stored where the next step fetches: a
program of that one instruction is loaded (log 6). -/
def State.withFetchWord (s : State) (nbits w : Nat) : State :=
  s.placeProgram (tableGen (tableBytes nbits w)) (tableBytes nbits w)

end Sys2Proof.Machine
end

