-- ==== Sys2Proof/Safety.lean ====
section
/-!
DEFINITION. The terms in which claims about the machine are made: when an instruction's effect may take place, what an
instruction leaves unchanged, what a byte of memory reads as, and the canonical form of the memories.
-/

namespace Sys2Proof.Machine

/-! ### Reading one byte -/

/-- The byte at a location of this package, as a core reads it: 0 physical memory, under the valid bytes of the core's L1
(R56); 1 to 4 the buffers S, A, W and C (R39); 5 the host's memory (R24). -/
def State.byteAt (s : State) (core : Nat) (x : Nat × Nat) : Byte :=
  match x.1 with
  | 0 =>
    match (s.core core).l1Find (x.2 / 128) with
    | some l => if l.valid.getLsbD (x.2 % 128) then l.byte (x.2 % 128) else memRead s.hbm x.2
    | none => memRead s.hbm x.2
  | 1 => memRead (s.core core).s x.2
  | 2 => memRead (s.core core).a x.2
  | 3 => memRead (s.core core).w x.2
  | 4 => memRead (s.core core).c x.2
  | 5 => memRead s.host x.2
  | _ => 0

/-- The byte at a location as wave `k` reads it: under the stores of its own queue (R121). -/
def State.peek (s : State) (k : Nat) (x : Nat × Nat) : Byte :=
  (queuedByte (s.wave k).storeQ x).getD (s.byteAt (s.group (s.wave k).group).core x)

/-- The byte that has been stored at a location, as a core's stores have left it: in physical memory the core's dirty byte,
else what HBM holds (R56); else the byte of the buffer or of the host's memory. A clean byte of the L1 is a copy and no
store. -/
def State.storedAt (s : State) (core : Nat) (x : Nat × Nat) : Byte :=
  match x.1 with
  | 0 =>
    match (s.core core).l1Find (x.2 / 128) with
    | some l => if l.dirty.getLsbD (x.2 % 128) then l.byte (x.2 % 128) else memRead s.hbm x.2
    | none => memRead s.hbm x.2
  | _ => s.byteAt core x

/-- The L1 of a core holds each line once, and every dirty byte of it is valid (R56). -/
def Core.l1Wf (k : Core) : Prop := (k.l1.map (·.line)).Nodup ∧ ∀ l ∈ k.l1, l.dirty &&& ~~~l.valid = 0

/-- No valid byte of the core's L1 is stale: a clean one is the byte that HBM holds. -/
def State.coherent (s : State) (core : Nat) : Prop :=
  (s.core core).l1Wf ∧ ∀ l ∈ (s.core core).l1, ∀ i, i < 128 → l.valid.getLsbD i = true → l.dirty.getLsbD i = false →
    l.byte i = memRead s.hbm (128 * l.line + i)

/-- Nothing was stored between `s` and `t` that `core` can see: every location holds what it held for the core, and the
host's memory and the buffers of every core are as they were. -/
structure SameMemory (s t : State) (core : Nat) : Prop where
  stored : ∀ x, t.storedAt core x = s.storedAt core x
  buffers : ∀ c b, (t.core c).buf b = (s.core c).buf b
  host : t.host = s.host

/-! ### When an instruction's effect takes place -/

/-- Nothing stands before the effect of an instruction of `n` bytes with operands `os` (R273): no operand check fails
(R275), no scalar or mask is busy (R282) or holds a deferred fault (R28), the instruction's own check `chk` passes, no
destination is pinned (R189), every source is full and materialised (R178, R191), and every destination is ready to be
written (R189, R282). -/
def Ready (s : State) (n : Nat) (os : List Opnd) (chk : Option Trap) : Prop :=
  operandTrap s.w n os = none ∧ busy s.w os = false ∧ scalarFault s.w n os = none ∧ chk = none ∧
    pinned s.w n os = none ∧ askSources s.w n os = none ∧ askDests s.w os = none

/-- The wave issues: it is replaying a slice (R191), or some lane stands at its issue PC, an even offset (R164, R165). -/
def Issues (s : State) : Prop := s.w.regen ≠ [] ∨ (s.w.here ≠ 0 ∧ s.w.ipc % 2 = 0)

/-- The wave issues outside the replay of a slice. -/
def IssuesPlainly (s : State) : Prop := s.w.regen = [] ∧ s.w.here ≠ 0 ∧ s.w.ipc % 2 = 0

/-! ### What an instruction changes -/

/-- The special registers other than JSR, and the mode (R70, R236, R314, R398). -/
def Wave.control (w : Wave) : DWord × DWord × DWord × DWord × DWord × DWord × DWord × DWord × Bool × Bool :=
  (w.jord, w.fpctl, w.ppoint, w.tvec, w.tcause, w.tepc, w.taddr, w.tinfo, w.handler, w.preempted)

/-- The registers of a wave that no trap writes, in one value. -/
def Wave.file (w : Wave) :
    Tab Lanes × BitVec 128 × Tab DWord × Word × Tab Word × BitVec 16 × DWord × DWord × DWord × DWord × DWord :=
  (w.v, w.empty, w.s, w.sbusy, w.m, w.mbusy, w.jsr, w.jord, w.fpctl, w.ppoint, w.tvec)

/-- The registers of the issuing wave in `s` and `t` are equal, but for the vector registers `vs`, the scalars `ss`, the
masks `ms`, and JSR where `fl` holds; so are its special registers and its mode. -/
structure SameRegs (s t : State) (vs ss ms : List Nat) (fl : Bool) : Prop where
  /-- vector registers and their full/empty bits -/
  vector : ∀ r, r ∉ vs → t.w.vreg r = s.w.vreg r ∧ t.w.isEmpty r = s.w.isEmpty r
  /-- scalars, and whether they are busy -/
  scalar : ∀ r, r ∉ ss → t.w.sreg r = s.w.sreg r ∧ t.w.sbusy.getLsbD r = s.w.sbusy.getLsbD r
  /-- masks, and whether they are busy -/
  mask : ∀ r, r ∉ ms → t.w.mreg r = s.w.mreg r ∧ t.w.mbusy.getLsbD r = s.w.mbusy.getLsbD r
  /-- flags -/
  flags : fl = false → t.w.jsr = s.w.jsr
  /-- special registers and mode -/
  control : t.w.control = s.w.control

/-- What of a wave is neither a register, nor a recipe, nor part of its place in its code: its identity, granules and stack
slot, the results it awaits, its queue of stores, its accesses to other packages, and what it is doing. -/
def Wave.rest (w : Wave) :
    (Nat × Nat × Nat × Nat × Bool × Nat × Option Nat) ×
      (List Pending × List (Place × List Byte) × Option LockWait × Nat × Nat × List Remote × Bool × Option Pending ×
        Option (MemFault × Bool × Nat)) ×
      (List (Nat × Nat) × Phase × Nat × Option (DWord × DWord) × Option Nat × Nat) :=
  ((w.group, w.wid, w.slot, w.placed, w.preemptDue, w.granules, w.stackSlot),
   (w.pending, w.storeQ, w.storeWait, w.wbOut, w.hostOut, w.remotes, w.remoteHold, w.held, w.remoteFault),
   (w.slocks, w.phase, w.barLen, w.alarm, w.recorded, w.nextTag))

/-- Two recipes that differ at most in the time of their last use. -/
def Recipe.alike (x y : Recipe) : Prop := ∃ t, y = { x with used := t }

/-- The recipes of `u` are those of `w`, but for their times of use (R190) and for the sets that hold one of the vector
registers `vs`: outside a replay those are gone (R189). -/
def SameRecipes (w u : Wave) (vs : List Nat) : Prop :=
  (∀ y ∈ u.recipes, ∃ x ∈ w.recipes, x.alike y) ∧
    (∀ x ∈ w.recipes, (∀ r ∈ vs, r ∉ x.regs) → ∃ y ∈ u.recipes, x.alike y) ∧
    (w.regen = [] → ∀ y ∈ u.recipes, ∀ r ∈ vs, r ∉ y.regs)

/-- The frame of an instruction that acts on its wave's registers alone: nothing but its wave changes, of its wave nothing
but the named registers, the recipes of their sets, and its place in its code, and every byte of memory reads as before. -/
structure Frame (s t : State) (vs ss ms : List Nat) (fl : Bool) : Prop where
  /-- the rest of the device -/
  device : t = s.setW t.w
  /-- the wave's registers -/
  regs : SameRegs s t vs ss ms fl
  /-- the rest of the wave -/
  rest : t.w.rest = s.w.rest
  /-- its recipes -/
  recipes : SameRecipes s.w t.w vs
  /-- deferred faults (R28) and uncorrectable words (R241) of the other vector registers -/
  faults : ∀ r, r ∉ vs → t.w.deferred.get? r = s.w.deferred.get? r ∧ t.w.bad.getD r 0 = s.w.bad.getD r 0
  /-- memory, as any wave reads it -/
  memory : ∀ k x, t.peek k x = s.peek k x

/-- The wave has moved past an instruction of `n` bytes: its issuing lanes are at the next offset and the others where they
were (R165); or the slice that it replays is at its next instruction (R191). -/
def MovedOn (s t : State) (n : Nat) : Prop :=
  match s.w.regen with
  | [] => ∀ l, l < 32 → lane t.w.duct l = if bit s.w.here l then s.w.nextPc n else lane s.w.duct l
  | r :: rest =>
    t.w.duct = s.w.duct ∧
      t.w.regen = { r with pc := r.pc + n + (if s.w.pre.isSome then 4 else 0), left := r.left - 1 } :: rest

/-- What an instruction that only moves on does to the wave's turn among its lanes: no lane falls asleep or wakes, no quantum
falls due, the fairness timer keeps its count or is reset, the Nib lane stays while it is live (R174), and a quantum under way
counts one instruction more, until 64 or until its lanes are gone (R169). A replay leaves all of it as it was. -/
structure Paced (s t : State) : Prop where
  sleeping : t.w.sleeping = s.w.sleeping
  due : t.w.quantumDue = s.w.quantumDue
  timer : t.w.timer = s.w.timer ∨ (s.w.regen = [] ∧ t.w.timer = 0)
  nib : s.w.nib < 32 → lane s.w.dx s.w.nib ≠ 0xFFFFFFFF → t.w.nib = s.w.nib
  quantum : t.w.quantum =
    if s.w.regen = [] then s.w.quantum.bind fun q => if 64 ≤ q.2 + 1 ∨ t.w.live &&& q.1 = 0 then none else some (q.1, q.2 + 1)
    else s.w.quantum

/-- An instruction of `n` bytes was executed whose only effects are on the named registers of its wave and on its PCs. -/
def Executed (s t : State) (n : Nat) (vs ss ms : List Nat) (fl : Bool) : Prop :=
  Frame s t vs ss ms fl ∧ MovedOn s t n ∧ Paced s t

/-- Vector register `d` was written: the active lanes hold `f`, the others what they held; it is full unless the XMOD marks
it empty (R177, R281). -/
def Wrote (s t : State) (d : Nat) (f : Nat → Word) : Prop :=
  (∀ l, l < 32 → lane (t.w.vreg d) l = if bit s.w.active l then f l else lane (s.w.vreg d) l) ∧ t.w.isEmpty d = s.w.dem

/-- Mask `d` was written: the bits of the active lanes are `f`, the others what they were (R283). -/
def WroteMask (s t : State) (d : Nat) (f : Nat → Bool) : Prop :=
  ∀ l, l < 32 → bit (t.w.mreg d) l = if bit s.w.active l then f l else bit (s.w.mreg d) l

/-- A pair of vector registers was written with 64-bit values (R66). -/
def WrotePair (s t : State) (d : Nat) (f : Nat → DWord) : Prop :=
  Wrote s t d (fun l => BitVec.ofNat 32 (f l).toNat) ∧ Wrote s t (d + 1) fun l => BitVec.ofNat 32 ((f l).toNat / 2 ^ 32)

/-- The lanes' PCs after an instruction that sends each issuing lane `l` to `f l`: the others stand where they were. -/
def LanesAt (s t : State) (f : Nat → Word) : Prop :=
  ∀ l, l < 32 → lane t.w.duct l = if bit s.w.here l then f l else lane s.w.duct l

/-- Every earlier store of the wave has been performed and every earlier load has returned, and no dirty byte of its core's
L1 awaits its write-back (R126, R132): a release or fence has nothing left to wait for. -/
def Published (s : State) : Prop :=
  s.w.storeQ = [] ∧ s.w.pending = [] ∧ s.w.remotes = [] ∧
    ((s.w.scanned = true ∧ s.w.wbOut = 0) ∨ (s.w.scanned = false ∧ ∀ l ∈ (s.core s.g.core).l1, l.dirty = 0))

/-- Wave `k` has entered handler mode with the trap registers that R234 and R236 give: the cause, the offset of the
instruction, TADDR and TINFO; every lane of the handler Ductus stands at the handler's offset; the interrupted Ductus
and every register are kept. -/
def EnteredHandler (s t : State) (k tepc : Nat) (x : Trap) : Prop :=
  (t.wave k).handler = true ∧ (t.wave k).tcause = BitVec.ofNat 64 x.cause ∧ (t.wave k).tepc = BitVec.ofNat 64 tepc ∧
    (t.wave k).taddr = x.addr ∧ (t.wave k).tinfo = x.info ∧ (t.wave k).dx = (s.wave k).dx ∧
    (t.wave k).file = (s.wave k).file ∧ ∀ l, l < 32 → lane (t.wave k).hdx l = (s.wave k).tvec.setWidth 32

/-- An instruction of 4 bytes is done: the wave has moved on, its registers are equal but for those named, and nothing was
stored. -/
def Done (s t : State) (vs ss ms : List Nat) (fl : Bool) : Prop :=
  MovedOn s t 4 ∧ SameRegs s t vs ss ms fl ∧ SameMemory s t s.g.core

/-- The wave waits at its instruction (R8), its registers and its lanes as they were and nothing stored. -/
def Waits (s t : State) : Prop :=
  t.w.waiting = true ∧ t.w.duct = s.w.duct ∧ SameRegs s t [] [] [] false ∧ SameMemory s t s.g.core

/-! ### Steps -/

/-- The row of the table that a move of the agenda is. -/
def Event.isRow (e : Event) (i : Instr) : Prop :=
  match e with
  | .loadResultReturn w tag => i = .loadResultReturn w tag
  | .storeQueueDrain w => i = .storeQueueDrain w
  | .remoteAccessArrival w tag => i = .remoteAccessArrival w tag
  | .remoteAccessRefused w tag => i = .remoteAccessRefused w tag
  | .remoteAcknowledge w tag => i = .remoteAcknowledge w tag
  | .mappingLeaseExpiry core => i = .mappingLeaseExpiry core
  | .l1LeaseWriteback core line => i = .l1LeaseWriteback core line
  | .pagereqRewalk g h => i = .pagereqRewalk g h
  | .pagereqSettleExpiry g h => i = .pagereqSettleExpiry g h
  | .lockBitRetry w => i = .lockBitRetry w
  | .bankDrowsyEntry core bank => i = .bankDrowsyEntry core bank
  | .bankWake core bank => i = .bankWake core bank
  | .spineEntryArrival core => i = .spineEntryArrival core
  | .spineCreditReturn core => i = .spineCreditReturn core
  | .spinePairFolioRestore ctx core => i = .spinePairFolioRestore ctx core
  | .gateGrant dom => i = .gateGrant dom
  | .domainWakeComplete dom => i = .domainWakeComplete dom
  | .cbSlotClaim cl e q => i = .cbSlotClaim cl e q
  | .copyOperationStart cl e q => i = .copyOperationStart cl e q
  | .copyOperationComplete cl e q => i = .copyOperationComplete cl e q
  | .multicastDelivery cl e q k => i = .multicastDelivery cl e q k
  | .multicastWaitExpiry cl e q k => i = .multicastWaitExpiry cl e q k
  | .followOnPlacement cl e q k => i = .followOnPlacement cl e q k
  | .mmaStart core g => i = .mmaStart core g
  | .mmaAccumulationComplete core => i = .mmaAccumulationComplete core
  | .mzeroExecute core g => i = .mzeroExecute core g
  | .mflagsExecute core g => i = .mflagsExecute core g
  | .mgatherExecute core => i = .mgatherExecute core
  | .quantumStart w => i = .quantumStart w
  | .gathererTimerExpiry launch node depth => i = .gathererTimerExpiry launch node depth
  | .gathererDispatch => i = .gathererDispatch
  | .groupPlacement cl => i = .groupPlacement cl
  | .launchStructureReread launch node => i = .launchStructureReread launch node
  | .continuationEnqueue launch => i = .continuationEnqueue launch
  | .groupTeardown g => i = .groupTeardown g
  | .reservationZeroingDone core g => i = .reservationZeroingDone core g
  | .launchCompletion launch => i = .launchCompletion launch
  | .completionInterrupt launch => i = .completionInterrupt launch
  | .growGrant core => i = .growGrant core
  | .growDeadlockBreaker core => i = .growDeadlockBreaker core
  | .controlIntervalBoundary cl metered => i = .controlIntervalBoundary cl metered
  | .energyBudgetExhausted cl => i = .energyBudgetExhausted cl
  | .droopTrip cl => i = .droopTrip cl
  | .droopHoldExpiry cl => i = .droopHoldExpiry cl
  | .voltageSlewComplete dom => i = .voltageSlewComplete dom
  | .frequencySwitch dom => i = .frequencySwitch dom
  | .governorSample dom ratio => i = .governorSample dom ratio
  | .thermalClampStep dom temp => i = .thermalClampStep dom temp
  | .clusterClockGate cl => i = .clusterClockGate cl
  | .startEventAdmission => i = .startEventAdmission
  | .bandwidthInterval stack temp demands => i = .bandwidthInterval stack temp demands
  | .hangWatchdogExpiry ctx => i = .hangWatchdogExpiry ctx
  | .sliceExpiry core => i = .sliceExpiry core
  | .groupStop g => i = .groupStop g
  | .preemptTimeout g => i = .preemptTimeout g
  | .predoneTimeout g => i = .predoneTimeout g
  | .groupRestore g => i = .groupRestore g
  | .faultRingWrite ctx => i = .faultRingWrite ctx
  | .revocationComplete g h => i = .revocationComplete g h
  | .lockRetry w => i = .lockRetry w
  | .waitgePoll w => i = .waitgePoll w
  | .feEnable f => i = .feEnable f
  | .feDisable f => i = .feDisable f
  | .feProducerCountWrite f count => i = .feProducerCountWrite f count
  | .feSubmissionEntry f => i = .feSubmissionEntry f
  | .feVerdictWrite f word => i = .feVerdictWrite f word
  | .feSettingsWrite f off word => i = .feSettingsWrite f off word
  | .powerOnBringup => i = .powerOnBringup
  | .attestationRequest nonce => i = .attestationRequest nonce
  | .ageingMonitorUpdate cl hours guard => i = .ageingMonitorUpdate cl hours guard
  | .selfTestStart unit loc => i = .selfTestStart unit loc
  | .selfTestComplete unit loc pass => i = .selfTestComplete unit loc pass
  | .writeBackAcknowledge w => i = .writeBackAcknowledge w
  | .hostStoreAcknowledge w => i = .hostStoreAcknowledge w

/-! ### Canonical memories -/

/-- Every byte memory of a core is in canonical form. -/
def Core.memWf (k : Core) : Bool :=
  Sys2Proof.Machine.memWf k.s && Sys2Proof.Machine.memWf k.a && Sys2Proof.Machine.memWf k.w && Sys2Proof.Machine.memWf k.c

/-- The canonical form of memory (log 1, log 2): of HBM, of the host's memory and of every core's buffers, the addresses
rise strictly and no listed byte is the 0 that an unlisted address reads as. -/
def State.memWf (s : State) : Bool :=
  Sys2Proof.Machine.memWf s.hbm && Sys2Proof.Machine.memWf s.host && s.cores.vals.all Core.memWf

end Sys2Proof.Machine
end

