-- ==== Sys2Proof/Certificates/Slice0/Obligations.lean ====
section
/-!
DEFINITION. The statements about the machine. The tables before a statement say, instruction by instruction, what the
rules of the specification give as its result; they are written from the rules, in whole numbers where a rule computes.
-/

open Sys2Proof Sys2Proof.Machine

namespace Sys2Proof.Claims

/-! ### Lane, scalar and control instructions -/

/-- A move is on the agenda. -/
def Due (t : State) (e : Event) : Prop := ∃ q ∈ t.agenda, q.2 = e

/-- One instruction that writes one vector register in the active lanes: its length, its operands, its destination and what
lane `l` of it receives. -/
structure LaneRow where
  len : Nat
  ops : List Opnd
  dst : Nat
  val : Nat → Word

/-- `IADD vd, va, vb` and the like (R284); va is read through the XMOD permutation (R268). -/
def bin (s : State) (d a b : Nat) (f : Word → Word → Word) : Option LaneRow :=
  some ⟨4, opsBin d a b, d, fun l => f (lane (s.vaReg a) l) (lane (s.vreg b) l)⟩
/-- `IABS vd, va` and the like (R286). -/
def un (s : State) (d a : Nat) (f : Word → Word) : Option LaneRow :=
  some ⟨4, opsUn d a, d, fun l => f (lane (s.vaReg a) l)⟩
/-- `IADD.C16 vd, vs` stands for `IADD vd, vd, vs` (R257, R258). -/
def bin16 (s : State) (d b : Nat) (f : Word → Word → Word) : Option LaneRow :=
  some ⟨2, opsC16 d b, d, fun l => f (lane (s.vaReg d) l) (lane (s.vreg b) l)⟩
/-- `MOV.C16 vd, vs` stands for `MOV vd, vs` (R257, R258). -/
def un16 (s : State) (d b : Nat) (f : Word → Word) : Option LaneRow :=
  some ⟨2, opsC16Un d b, d, fun l => f (lane (s.vaReg b) l)⟩

/-- The shift count of R284: the low 8 bits of the operand; under the SHIFTWRAP erratum (R413) the low 5. -/
def count (s : State) (y : Word) : Nat := if s.compat 0 then y.toNat % 32 else y.toNat % 256
/-- a << n, of which 32 bits stay. -/
def shl (s : State) (x y : Word) : Word := BitVec.ofNat 32 (x.toNat * 2 ^ count s y)
/-- a >> n with zeros shifted in. -/
def shr (s : State) (x y : Word) : Word := BitVec.ofNat 32 (x.toNat / 2 ^ count s y)
/-- The signed value >> n with copies of the sign shifted in. -/
def sar (s : State) (x y : Word) : Word := BitVec.ofInt 32 (x.toInt / 2 ^ count s y)
/-- The signed sum, of which 32 bits stay. -/
def add (x y : Word) : Word := BitVec.ofInt 32 (x.toInt + y.toInt)
/-- The signed difference. -/
def sub (x y : Word) : Word := BitVec.ofInt 32 (x.toInt - y.toInt)
/-- The signed product. -/
def mul (x y : Word) : Word := BitVec.ofInt 32 (x.toInt * y.toInt)
/-- The smaller as a signed number. -/
def least (x y : Word) : Word := BitVec.ofInt 32 (min x.toInt y.toInt)
/-- The larger as a signed number. -/
def greatest (x y : Word) : Word := BitVec.ofInt 32 (max x.toInt y.toInt)
/-- The field of R287: w bits of `x` from bit pos up. -/
def field (x y : Word) : Nat := x.toNat / 2 ^ (y.toNat % 32) % 2 ^ min (y.toNat / 32 % 64) 32
/-- The width of the field of R287. -/
def width (y : Word) : Nat := min (y.toNat / 32 % 64) 32
/-- A number of `n` bits read as two's complement (R8). -/
def signed (n x : Nat) : Int := if n = 0 then 0 else if x < 2 ^ (n - 1) then x else (x : Int) - 2 ^ n

/-- The third source: vd, or vc under an XMOD (R267); Roltik-1 decodes no vc, and reads vd there too (R280). -/
def third (s : State) (d : Nat) : Nat :=
  match s.w.pre with
  | some x => if s.w.preVd then d else x.vc
  | none => d

/-- The integer lane instructions with one vector destination (R284 to R287, R291, R295, R258). -/
def integerLane (s : State) : Instr → Option LaneRow
  | .iadd d a b => bin s d a b add
  | .isub d a b => bin s d a b sub
  | .imul d a b => bin s d a b mul
  | .imulhI32 d a b => bin s d a b fun x y => BitVec.ofInt 32 (x.toInt * y.toInt / 2 ^ 32)
  | .imulhN32 d a b => bin s d a b fun x y => BitVec.ofNat 32 (x.toNat * y.toNat / 2 ^ 32)
  | .imin d a b => bin s d a b least
  | .imax d a b => bin s d a b greatest
  | .and d a b => bin s d a b fun x y => x &&& y
  | .or d a b => bin s d a b fun x y => x ||| y
  | .xor d a b => bin s d a b fun x y => x ^^^ y
  | .andn d a b => bin s d a b fun x y => x &&& ~~~y
  | .shl d a b => bin s d a b (shl s)
  | .shr d a b => bin s d a b (shr s)
  | .sar d a b => bin s d a b (sar s)
  | .rot d a b => bin s d a b fun x y =>
      BitVec.ofNat 32 (x.toNat * 2 ^ (y.toNat % 32) + x.toNat / 2 ^ (32 - y.toNat % 32))
  | .imad d a b =>
      let c := third s d
      some ⟨4, opsTern s.w .v d a b, d, fun l =>
        BitVec.ofInt 32 ((lane (s.vaReg a) l).toInt * (lane (s.vreg b) l).toInt + (lane (s.vreg c) l).toInt)⟩
  | .iabs d a => un s d a fun x => BitVec.ofNat 32 x.toInt.natAbs
  | .ineg d a => un s d a fun x => BitVec.ofInt 32 (-x.toInt)
  | .not d a => un s d a fun x => ~~~x
  | .clz d a => un s d a fun x => BitVec.ofNat 32 ((List.range 32).countP fun i => decide (x.toNat < 2 ^ i))
  | .popc d a => un s d a fun x => BitVec.ofNat 32 ((List.range 32).countP fun i => x.getLsbD i)
  | .brev d a => un s d a fun x => x.reverse
  | .mov d a => un s d a fun x => x
  | .bfxI32 d a b => bin s d a b fun x y => BitVec.ofInt 32 (signed (width y) (field x y))
  | .bfxN32 d a b => bin s d a b fun x y => BitVec.ofNat 32 (field x y)
  | .bfi d a b => some ⟨4, opsTernD d a b, d, fun l =>
      let x := lane (s.vaReg a) l
      let y := lane (s.vreg b) l
      let mask : Word := BitVec.ofNat 32 ((2 ^ width y - 1) * 2 ^ (y.toNat % 32))
      (lane (s.vreg d) l &&& ~~~mask) ||| (BitVec.ofNat 32 (x.toNat * 2 ^ (y.toNat % 32)) &&& mask)⟩
  | .icvtI8 d a => un s d a fun x => BitVec.ofInt 32 (signed 8 (x.toNat % 2 ^ 8))
  | .icvtI16 d a => un s d a fun x => BitVec.ofInt 32 (signed 16 (x.toNat % 2 ^ 16))
  | .icvtI32 d a => some ⟨4, [{ field := 0, kind := .v, reg := d, dst := true }, { field := 1, kind := .v2, reg := a, src := some 0 }],
      d, fun l => lane (s.vaReg a) l⟩
  | .iaddImm d a i => un s d a fun x => BitVec.ofInt 32 (x.toInt + signed 11 i)
  | .shlImm d a i => un s d a fun x => BitVec.ofNat 32 (x.toNat * 2 ^ i)
  | .movi d i => some ⟨4, [{ field := 0, kind := .v, reg := d, dst := true }], d, fun _ => BitVec.ofInt 32 (signed 18 i)⟩
  | .lih d i => some ⟨4, [{ field := 0, kind := .v, reg := d, src := some 2, dst := true }], d, fun l =>
      BitVec.ofNat 32 (i * 2 ^ 16 + (lane (s.vreg d) l).toNat % 2 ^ 16)⟩
  | .vlid d => some ⟨4, [{ field := 0, kind := .v, reg := d, dst := true }], d, fun l => BitVec.ofNat 32 l⟩
  | .lperm d a b => some ⟨4, opsBin d a b, d, fun l => lane (s.vaReg a) ((lane (s.vreg b) l).toNat % 32)⟩
  | .iaddC16 d b => bin16 s d b add
  | .isubC16 d b => bin16 s d b sub
  | .imulC16 d b => bin16 s d b mul
  | .andC16 d b => bin16 s d b fun x y => x &&& y
  | .orC16 d b => bin16 s d b fun x y => x ||| y
  | .xorC16 d b => bin16 s d b fun x y => x ^^^ y
  | .shlC16 d b => bin16 s d b (shl s)
  | .shrC16 d b => bin16 s d b (shr s)
  | .sarC16 d b => bin16 s d b (sar s)
  | .movC16 d b => un16 s d b fun x => x
  | .iminC16 d b => bin16 s d b least
  | .imaxC16 d b => bin16 s d b greatest
  | .notC16Roltik1 d b => un16 s d b fun x => ~~~x
  | _ => none

/-- The 64-bit value of the va pair in lane `l`, through the permutation (R66, R268). -/
def pairA (s : State) (a l : Nat) : Int := (lane (s.vaReg a) l).toNat + 2 ^ 32 * (lane (s.vaReg (a + 1)) l).toNat
/-- The 64-bit value of the vb pair. -/
def pairB (s : State) (b l : Nat) : Int := (lane (s.vreg b) l).toNat + 2 ^ 32 * (lane (s.vreg (b + 1)) l).toNat

/-- An instruction with a pair of vector registers as its destination: operands, pair, and what lane `l` of it receives. -/
structure PairRow where
  ops : List Opnd
  dst : Nat
  val : Nat → DWord

/-- The 64-bit integer instructions (R290) and ICVT.i64 (R286). -/
def integerPair (s : State) : Instr → Option PairRow
  | .iaddI64 d a b => some ⟨opsBin2 d a b, d, fun l => BitVec.ofInt 64 (pairA s a l + pairB s b l)⟩
  | .isubI64 d a b => some ⟨opsBin2 d a b, d, fun l => BitVec.ofInt 64 (pairA s a l - pairB s b l)⟩
  | .imulI64 d a b => some ⟨opsBin2 d a b, d, fun l => BitVec.ofInt 64 (pairA s a l * pairB s b l)⟩
  | .icvtI64 d a => some ⟨[{ field := 0, kind := .v2, reg := d, dst := true }, { field := 1, kind := .v, reg := a, src := some 0 }],
      d, fun l => BitVec.ofInt 64 (lane (s.vaReg a) l).toInt⟩
  | _ => none

/-- An instruction with a mask as its destination: operands, mask, and the bit of lane `l`. -/
structure MaskRow where
  ops : List Opnd
  dst : Nat
  val : Nat → Bool

/-- The operands of a mask instruction. -/
def masks2 (d a b : Nat) : List Opnd :=
  [{ field := 0, kind := .mw, reg := d }, { field := 1, kind := .m, reg := a }, { field := 2, kind := .m, reg := b }]
/-- The operands of a mask instruction with one source. -/
def masks1 (d a : Nat) : List Opnd := [{ field := 0, kind := .mw, reg := d }, { field := 1, kind := .m, reg := a }]

/-- ICMP (R289) and the mask instructions (R298). -/
def maskLane (s : State) : Instr → Option MaskRow
  | .icmpEq d a b => some ⟨opsCmp d a b, d, fun l => decide ((lane (s.vaReg a) l).toNat = (lane (s.vreg b) l).toNat)⟩
  | .icmpLtI32 d a b => some ⟨opsCmp d a b, d, fun l => decide ((lane (s.vaReg a) l).toInt < (lane (s.vreg b) l).toInt)⟩
  | .icmpLtN32 d a b => some ⟨opsCmp d a b, d, fun l => decide ((lane (s.vaReg a) l).toNat < (lane (s.vreg b) l).toNat)⟩
  | .mand d a b => some ⟨masks2 d a b, d, fun l => bit (s.mreg a) l && bit (s.mreg b) l⟩
  | .mor d a b => some ⟨masks2 d a b, d, fun l => bit (s.mreg a) l || bit (s.mreg b) l⟩
  | .mxor d a b => some ⟨masks2 d a b, d, fun l => bit (s.mreg a) l != bit (s.mreg b) l⟩
  | .mnot d a => some ⟨masks1 d a, d, fun l => !bit (s.mreg a) l⟩
  | .mmov d a => some ⟨masks1 d a, d, fun l => bit (s.mreg a) l⟩
  | _ => none

/-- An instruction with a scalar as its destination: operands, scalar and value. -/
structure ScalarRow where
  ops : List Opnd
  dst : Nat
  val : DWord

/-- sd from sa and sb. -/
def sc3 (s : State) (d a b : Nat) (f : DWord → DWord → DWord) : Option ScalarRow := some ⟨opsS3 d a b, d, f (s.sreg a) (s.sreg b)⟩
/-- sd from sa. -/
def sc2 (s : State) (d a : Nat) (f : DWord → DWord) : Option ScalarRow := some ⟨opsS2 d a, d, f (s.sreg a)⟩
/-- 1 if the relation holds, else 0. -/
def flag (b : Bool) : DWord := if b then 1 else 0

/-- The scalar instructions (R292 to R294), MPOP (R296) and JSRR (R317). -/
def scalar (s : State) : Instr → Option ScalarRow
  | .sadd d a b => sc3 s d a b fun x y => BitVec.ofInt 64 (x.toInt + y.toInt)
  | .ssub d a b => sc3 s d a b fun x y => BitVec.ofInt 64 (x.toInt - y.toInt)
  | .smul d a b => sc3 s d a b fun x y => BitVec.ofInt 64 (x.toInt * y.toInt)
  | .sand d a b => sc3 s d a b fun x y => x &&& y
  | .sor d a b => sc3 s d a b fun x y => x ||| y
  | .sxor d a b => sc3 s d a b fun x y => x ^^^ y
  | .sshl d a b => sc3 s d a b fun x y => BitVec.ofNat 64 (x.toNat * 2 ^ (y.toNat % 256))
  | .sshr d a b => sc3 s d a b fun x y => BitVec.ofNat 64 (x.toNat / 2 ^ (y.toNat % 256))
  | .smov d a => sc2 s d a fun x => x
  | .scmpEq d a b => sc3 s d a b fun x y => flag (decide (x.toNat = y.toNat))
  | .scmpLtI64 d a b => sc3 s d a b fun x y => flag (decide (x.toInt < y.toInt))
  | .scmpLtN64 d a b => sc3 s d a b fun x y => flag (decide (x.toNat < y.toNat))
  | .saddImm d a i => sc2 s d a fun x => BitVec.ofInt 64 (x.toInt + signed 15 i)
  | .sandImm d a i => sc2 s d a fun x => x &&& BitVec.ofInt 64 (signed 15 i)
  | .sshlImm d a i => sc2 s d a fun x => BitVec.ofNat 64 (x.toNat * 2 ^ i)
  | .smovi d i => some ⟨opsS1 d, d, BitVec.ofInt 64 (signed 20 i)⟩
  | .slih d i => some ⟨[{ field := 0, kind := .s, reg := d, src := some 3, dst := true }], d, BitVec.ofNat 64 ((s.sreg d).toNat * 2 ^ 20 + i)⟩
  | .mpop d a => some ⟨[{ field := 0, kind := .s, reg := d, dst := true }, { field := 1, kind := .m, reg := a }], d,
      BitVec.ofNat 64 ((List.range 32).countP fun l => bit s.w.active l && bit (s.mreg a) l)⟩
  | .jsrr d => some ⟨opsS1 d, d, s.w.jsr⟩
  | _ => none

/-- The tree T(lo, 2^k) of R89 over the active lanes, as REDUCE builds it (R91): a node with one absent child takes the
other's value. -/
def tree (op : Nat → Nat → Nat) (m : Word) (f : Nat → Nat) : Nat → Nat → Option Nat
  | 0, lo => if bit m lo then some (f lo) else none
  | k + 1, lo =>
    match tree op m f k lo, tree op m f k (lo + 2 ^ k) with
    | some x, some y => some (op x y)
    | some x, none => some x
    | none, y => y

/-- An FP32 pattern is a NaN: its exponent is all ones and its fraction is not 0 (R67). -/
def nan32 (x : Nat) : Bool := decide (0x7F800000 < x % 2 ^ 31)
/-- A NaN with the top bit of its fraction set (R68). -/
def quiet32 (x : Nat) : Bool := nan32 x && x.testBit 22
/-- A number that orders the FP32 patterns that are no NaNs, with −0 below +0. -/
def order32 (x : Nat) : Int := if x.testBit 31 then -(x % 2 ^ 31 : Int) - 1 else x % 2 ^ 31
/-- max of R90 on FP32 patterns: a NaN gives the canonical NaN, and max(−0, +0) = +0. -/
def largerOf (x y : Nat) : Nat := if nan32 x || nan32 y then 0x7FC00000 else if order32 x < order32 y then y else x
/-- min of R90: a NaN gives the canonical NaN, and min(−0, +0) = −0. -/
def smallerOf (x y : Nat) : Nat := if nan32 x || nan32 y then 0x7FC00000 else if order32 y < order32 x then y else x

/-- REDUCE on 32-bit values (R297): the node operation, and what is made of the root. -/
def reduce (s : State) : Instr → Option (Nat × Nat × (Nat → Nat → Nat) × (Nat → Nat))
  | .reduceAddI32 d a => some (d, a, fun x y => (x + y) % 2 ^ 32, id)
  | .reduceMaxI32 d a => some (d, a, fun x y => if (BitVec.ofNat 32 x).toInt < (BitVec.ofNat 32 y).toInt then y else x, id)
  | .reduceAddF32 d a => some (d, a, fun x y => ((rneOf fp32).add x y).1, canonical fp32)
  | .reduceMaxF32 d a => some (d, a, fun x y =>
      if s.compat 5 && quiet32 x != quiet32 y then (if quiet32 x then y else x) else largerOf x y,
      fun x => if nan32 x then 0x7FC00000 else x)
  | _ => none

/-- A branch, jump or return: operands, whether lane `l` is moved, and where (R299 to R301). -/
structure BranchRow where
  ops : List Opnd
  moved : Nat → Bool
  target : Nat → Word

/-- PC + 2 × sext(woff, 21) (R263). -/
def branchTarget (s : State) (w : Nat) : Word := BitVec.ofInt 32 (s.w.ipc + 2 * signed 21 w)

/-- BR (R299), BRS.Z and BRS.NZ (R300), JMP and RET (R301). -/
def branch (s : State) : Instr → Option BranchRow
  | .br c w => some ⟨[{ field := 0, kind := .m, reg := c }], fun l => bit (s.mreg c) l, fun _ => branchTarget s w⟩
  | .brsZ c w => some ⟨[{ field := 0, kind := .s, reg := c }], fun _ => decide (s.sreg c = 0), fun _ => branchTarget s w⟩
  | .brsNz c w => some ⟨[{ field := 0, kind := .s, reg := c }], fun _ => decide (s.sreg c ≠ 0), fun _ => branchTarget s w⟩
  | .jmp a => some ⟨[{ field := 1, kind := .v, reg := a, src := some 0 }], fun l => bit s.w.active l, fun l => lane (s.vaReg a) l⟩
  | .ret a => some ⟨[{ field := 1, kind := .v, reg := a, src := some 0 }], fun l => bit s.w.active l, fun l => lane (s.vaReg a) l⟩
  | _ => none

end Sys2Proof.Claims

/-- R284 to R287, R291, R295, R258: each integer lane instruction, once nothing stands before it, writes its value into the
active lanes of its destination, keeps the inactive lanes, marks the destination as the XMOD says (R177), moves the issuing
lanes to the next instruction, and changes nothing else. R290 and ICVT.i64 of R286: the 64-bit instructions write both registers
of the pair. -/
def Obligations.IntegerLaneResults : Prop :=
  (∀ (i : Instr) (s : State) (r : Claims.LaneRow), Claims.integerLane s i = some r → i.wellFormed = true →
     Ready s r.len r.ops none → Issues s →
     ∃ t, exec i s = .next t ∧ Wrote s t r.dst r.val ∧ Executed s t r.len [r.dst] [] [] false) ∧
  ∀ (i : Instr) (s : State) (r : Claims.PairRow), Claims.integerPair s i = some r → i.wellFormed = true →
    Ready s 4 r.ops none → Issues s →
    ∃ t, exec i s = .next t ∧ WrotePair s t r.dst r.val ∧ Executed s t 4 [r.dst, r.dst + 1] [] [] false

/-- R289, R298, R283: ICMP and the mask instructions write the active lanes' bits of md and keep the others. -/
def Obligations.MaskResults : Prop :=
  ∀ (i : Instr) (s : State) (r : Claims.MaskRow), Claims.maskLane s i = some r → i.wellFormed = true →
    Ready s 4 r.ops none → Issues s →
    ∃ t, exec i s = .next t ∧ WroteMask s t r.dst r.val ∧ Executed s t 4 [] [] [r.dst] false

/-- R292 to R294, MPOP (R296), JSRR (R317): the scalar destination receives the value of the rule, once per issue. -/
def Obligations.ScalarResults : Prop :=
  ∀ (i : Instr) (s : State) (r : Claims.ScalarRow), Claims.scalar s i = some r → i.wellFormed = true →
    Ready s 4 r.ops none → Issues s →
    ∃ t, exec i s = .next t ∧ t.w.sreg r.dst = r.val ∧ Executed s t 4 [] [r.dst] [] false

/-- R288: SEL writes every issuing lane, from va where the XMOD predicate selects it, else from vb. R296: VOTE writes whether some
active lane has its bit of ms set into the active lanes' bits of md; under the VOTEALL erratum (R413) into all of them. -/
def Obligations.SelAndVote : Prop :=
  (∀ (d a b : Nat) (s : State), (Instr.sel d a b).wellFormed = true → Ready s 4 (opsBin d a b) none → Issues s →
     ∃ t, exec (.sel d a b) s = .next t ∧ Executed s t 4 [d] [] [] false ∧ t.w.isEmpty d = s.w.dem ∧
       ∀ l, l < 32 → lane (t.w.vreg d) l =
         if bit s.w.issuing l then
           (if (match s.w.pre with
               | some x => decide (x.pm = 0) || bit (s.mreg x.pm) l != x.inv
               | none => true) then lane (s.vaReg a) l else lane (s.vreg b) l)
         else lane (s.vreg d) l) ∧
  (∀ (d a : Nat) (s : State), (Instr.vote d a).wellFormed = true → Ready s 4 (Claims.masks1 d a) none → Issues s →
     ∃ t, exec (.vote d a) s = .next t ∧ Executed s t 4 [] [] [d] false ∧
       ∀ l, l < 32 → bit (t.w.mreg d) l =
         if bit s.w.active l || s.compat 4 then
           (List.range 32).any fun j => bit s.w.active j && bit (s.mreg a) j
         else bit (s.mreg d) l)

/-- R297, R91: REDUCE writes the root of the tree over the active lanes into every active lane; REDUCE.ADD.f64 does so on pairs.
The maximum is that of R90, and under the REDMAXNAN erratum (R413) the other child of exactly one quiet NaN passes. -/
def Obligations.ReduceResults : Prop :=
  (∀ (i : Instr) (s : State) (d a : Nat) (op : Nat → Nat → Nat) (last : Nat → Nat),
     Claims.reduce s i = some (d, a, op, last) → i.wellFormed = true → Ready s 4 (opsUn d a) none → Issues s →
     ∃ t, exec i s = .next t ∧ Executed s t 4 [d] [] [] false ∧
       Wrote s t d fun _ => BitVec.ofNat 32
         (last ((Claims.tree op s.w.active (fun l => (lane (s.vaReg a) l).toNat) 5 0).getD 0))) ∧
  (∀ (d a : Nat) (s : State), (Instr.reduceAddF64 d a).wellFormed = true →
     Ready s 4 [{ field := 0, kind := .v2, reg := d, dst := true }, { field := 1, kind := .v2, reg := a, src := some 0 }] none →
     Issues s →
     ∃ t, exec (.reduceAddF64 d a) s = .next t ∧ Executed s t 4 [d, d + 1] [] [] false ∧
       WrotePair s t d fun _ => BitVec.ofNat 64 (canonical fp64
         ((Claims.tree (fun x y => ((rneOf fp64).add x y).1) s.w.active (fun l => (Claims.pairA s a l).toNat) 5 0).getD 0)))

/-- R299 to R301: a branch, jump or return sends each moved lane to its target and the other issuing lanes to the next
instruction; it ends a quantum if it moves a lane; it changes no register. R299: CALL moves lanes as BR does, and gives each moved
lane its link in v(8G − 1), which is marked full. R301: an odd target in an active lane refuses JMP and RET with code 0x10 before
any effect; the lowest such lane is reported. A group whose handler takes the cause enters it.

The model's choice: a branch target is computed modulo 2^32 (log 22). -/
def Obligations.ControlTransfers : Prop :=
  (∀ (i : Instr) (s : State) (r : Claims.BranchRow), Claims.branch s i = some r → i.wellFormed = true →
     Ready s 4 r.ops none → IssuesPlainly s →
     (∀ l, l < 32 → bit s.w.here l = true → r.moved l = true → (r.target l).toNat % 2 = 0) →
     ∃ t, exec i s = .next t ∧ Frame s t [] [] [] false ∧
       LanesAt s t (fun l => if r.moved l then r.target l else s.w.nextPc 4) ∧
       ((∃ l, l < 32 ∧ bit s.w.here l = true ∧ r.moved l = true) → t.w.quantum = none)) ∧
  (∀ (c w : Nat) (s : State), (Instr.call c w).wellFormed = true → s.w.granules ≤ 16 → s.w.pre = none →
     Ready s 4 [{ field := 0, kind := .m, reg := c }, { field := 7, kind := .v, reg := 8 * s.w.granules - 1, dst := true }] none →
     IssuesPlainly s →
     ∃ t, exec (.call c w) s = .next t ∧ Frame s t [8 * s.w.granules - 1] [] [] false ∧
       LanesAt s t (fun l => if bit (s.mreg c) l then Claims.branchTarget s w else s.w.nextPc 4) ∧
       t.w.isEmpty (8 * s.w.granules - 1) = false ∧
       ∀ l, l < 32 → lane (t.w.vreg (8 * s.w.granules - 1)) l =
         if bit s.w.here l && bit (s.mreg c) l then s.w.nextPc 4 else lane (s.vreg (8 * s.w.granules - 1)) l) ∧
  (∀ (a l : Nat) (i : Instr) (s : State), (i = .jmp a ∨ i = .ret a) → i.wellFormed = true →
     Ready s 4 [{ field := 1, kind := .v, reg := a, src := some 0 }] none → s.w.regen = [] →
     l < 32 → bit s.w.active l = true → (lane (s.vaReg a) l).toNat % 2 = 1 →
     (∀ j, j < l → bit s.w.active j = true → (lane (s.vaReg a) j).toNat % 2 = 0) →
     s.toHandler s.cur { cause := 0x02 } = true →
     ∃ t, exec i s = .next t ∧
       EnteredHandler s t s.cur s.w.ipc
         { cause := 0x02, info := BitVec.ofNat 64 (0x10 + 2 ^ 8 * 1 + 2 ^ 16 * a + 2 ^ 24 * l) })

/-- R303, R276: NOP, NOP.H1 and NOP.H2 move to the next instruction and do nothing else, whatever their operand fields hold. R302,
R165: EXIT retires the active lanes, the other issuing lanes continue; with no live lane left the wave ends: it is a member of no
set and holds no lock bit. No register changes. R170: YIELD moves its issuing lanes past it; if a lane then waits, the next issue
begins a quantum, else nothing else happens. R303, R175: SLEEP puts the active lanes to sleep past it. R175, R303: WAKE makes
every sleeping lane of every member of the set eligible, and touches no other wave's sleep. R304: ELECT makes the lowest active
lane the Nib lane and the issuing wave the set's tile issuer, and writes 2^nib whole into md; with no active lane it writes 0 and
leaves both as they are. -/
def Obligations.LanesStopAndResume : Prop :=
  (∀ (i : Instr) (s : State), (i = .nop ∨ (∃ a b c, i = .nopH1 a b c) ∨ ∃ a b c, i = .nopH2 a b c) →
     s.w.pre = none → Issues s → ∃ t, exec i s = .next t ∧ Executed s t 4 [] [] [] false) ∧
  (∀ (s : State), Ready s 4 [] (if s.w.handler then some (refusal 0x13) else none) → IssuesPlainly s →
     ∃ t, exec .exit s = .next t ∧ (t.wave s.cur).file = s.w.file ∧
       (∀ l, l < 32 → lane (t.wave s.cur).dx l =
         if bit s.w.here l then (if bit s.w.active l then 0xFFFFFFFF else s.w.nextPc 4) else lane s.w.dx l) ∧
       (s.w.live &&& ~~~s.w.active ≠ 0 → (t.wave s.cur).phase = s.w.phase) ∧
       (s.w.live &&& ~~~s.w.active = 0 → (t.wave s.cur).phase = .ended ∧
         (∀ n, ((t.core s.g.core).locks.get? n) ≠ some s.cur) ∧
         ∀ n, ((t.group s.w.group).set n).members.getLsbD s.w.wid = false)) ∧
  ((∀ (s : State), Ready s 4 [] none → IssuesPlainly s →
      ∃ t, exec .yield s = .next t ∧ Frame s t [] [] [] false ∧ MovedOn s t 4 ∧ t.w.sleeping = s.w.sleeping ∧
        t.w.quantumDue = (s.w.quantumDue || t.w.waitingLanes != 0)) ∧
   (∀ (s : State), Ready s 4 [] (if s.w.handler then some (refusal 0x13) else none) → IssuesPlainly s →
      ∃ t, exec .sleep s = .next t ∧ Frame s t [] [] [] false ∧ MovedOn s t 4 ∧ t.w.quantumDue = s.w.quantumDue ∧
        t.w.sleeping = s.w.sleeping ||| s.w.active) ∧
   (∀ (n : Nat) (s : State), (Instr.wake n).wellFormed = true → Ready s 4 [] none → IssuesPlainly s →
      ∃ t, exec (.wake n) s = .next t ∧ SameRegs s t [] [] [] false ∧ MovedOn s t 4 ∧
        ∀ k, (t.wave k).sleeping =
          if k ∈ s.wavesOf s.w.group ∧ (s.g.set n).members.getLsbD (s.wave k).wid = true then 0 else (s.wave k).sleeping)) ∧
  (∀ (n m : Nat) (s : State), (Instr.elect n m).wellFormed = true →
     Ready s 4 [{ field := 1, kind := .mw, reg := m }] none → (s.g.set n).members.getLsbD s.w.wid = true →
     s.w.handler = false → IssuesPlainly s →
     ∃ t, exec (.elect n m) s = .next t ∧ SameRegs s t [] [] [m] false ∧ MovedOn s t 4 ∧
       (∀ l, l < 32 → bit s.w.active l = true → (∀ j, j < l → bit s.w.active j = false) →
         t.w.nib = l ∧ t.w.mreg m = BitVec.twoPow 32 l ∧ ((t.group s.w.group).set n).issuer = some s.w.wid) ∧
       (s.w.active = 0 → t.w.mreg m = 0 ∧ (t.group s.w.group).set n = s.g.set n ∧
         (s.w.nib < 32 → lane s.w.dx s.w.nib ≠ 0xFFFFFFFF → t.w.nib = s.w.nib)))

/-- R171, R305: JOIN makes the issuing wave a member of the set and LEAVE removes it; no other wave's membership changes. R305,
R306: JOIN by a member, LEAVE, BAR and ELECT by a wave that is no member are refused with code 0x11. R172, R306: BAR is an arrival
at the set's current barrier. Where another counted wave has still to arrive, the wave waits there and is recorded as arrived;
where it is the last, the barrier is complete, and it continues with the others that wait. R173, R307: LBAR is an arrival at the
launch's current barrier: the wave waits there; the last counted arrival completes the barrier, and the clusters whose waves wait
at it start one after another (R218).

The model's choice: LBAR counts the waves of groups that are formed and wait in a launch queue (log 23). -/
def Obligations.SetsAndBarriers : Prop :=
  ((∀ (n : Nat) (join : Bool) (s : State), n < 16 → s.w.wid < 16 → s.w.phase = .run →
      (s.g.set n).members.getLsbD s.w.wid = !join → s.w.handler = false → Ready s 4 [] none → IssuesPlainly s →
      ∃ t, exec (if join then .join n else .leave n) s = .next t ∧ SameRegs s t [] [] [] false ∧ MovedOn s t 4 ∧
        ∀ k, ((t.group s.w.group).set n).members.getLsbD k =
          if k = s.w.wid then join else (s.g.set n).members.getLsbD k) ∧
   (∀ (n m : Nat) (i : Instr) (s : State), n < 16 → 1 ≤ m → m < 16 →
      ((i = .join n ∧ (s.g.set n).members.getLsbD s.w.wid = true) ∨
        ((i = .leave n ∨ i = .bar n ∨ i = .elect n m) ∧ (s.g.set n).members.getLsbD s.w.wid = false)) →
      s.w.regen = [] → s.w.mbusy = 0 → s.w.sdeferred = ⟨[]⟩ → s.w.checked = false →
      s.toHandler s.cur { cause := 0x02 } = true →
      ∃ t, exec i s = .next t ∧
        EnteredHandler s t s.cur s.w.ipc { cause := 0x02, info := BitVec.ofNat 64 (0x11 + 2 ^ 16 * n) })) ∧
  (∀ (n : Nat) (s : State), n < 16 → s.w.wid < 16 → (s.g.set n).members.getLsbD s.w.wid = true →
     s.w.together = true → s.w.handler = false → Ready s 4 [] none → IssuesPlainly s → Published s →
     s.g.admission = false → s.g.stopReq = none → s.cur ∈ s.wavesOf s.w.group →
     let m := s.g.set n
     let counted := if m.begun then m.counted else m.members
     counted.getLsbD s.w.wid = true →
     ∃ t, exec (.bar n) s = .next t ∧ (t.wave s.cur).file = s.w.file ∧
       ((∃ k, k < 16 ∧ k ≠ s.w.wid ∧ counted.getLsbD k = true ∧ m.arrived.getLsbD k = false) →
         (t.wave s.cur).phase = .bar n m.k none ∧ (t.wave s.cur).duct = s.w.duct ∧
         ((t.group s.w.group).set n).k = m.k ∧ ((t.group s.w.group).set n).arrived.getLsbD s.w.wid = true) ∧
       ((∀ k, k < 16 → k ≠ s.w.wid → counted.getLsbD k = true → m.arrived.getLsbD k = true) →
         ((t.group s.w.group).set n).k = m.k + 1 ∧
         (∀ k ∈ s.wavesOf s.w.group, (k = s.cur ∨ (s.wave k).phase = .bar n m.k none) → (t.wave k).phase = .run) ∧
         ∀ l, l < 32 → lane (t.wave s.cur).duct l = if bit s.w.eligible l then s.w.nextPc 4 else lane s.w.duct l)) ∧
  (∀ (s : State), s.w.together = true → s.w.handler = false → Ready s 4 [] none → IssuesPlainly s → Published s →
     s.g.admission = false → s.g.stopReq = none →
     let x := s.launch s.g.launch
     (x.lbegun = false ∨ s.cur ∈ x.lcounted) →
     let counted := if x.lbegun then x.lcounted else s.launchWaves s.g.launch
     ∃ t, exec .lbar s = .next t ∧ (t.wave s.cur).phase = .lbar x.lk none ∧ (t.wave s.cur).file = s.w.file ∧
       (t.wave s.cur).duct = s.w.duct ∧
       ((∃ k ∈ counted, k ≠ s.cur ∧ k ∉ x.larrived) →
         (t.launch s.g.launch).lk = x.lk ∧ s.cur ∈ (t.launch s.g.launch).larrived ∧ t.starts = s.starts) ∧
       ((∀ k ∈ counted, k ≠ s.cur → k ∈ x.larrived) →
         (t.launch s.g.launch).lk = x.lk + 1 ∧
         let cs := (List.range 96).filter fun c => t.waves.rows.any fun p =>
           decide ((t.group p.2.group).launch = s.g.launch) && decide ((t.group p.2.group).core / 4 = c) &&
             decide ((t.group p.2.group).phase = .resident) && decide (p.2.phase = .lbar x.lk none)
         t.starts = s.starts ++ (rotate (x.lk % max 1 cs.length) cs).map fun c =>
           { cluster := c, barrier := some (s.g.launch, x.lk) }))

namespace Sys2Proof.Claims

/-! ### Floating-point and jet instructions -/

/-- A trap of the issuing wave goes to the ring of the nearest of some contexts that takes faults, or to the partition's front
end, and the wave stops at the instruction for a verdict on a new ticket; `refl`: the trap is reflected (R238, R239). -/
def ReportedTo (s t : State) (x : Trap) (chain : List Nat) (refl : Bool) : Prop :=
  let g := s.g
  let e : RingEntry :=
    { ctx := g.ctx, tcause := x.cause + (if s.w.handler then 2 ^ 8 else 0) + (if refl then 2 ^ 9 else 0), tepc := s.w.ipc, taddr := x.addr
      tinfo := x.info, gid := g.gid, word2c := s.w.wid + 2 ^ 8 * g.node + 2 ^ 16 * (s.ctx g.ctx).depth, ticket := s.nextTicket }
  t.w.phase = .verdict s.nextTicket ∧ t.w.dx = s.w.dx ∧ t.w.hdx = s.w.hdx ∧ t.w.handler = s.w.handler ∧ t.w.file = s.w.file ∧
    t.nextTicket = s.nextTicket + 1 ∧
    match chain.find? fun c => (s.ctx c).fltEn with
    | some r => (t.ctx r).ringQ = (s.ctx r).ringQ ++ [e]
    | none => (t.frontEnd (s.partition g.ctx)).event = e

/-- A trap of the issuing wave is reflected: it goes to the ring of the parent, or on from there (R238, R239). -/
def Reflected (s t : State) (x : Trap) : Prop := ReportedTo s t x (s.chain s.g.ctx).tail true

/-- The issuing wave takes a trap (R236, R238): in its handler, else in the ring of the owner of the level that failed, else
reflected. -/
def Takes (s t : State) (x : Trap) : Prop :=
  (s.toHandler s.cur x = true → EnteredHandler s t s.cur s.w.ipc x) ∧
    (s.toHandler s.cur x = false →
      (∀ o, x.owner = some o → o ≠ s.g.ctx → ReportedTo s t x (s.chain o) false) ∧
      ((∀ o, x.owner = some o → o = s.g.ctx) → Reflected s t x))

/-- A floating-point instruction that writes vector registers: its length, its operands, whether an element is a pair, the
first destination register, how many elements it writes, and the elements and flags of lane `l`, the flags in the layout
of JSR (R311, R315). -/
structure FloatRow where
  len : Nat := 4
  ops : List Opnd
  wide : Bool
  dst : Nat
  n : Nat
  out : Nat → List Nat × Nat

/-- Coefficients 0 to k of the va jet in lane `l`, through the permutation (R310, R268). -/
def jetA (s : State) (wide : Bool) (a l : Nat) : List Nat := jetVal s.vaReg wide a s.w.order l
/-- Coefficients 0 to k of another jet in lane `l`. -/
def jetB (s : State) (wide : Bool) (b l : Nat) : List Nat := jetVal s.vreg wide b s.w.order l
/-- A format under RM and FTZ of FPCTL (R70, R71). -/
def fpAs (s : State) (F : Fmt) : Fp := { F := F, R := s.w.rounding }

/-- A jet instruction with two sources. -/
def jet2 (s : State) (wide : Bool) (d a b : Nat) (f : Fp → Nat → List Nat → List Nat → LaneOut) : Option FloatRow :=
  some { ops := opsJet3 (jetKind wide) d a b, wide := wide, dst := d, n := s.w.order + 1
         out := fun l => f (fpAs s (fmtOf wide)) s.w.order (jetA s wide a l) (jetB s wide b l) }
/-- A jet instruction with one source. -/
def jet1 (s : State) (wide : Bool) (d a : Nat) (f : Fp → Nat → List Nat → LaneOut) : Option FloatRow :=
  some { ops := opsJet2 (jetKind wide) (jetKind wide) d a, wide := wide, dst := d, n := s.w.order + 1
         out := fun l => f (fpAs s (fmtOf wide)) s.w.order (jetA s wide a l) }
/-- A jet instruction with one source, of whose coefficients it reads `len` from `i` on (R310, R335). -/
def jetPart (s : State) (wide : Bool) (d a i len : Nat) (f : Fp → Nat → List Nat → LaneOut) : Option FloatRow :=
  some { ops := opsJet2 (jetKind wide) (jetKind wide) d a (some (i, len)), wide := wide, dst := d, n := s.w.order + 1
         out := fun l => f (fpAs s (fmtOf wide)) s.w.order (jetA s wide a l) }
/-- A jet instruction that reads coefficient 0 of its source alone. -/
def jet0 (s : State) (wide : Bool) (d a : Nat) (f : Fp → Nat → List Nat → LaneOut) : Option FloatRow :=
  some { ops := opsJet2 (jetKind wide) (jetKind wide) d a (some (0, 1)), wide := wide, dst := d, n := s.w.order + 1
         out := fun l => f (fpAs s (fmtOf wide)) s.w.order [laneVal s.vaReg wide a l] }
/-- FFMA (R320). -/
def jet3 (s : State) (wide : Bool) (rm : Nat) (d a b : Nat) : Option FloatRow :=
  let z := third s d
  some { ops := opsTern s.w (jetKind wide) d a b, wide := wide, dst := d, n := s.w.order + 1
         out := fun l => jetFma { F := fmtOf wide, R := { s.w.rounding with rm := rm } } s.w.order (jetA s wide a l)
           (jetB s wide b l) (jetB s wide z l) }
/-- A C16 form: vd is also the first source (R257, R258). -/
def jet16 (s : State) (d b : Nat) (f : Fp → Nat → List Nat → List Nat → LaneOut) : Option FloatRow :=
  some { len := 2, wide := false, dst := d, n := s.w.order + 1
         ops := [{ field := 0, kind := .f, reg := d, top := 63, src := some 0, dst := true },
           { field := 2, kind := .f, reg := b, top := 31, src := some 1 }]
         out := fun l => f (fpAs s fp32) s.w.order (jetA s false d l) (jetB s false b l) }
/-- An instruction whose result is one 32-bit value; its flags go to column 0 (R311). -/
def value (d : Nat) (ops : List Opnd) (f : Nat → Nat × Nat) : Option FloatRow :=
  some { ops := ops, wide := false, dst := d, n := 1, out := fun l => ([(f l).1], (f l).2) }
/-- Both elements of a packed pair, with the flags of both (R331, R332). -/
def both (f : Nat → Nat × Nat) : Nat × Nat := ((f 0).1 + 2 ^ 16 * (f 1).1, (f 0).2 ||| (f 1).2)
/-- Element `e` of a packed pair (R66). -/
def half (x : Word) (e : Nat) : Nat := x.toNat / 2 ^ (16 * e) % 2 ^ 16
/-- HADD2 and HMUL2 (R332). -/
def pack2 (s : State) (F : Fmt) (d a b : Nat) (f : Fp → Nat → Nat → Nat × Nat) : Option FloatRow :=
  value d (opsJet3 .p d a b) fun l => both fun e => f (fpAs s F) (half (lane (s.vaReg a) l) e) (half (lane (s.vreg b) l) e)
/-- HFMA2 (R332). -/
def pack3 (s : State) (F : Fmt) (d a b : Nat) : Option FloatRow :=
  let z := third s d
  value d (opsTern s.w .p d a b) fun l => both fun e =>
    (fpAs s F).fma (half (lane (s.vaReg a) l) e) (half (lane (s.vreg b) l) e) (half (lane (s.vreg z) l) e)
/-- The sign bit of a pattern inverted. -/
def flip (wide : Bool) (x : Nat) : Nat := x ^^^ 2 ^ (if wide then 63 else 31)
/-- FNEG (R327). -/
def negate (wide : Bool) (k : Nat) (a : List Nat) : LaneOut := ((List.range (k + 1)).map fun j => flip wide (at' a j), 0)
/-- FABS (R327). -/
def absolute (wide : Bool) (k : Nat) (a : List Nat) : LaneOut :=
  if (at' a 0).testBit (if wide then 63 else 31) then negate wide k a else ((List.range (k + 1)).map fun j => at' a j, 0)

/-- The floating-point instructions with a vector destination (R318 to R328, R331 to R333, R335, and their C16 forms). -/
def float (s : State) : Instr → Option FloatRow
  | .faddF32 d a b => jet2 s false d a b jetAdd
  | .fsubF32 d a b => jet2 s false d a b jetSub
  | .fmulF32 d a b => jet2 s false d a b jetMul
  | .ffmaF32 d a b => jet3 s false s.w.rounding.rm d a b
  | .fdivF32 d a b => jet2 s false d a b jetDiv
  | .fminF32 d a b => jet2 s false d a b jetMin
  | .fmaxF32 d a b => jet2 s false d a b jetMax
  | .frcpF32 d a => jet1 s false d a jetRcp
  | .fsqrtF32 d a => jet1 s false d a jetSqrt
  | .frsqF32 d a => jet1 s false d a jetRsq
  | .fabsF32 d a => jet1 s false d a fun _ => absolute false
  | .fnegF32 d a => jet1 s false d a fun _ => negate false
  | .froundF32 d a => jet0 s false d a fun c k x =>
      ((roundNum c (at' x 0)).1 :: List.replicate k 0, (roundNum c (at' x 0)).2)
  | .ffmaF32Rn d a b => jet3 s false 0 d a b
  | .ffmaF32Rz d a b => jet3 s false 1 d a b
  | .faddF64 d a b => jet2 s true d a b jetAdd
  | .fsubF64 d a b => jet2 s true d a b jetSub
  | .fmulF64 d a b => jet2 s true d a b jetMul
  | .ffmaF64 d a b => jet3 s true s.w.rounding.rm d a b
  | .fdivF64 d a b => jet2 s true d a b jetDiv
  | .fminF64 d a b => jet2 s true d a b jetMin
  | .fmaxF64 d a b => jet2 s true d a b jetMax
  | .fsqrtF64 d a => jet1 s true d a jetSqrt
  | .fabsF64 d a => jet1 s true d a fun _ => absolute true
  | .fnegF64 d a => jet1 s true d a fun _ => negate true
  | .fexpF32 d a => jet1 s false d a jetExp
  | .flogF32 d a => jet1 s false d a jetLog
  | .fsinF32 d a => jet1 s false d a jetSin
  | .fcosF32 d a => jet1 s false d a jetCos
  | .ftanhF32 d a => jet1 s false d a jetTanh
  | .fcvtF64F32 d a => some ⟨4, opsJet2 .d .f d a, true, d, s.w.order + 1, fun l =>
      series s.w.order fun j _ => (fpAs s fp64).convert fp32 (at' (jetA s false a l) j)⟩
  | .fcvtF32F64 d a => some ⟨4, opsJet2 .f .d d a, false, d, s.w.order + 1, fun l =>
      series s.w.order fun j _ => (fpAs s fp32).convert fp64 (at' (jetA s true a l) j)⟩
  | .fcvtF32I32 d a => some ⟨4, opsJet2 .f .v d a, false, d, s.w.order + 1, fun l =>
      let r := (fpAs s fp32).ofInt (lane (s.vaReg a) l).toInt
      (r.1 :: List.replicate s.w.order 0, r.2)⟩
  | .fcvtF32N32 d a => some ⟨4, opsJet2 .f .v d a, false, d, s.w.order + 1, fun l =>
      let r := (fpAs s fp32).ofInt (lane (s.vaReg a) l).toNat
      (r.1 :: List.replicate s.w.order 0, r.2)⟩
  | .fcvtI32F32 d a => value d (opsJet2 .v .f d a (some (0, 1))) fun l =>
      toI32 (fpAs s fp32) (if s.compat 1 then 2 ^ 31 else 0) (laneVal s.vaReg false a l)
  | .fcvtN32F32 d a => value d (opsJet2 .v .f d a (some (0, 1))) fun l => toN32 (fpAs s fp32) (laneVal s.vaReg false a l)
  | .fcvtBf16F32 d a b =>
      value d [{ field := 0, kind := .p, reg := d, dst := true }, { field := 1, kind := .v, reg := a, src := some 0 },
        { field := 2, kind := .v, reg := b, src := some 1 }] fun l => both fun e =>
          (fpAs s bf16).convert fp32 (if e = 0 then (lane (s.vaReg a) l).toNat else (lane (s.vreg b) l).toNat)
  | .fcvtF16F32 d a b =>
      value d [{ field := 0, kind := .p, reg := d, dst := true }, { field := 1, kind := .v, reg := a, src := some 0 },
        { field := 2, kind := .v, reg := b, src := some 1 }] fun l => both fun e =>
          (fpAs s fp16).convert fp32 (if e = 0 then (lane (s.vaReg a) l).toNat else (lane (s.vreg b) l).toNat)
  | .fcvtF32F16 d a e => value d (opsJet2 .v .p d a) fun l => (fpAs s fp32).convert fp16 (half (lane (s.vaReg a) l) e)
  | .hadd2Bf16 d a b => pack2 s bf16 d a b Fp.add
  | .hmul2Bf16 d a b => pack2 s bf16 d a b Fp.mul
  | .hfma2Bf16 d a b => pack3 s bf16 d a b
  | .hadd2F16 d a b => pack2 s fp16 d a b Fp.add
  | .hmul2F16 d a b => pack2 s fp16 d a b Fp.mul
  | .hfma2F16 d a b => pack3 s fp16 d a b
  | .jseedF32 d a => jet0 s false d a jetSeed
  | .jseedF64 d a => jet0 s true d a jetSeed
  | .jdiffF32 d a => jetPart s false d a 1 s.w.order jetDiff
  | .jdiffF64 d a => jetPart s true d a 1 s.w.order jetDiff
  | .jintegF32 d a => jetPart s false d a 0 s.w.order jetInteg
  | .jintegF64 d a => jetPart s true d a 0 s.w.order jetInteg
  | .jfactF32 d a => jet1 s false d a jetFact
  | .jfactF64 d a => jet1 s true d a jetFact
  | .faddF32C16 d b => jet16 s d b jetAdd
  | .fsubF32C16 d b => jet16 s d b jetSub
  | .fmulF32C16 d b => jet16 s d b jetMul
  | .fmaxF32C16 d b => jet16 s d b jetMax
  | _ => none

/-- The registers that a floating-point instruction writes. -/
def FloatRow.regs (r : FloatRow) : List Nat :=
  (List.range (if r.wide then 2 * r.n else r.n)).map (r.dst + ·)
/-- What register `dst + i` of a floating-point result receives in lane `l`. -/
def FloatRow.word (r : FloatRow) (i l : Nat) : Word :=
  if r.wide then BitVec.ofNat 32 (at' (r.out l).1 (i / 2) / 2 ^ (32 * (i % 2))) else BitVec.ofNat 32 (at' (r.out l).1 i)
/-- A lane's flags hold one, in column `j`, whose trap is enabled in FPCTL (R70, R312). -/
def enabledIn (s : State) (fl j : Nat) : Bool := bits fl (8 * j + 4) (8 * j) &&& bits s.w.fpctl.toNat 8 4 != 0
/-- A lane's flags hold one whose trap is enabled. -/
def enabled (s : State) (fl : Nat) : Bool := (List.range 8).any (enabledIn s fl)
/-- The flags of all active lanes. -/
def allFlags (s : State) (out : Nat → List Nat × Nat) : Nat := (lanesIn s.w.active).foldr (fun l x => (out l).2 ||| x) 0

/-- The comparisons (R330): whether the elements are pairs, whether only a signalling NaN is invalid, operands, mask, and the
relation. -/
def compare : Instr → Option (Bool × Bool × Nat × Nat × Nat × (Machine.Num → Machine.Num → Bool))
  | .fcmpEqF32 d a b => some (false, true, d, a, b, eqNum)
  | .fcmpLtF32 d a b => some (false, false, d, a, b, ltNum)
  | .fcmpLeF32 d a b => some (false, false, d, a, b, fun x y => ltNum x y || eqNum x y)
  | .fcmpEqF64 d a b => some (true, true, d, a, b, eqNum)
  | .fcmpLtF64 d a b => some (true, false, d, a, b, ltNum)
  | .fcmpLeF64 d a b => some (true, false, d, a, b, fun x y => ltNum x y || eqNum x y)
  | _ => none
/-- The result bit and the flags of a comparison of two patterns (R330). -/
def compared (c : Fp) (quiet : Bool) (rel : Machine.Num → Machine.Num → Bool) (x y : Nat) : Bool × Nat :=
  let nan := (c.read x).isNan || (c.read y).isNan
  let sig := (c.read x).isSig || (c.read y).isSig
  (!nan && rel (c.read x) (c.read y), if sig || (nan && !quiet) then 1 else 0)

/-- The instructions that move or classify bits (R329, R334): operands, the coefficient index that is checked, whether an
element is a pair, the destination, and the element of lane `l`. -/
def bitMove (s : State) : Instr → Option (List Opnd × Nat × Bool × Nat × (Nat → Nat))
  | .fclassF32 d a => some (opsJet2 .v .f d a (some (0, 1)), 0, false, d, fun l =>
      let x := laneVal s.vaReg false a l
      let neg := x.testBit 31
      let e := bits x 30 23
      let f := bits x 22 0
      2 ^ (if e = 255 then (if f = 0 then (if neg then 0 else 7) else if f < 2 ^ 22 then 8 else 9)
        else if e = 0 then (if f = 0 then (if neg then 3 else 4) else if neg then 2 else 5)
        else if neg then 1 else 6))
  | .jextF32 d a n => some (opsJet2 .v .f d a (some (n, 1)), n, false, d, fun l => laneVal s.vaReg false (a + n) l)
  | .jextF64 d a n => some (opsJet2 .v2 .d d a (some (n, 1)), n, true, d, fun l => laneVal s.vaReg true (a + 2 * n) l)
  | .jinsF32 d a n => some ([{ field := 0, kind := .f, reg := d, dst := true, sel := some (n, 1) },
      { field := 1, kind := .v, reg := a, src := some 0 }], n, false, d + n, fun l => laneVal s.vaReg false a l)
  | .jinsF64 d a n => some ([{ field := 0, kind := .d, reg := d, dst := true, sel := some (n, 1) },
      { field := 1, kind := .v2, reg := a, src := some 0 }], n, true, d + 2 * n, fun l => laneVal s.vaReg true a l)
  | _ => none

/-- s := rnd(a_0 × b_j); for i := 1 to n: s := rnd(a_i × b_(j−i) + s) (R319). -/
def cauchy (c : Fp) (a b : List Nat) (j : Nat) : Nat → Nat
  | 0 => (c.mul (at' a 0) (at' b j)).1
  | n + 1 => (c.fma (at' a (n + 1)) (at' b (j - (n + 1))) (cauchy c a b j n)).1
/-- s := d_j; n times, for i := 0, 1, …: s := rnd(a_i × b_(j−i) + s) (R320). -/
def fused (c : Fp) (a b : List Nat) (d j : Nat) : Nat → Nat
  | 0 => d
  | n + 1 => (c.fma (at' a n) (at' b (j - n)) (fused c a b d j n)).1
/-- s := a_j; n times, for i := 1, 2, …: s := rnd(−b_i × r_(j−i) + s) (R321, R322). -/
def drained (c : Fp) (a b r : List Nat) (j : Nat) : Nat → Nat
  | 0 => at' a j
  | n + 1 => (c.fma (c.neg (at' b (n + 1))) (at' r (j - (n + 1))) (drained c a b r j n)).1

/-- s := rnd(y_1 × x_(j−1)); n times, for i := 2, 3, …: s := rnd(y_i × x_(j−i) + s), where y_i := rnd(i × a_i) (R325). -/
def weighted (c : Fp) (a x : List Nat) (j : Nat) : Nat → Nat
  | 0 => (c.mul (c.mul (c.nat 1) (at' a 1)).1 (at' x (j - 1))).1
  | n + 1 => (c.fma (c.mul (c.nat (n + 2)) (at' a (n + 2))).1 (at' x (j - (n + 2))) (weighted c a x j n)).1
/-- t := +0; n times, for i := 1, 2, …: t := rnd(z_i × a_(j−i) + t), where z_i := rnd(i × r_i) (R325). -/
def logSum (c : Fp) (a r : List Nat) (j : Nat) : Nat → Nat
  | 0 => 0
  | n + 1 => (c.fma (c.mul (c.nat (n + 1)) (at' r (n + 1))).1 (at' a (j - (n + 1))) (logSum c a r j n)).1
/-- w_0 := rnd(−r_0 × r_0 + 1); w_j := −s for the product s of r with itself (R325). -/
def tanhDual (c : Fp) (r : List Nat) (j : Nat) : Nat :=
  if j = 0 then (c.fma (c.neg (at' r 0)) (at' r 0) c.F.one).1 else c.neg (cauchy c r r j j)
/-- A pattern as it is read and delivered: a NaN canonical, a subnormal a zero of its sign under FTZ (R68, R72). -/
def asRead (c : Fp) (x : Nat) : Nat :=
  if (c.read x).isNan then c.F.nan
  else if c.R.ftz && isSubnormal c.F x then x / c.F.signBit % 2 * c.F.signBit
  else x % (2 * c.F.signBit)
/-- The order of the patterns that are no NaNs, with −0 below +0 (R326). -/
def rank (c : Fp) (x : Nat) : Int :=
  let m := asRead c x % c.F.signBit
  if x / c.F.signBit % 2 = 1 then -(m : Int) - 1 else m
/-- The value (−1)^neg × m × 2^e. -/
def valueOf (neg : Bool) (m : Nat) (e : Int) : Rat := (if neg then -1 else 1) * (m : Rat) * (2 : Rat) ^ e

/-- What stands in JSR for an instruction: its length, its operands, and the flags of lane `l`. -/
def raised (s : State) (i : Instr) : Option (Nat × List Opnd × (Nat → Nat)) :=
  match float s i, compare i with
  | some r, _ => some (r.len, r.ops, fun l => (r.out l).2)
  | none, some (wide, quiet, d, a, b, rel) => some (4,
      [{ field := 0, kind := .mw, reg := d }, { field := 1, kind := jetKind wide, reg := a, src := some 0, sel := some (0, 1) },
        { field := 2, kind := jetKind wide, reg := b, src := some 1, sel := some (0, 1) }],
      fun l => (compared (fpAs s (fmtOf wide)) quiet rel (laneVal s.vaReg wide a l) (laneVal s.vreg wide b l)).2)
  | none, none => none

/-! ### Rounding -/

/-- The largest finite value of a format of IEEE 754 (R67). -/
def largest (F : Fmt) : Rat := (2 - (2 : Rat) ^ (-(F.fw : Int))) * (2 : Rat) ^ F.bias
/-- The smallest normal value. -/
def smallest (F : Fmt) : Rat := (2 : Rat) ^ (1 - (F.bias : Int))
/-- RM rounds a value of the sign away from zero. -/
def away (rm : Nat) (neg : Bool) : Bool := (rm == 2 && neg) || (rm == 3 && !neg)
/-- A value that RM rounds, with unbounded exponent, beyond the largest finite one (R69). -/
def Huge (F : Fmt) (rm : Nat) (neg : Bool) (v : ℝ) : Prop :=
  let top : ℝ := largest F
  let ulp : ℝ := (2 : Rat) ^ ((F.bias : Int) - F.fw)
  if away rm neg then top < |v| else if rm = 0 then top + ulp / 2 ≤ |v| else top + ulp ≤ |v|
/-- A value that RM rounds, with unbounded exponent, below the smallest normal one (R69, R72). -/
def Tiny (F : Fmt) (rm : Nat) (neg : Bool) (v : ℝ) : Prop :=
  let low : ℝ := smallest F
  let ulp : ℝ := low * (2 : Rat) ^ (-(F.fw : Int) - 1)
  if away rm neg then |v| ≤ low - ulp else if rm = 0 then |v| < low - ulp / 2 else |v| < low
/-- `x` is the one among the finite values of a format that RM asks for in place of `v`: the nearest, with ties to the even
pattern `p`; or the nearest that is not beyond `v` in the direction toward zero, −∞ or +∞ (R8, R71). -/
def Nearest (F : Fmt) (rm : Nat) (v x : ℝ) (p : Nat) : Prop :=
  ∀ (y : Nat) (n2 : Bool) (m2 : Nat) (e2 : Int), y < 2 * F.signBit → unpack F y = .fin n2 m2 e2 →
    let w : ℝ := valueOf n2 m2 e2
    (rm = 0 → |x - v| ≤ |w - v| ∧ (|x - v| = |w - v| → w ≠ x → p % 2 = 0)) ∧
    (rm = 1 → |x| ≤ |v| ∧ 0 ≤ x * v ∧ (0 ≤ w * v → |w| ≤ |v| → |w| ≤ |x|)) ∧
    (rm = 2 → x ≤ v ∧ (w ≤ v → w ≤ x)) ∧
    (rm = 3 → v ≤ x ∧ (v ≤ w → x ≤ w))
/-- A non-zero value rounded into a format of IEEE 754, with its flags (R69, R71, R72): overflow, a flush, or the value that
RM asks for. -/
def Rounded (F : Fmt) (R : Rounding) (v : ℝ) (r : Nat × Nat) : Prop :=
  let neg := decide (v < 0)
  (Huge F R.rm neg v → r = (if R.rm = 0 ∨ away R.rm neg = true then F.inf neg else F.big neg, 20)) ∧
  (Tiny F R.rm neg v → R.ftz = true → r = (F.zero neg, 24)) ∧
  (¬Huge F R.rm neg v → ¬(Tiny F R.rm neg v ∧ R.ftz = true) → r.1 < 2 * F.signBit ∧
    ∃ (m : Nat) (e : Int), unpack F r.1 = .fin neg m e ∧ Nearest F R.rm v (valueOf neg m e) r.1 ∧
      ((valueOf neg m e : ℝ) = v → r.2 = 0) ∧
      ((valueOf neg m e : ℝ) ≠ v → Tiny F R.rm neg v → r.2 = 24) ∧
      ((valueOf neg m e : ℝ) ≠ v → ¬Tiny F R.rm neg v → r.2 = 16))
/-- A pattern is read as a finite value. -/
def Reads (c : Fp) (x : Nat) (neg : Bool) (v : Rat) : Prop := ∃ m e, c.read x = .fin neg m e ∧ v = valueOf neg m e
/-- A result: a rounded value, or a zero of a sign without a flag. -/
def Gives (c : Fp) (v : ℝ) (zero : Bool) (r : Nat × Nat) : Prop :=
  (v = 0 → r = (c.F.zero zero, 0)) ∧ (v ≠ 0 → Rounded c.F c.R v r)

end Sys2Proof.Claims

/-- R310, R311: a floating-point instruction, once nothing stands before it and no flag with an enabled trap is raised, writes
elements 0 to k of its destination in the active lanes and no register beyond, ORs the flags of the active lanes into JSR, and
changes nothing else; the replay of a recipe sets no flag (R191). -/
def Obligations.FloatResults : Prop :=
  ∀ (i : Instr) (s : State) (r : Claims.FloatRow), Claims.float s i = some r → i.wellFormed = true →
    Ready s r.len r.ops none → Issues s →
    (s.w.regen = [] → ∀ l, l < 32 → bit s.w.active l = true → Claims.enabled s (r.out l).2 = false) →
    ∃ t, exec i s = .next t ∧ Executed s t r.len r.regs [] [] true ∧
      (∀ q ∈ r.regs, Wrote s t q fun l => r.word (q - r.dst) l) ∧
      t.w.jsr = if s.w.regen = [] then s.w.jsr ||| BitVec.ofNat 64 (Claims.allFlags s r.out) else s.w.jsr

/-- R312: a floating-point instruction or a comparison that raises a flag whose trap is enabled takes a FLOAT trap and has no
effect: it enters the handler that takes it, else it is reflected. TINFO names the lowest lane that raised one, with the lowest
column that holds one in that lane; of the flags, the 40 bits of columns 0 to 4 are kept (log 34: the model's choice for higher
orders). -/
def Obligations.FloatTrapHasNoEffect : Prop :=
  ∀ (i : Instr) (s : State) (len : Nat) (os : List Opnd) (f : Nat → Nat) (l j : Nat), Claims.raised s i = some (len, os, f) →
    i.wellFormed = true → Ready s len os none → s.w.regen = [] → l < 32 → bit s.w.active l = true → j < 8 →
    (∀ k, k < l → bit s.w.active k = true → Claims.enabled s (f k) = false) →
    Claims.enabledIn s (f l) j = true → (∀ k, k < j → Claims.enabledIn s (f l) k = false) →
    let x : Trap :=
      { cause := 0x09
        info := BitVec.ofNat 64 (Claims.allFlags s (fun k => ([], f k)) % 2 ^ 40 + 2 ^ 40 * l + 2 ^ 45 * j) }
    (s.toHandler s.cur x = true → ∃ t, exec i s = .next t ∧ SameMemory s t s.g.core ∧ EnteredHandler s t s.cur s.w.ipc x) ∧
    (s.toHandler s.cur x = false → ∃ t, exec i s = .next t ∧ SameMemory s t s.g.core ∧ Claims.Reflected s t x)

/-- R330: FCMP writes the active lanes' bits of md with the relation of coefficient 0; a NaN makes it false; .LT and .LE raise
invalid on any NaN, .EQ on a signalling one, in column 0. R329, R334: FCLASS writes exactly one class bit from the stored bits of
coefficient 0; JEXT and JINS move the bits of coefficient n; none of them raises a flag. R316: SETJORD sets JORD.K and changes no
other register. R317: JSRC clears the flags that the scalar names. -/
def Obligations.ComparisonsMovesAndOrders : Prop :=
  (∀ (i : Instr) (s : State) (wide quiet : Bool) (d a b : Nat) (rel : Machine.Num → Machine.Num → Bool),
     Claims.compare i = some (wide, quiet, d, a, b, rel) → i.wellFormed = true →
     Ready s 4 [{ field := 0, kind := .mw, reg := d },
       { field := 1, kind := jetKind wide, reg := a, src := some 0, sel := some (0, 1) },
       { field := 2, kind := jetKind wide, reg := b, src := some 1, sel := some (0, 1) }] none → Issues s →
     let q := fun l => Claims.compared (Claims.fpAs s (fmtOf wide)) quiet rel (laneVal s.vaReg wide a l) (laneVal s.vreg wide b l)
     (s.w.regen = [] → ∀ l, l < 32 → bit s.w.active l = true → Claims.enabled s (q l).2 = false) →
     ∃ t, exec i s = .next t ∧ Executed s t 4 [] [] [d] true ∧ WroteMask s t d (fun l => (q l).1) ∧
       t.w.jsr = if s.w.regen = [] then s.w.jsr ||| BitVec.ofNat 64 (Claims.allFlags s fun l => ([], (q l).2)) else s.w.jsr) ∧
  (∀ (i : Instr) (s : State) (os : List Opnd) (n d : Nat) (wide : Bool) (f : Nat → Nat),
     Claims.bitMove s i = some (os, n, wide, d, f) → i.wellFormed = true → n ≤ s.w.order → Ready s 4 os none → Issues s →
     ∃ t, exec i s = .next t ∧ Executed s t 4 (if wide then [d, d + 1] else [d]) [] [] false ∧
       Wrote s t d (fun l => BitVec.ofNat 32 (f l)) ∧ (wide = true → Wrote s t (d + 1) fun l => BitVec.ofNat 32 (f l / 2 ^ 32))) ∧
  ((∀ (k : Nat) (s : State), k < 8 → s.w.pre = none → Issues s →
     ∃ t, exec (.setjord k) s = .next t ∧ t.w.jord = BitVec.ofNat 64 k ∧ t.w.v = s.w.v ∧ t.w.empty = s.w.empty ∧
       t.w.jsr = s.w.jsr ∧ t.w.fpctl = s.w.fpctl ∧ MovedOn s t 4 ∧ (∀ r, t.w.sreg r = s.w.sreg r) ∧ (∀ r, t.w.mreg r = s.w.mreg r) ∧
       t.w.rest = s.w.rest ∧ t.w.recipes = s.w.recipes ∧ t = s.setW t.w) ∧
   (∀ (a : Nat) (s : State), a < 32 → (∀ c, c < 64 → (s.sreg a).getLsbD c = true → c % 8 < 5) →
     Ready s 4 [{ field := 1, kind := .s, reg := a }] none → Issues s →
     ∃ t, exec (.jsrc a) s = .next t ∧ t.w.jsr = s.w.jsr &&& ~~~(s.sreg a) ∧ Executed s t 4 [] [] [] true))

/-- R318 to R326, R328, R333, R335: the coefficients of the series instructions, each step rounded once and in the rule's order:
sums, products, quotients and roots; the functions of R324 from their coefficient 0, with its special inputs and, to nearest, some
values of the mathematical constants; the choice of FMIN and FMAX, FROUND, and the reshaping of jets. A zero divisor raises
division by zero or invalid in every column. -/
def Obligations.SeriesArithmetic : Prop :=
  (∀ (c : Fp) (k j : Nat) (a b d : List Nat), j ≤ k →
    at' (jetAdd c k a b).1 j = (c.add (at' a j) (at' b j)).1 ∧
    at' (jetSub c k a b).1 j = (c.add (at' a j) (c.neg (at' b j))).1 ∧
    at' (jetMul c k a b).1 j = Claims.cauchy c a b j j ∧
    at' (jetFma c k a b d).1 j = Claims.fused c a b (at' d j) j (j + 1) ∧
    at' (jetDiv c k a b).1 j = (c.div (Claims.drained c a b (jetDiv c k a b).1 j j) (at' b 0)).1 ∧
    jetRcp c k b = jetDiv c k (c.F.one :: List.replicate k 0) b ∧
    at' (jetSqrt c k a).1 j =
      (if j = 0 then (c.sqrt (at' a 0)).1
      else (c.div (Claims.drained c a (jetSqrt c k a).1 (jetSqrt c k a).1 j (j - 1))
        (c.mul (c.nat 2) (at' (jetSqrt c k a).1 0)).1).1) ∧
    at' (jetRsq c k a).1 j =
      (if j = 0 then (c.rsq (at' a 0)).1
      else (c.div (Claims.drained c [] (jetSqrt c k a).1 (jetRsq c k a).1 j j) (at' (jetSqrt c k a).1 0)).1)) ∧
  (∀ (c : Fp) (k j : Nat) (a : List Nat), j ≤ k →
    let e := (jetExp c k a).1
    let g := (jetLog c k a).1
    let sn := (jetSin c k a).1
    let cs := (jetCos c k a).1
    let h := (jetTanh c k a).1
    (j = 0 → at' e 0 = (c.exp (at' a 0)).1 ∧ at' g 0 = (c.log (at' a 0)).1 ∧ at' sn 0 = (c.sin (at' a 0)).1 ∧
      at' cs 0 = (c.cos (at' a 0)).1 ∧ at' h 0 = (c.tanh (at' a 0)).1) ∧
    (0 < j →
      at' e j = (c.div (Claims.weighted c a e j (j - 1)) (c.nat j)).1 ∧
      at' g j = (c.div (c.add (at' a j) (c.neg (c.div (Claims.logSum c a g j (j - 1)) (c.nat j)).1)).1 (at' a 0)).1 ∧
      at' sn j = (c.div (Claims.weighted c a cs j (j - 1)) (c.nat j)).1 ∧
      at' cs j = (c.div (c.neg (Claims.weighted c a sn j (j - 1))) (c.nat j)).1 ∧
      at' h j = (c.div (Claims.weighted c a ((List.range j).map (Claims.tanhDual c h)) j (j - 1)) (c.nat j)).1)) ∧
  (∀ (c : Fp) (x : Nat), c.F = fp32 →
    (∀ sig, c.read x = .nan sig → ∀ f ∈ [c.exp, c.log, c.sin, c.cos, c.tanh, c.rsq], f x = (0x7FC00000, if sig then 1 else 0)) ∧
    (∀ n, c.read x = .inf n →
      c.exp x = (if n then 0 else 0x7F800000, 0) ∧ c.log x = (if n then (0x7FC00000, 1) else (0x7F800000, 0)) ∧
      c.sin x = (0x7FC00000, 1) ∧ c.cos x = (0x7FC00000, 1) ∧ c.tanh x = (if n then 0xBF800000 else 0x3F800000, 0) ∧
      c.rsq x = (if n then (0x7FC00000, 1) else (0, 0))) ∧
    (∀ n e, c.read x = .fin n 0 e →
      c.exp x = (0x3F800000, 0) ∧ c.log x = (0xFF800000, 2) ∧ c.sin x = (if n then 0x80000000 else 0, 0) ∧
      c.cos x = (0x3F800000, 0) ∧ c.tanh x = (if n then 0x80000000 else 0, 0) ∧
      c.rsq x = (if n then 0xFF800000 else 0x7F800000, 2)) ∧
    (∀ m e, m ≠ 0 → c.read x = .fin true m e → c.log x = (0x7FC00000, 1) ∧ c.rsq x = (0x7FC00000, 1)) ∧
    c.log 0x3F800000 = (0, 0) ∧ c.rsq 0x40800000 = (0x3F000000, 0)) ∧
  (let c : Fp := { F := fp32 }
   c.exp 0x3F800000 = (0x402DF854, 16) ∧ c.log 0x40000000 = (0x3F317218, 16) ∧ c.sin 0x3F800000 = (0x3F576AA4, 16) ∧
     c.cos 0x3F800000 = (0x3F0A5140, 16) ∧ c.tanh 0x3F800000 = (0x3F42F7D6, 16) ∧ c.rsq 0x40000000 = (0x3F3504F3, 16)) ∧
  ∀ (c : Fp) (k j : Nat) (a b : List Nat), c.F = fp32 ∨ c.F = fp64 → j ≤ k →
    (let x := at' a 0
     let y := at' b 0
     let nan := (c.read x).isNan || (c.read y).isNan
     at' (jetMin c k a b).1 j =
       (if nan then c.F.nan else Claims.asRead c (at' (if Claims.rank c x ≤ Claims.rank c y then a else b) j)) ∧
     at' (jetMax c k a b).1 j =
       (if nan then c.F.nan else Claims.asRead c (at' (if Claims.rank c y ≤ Claims.rank c x then a else b) j))) ∧
    (let q := Claims.drained c a b (jetDiv c k a b).1 j j
     (c.read (at' b 0)).isZero = true →
       ((c.read q).isZero = true → at' (jetDiv c k a b).1 j = c.F.nan ∧ (jetDiv c k a b).2.testBit (8 * j) = true) ∧
       ((c.read q).isZero = false → (c.read q).isNan = false →
         (∃ n, at' (jetDiv c k a b).1 j = c.F.inf n) ∧ (jetDiv c k a b).2.testBit (8 * j + 1) = true)) ∧
    (∀ n, n ≤ 5040 → ∃ m e, unpack c.F (c.nat n) = .fin false m e ∧ Claims.valueOf false m e = n) ∧
    at' (jetSeed c k a).1 j = (if j = 0 then Claims.asRead c (at' a 0) else if j = 1 then c.F.one else 0) ∧
    (jetSeed c k a).2 = (if (c.read (at' a 0)).isSig then 1 else 0) ∧
    at' (jetDiff c k a).1 j = (if j = k then 0 else (c.mul (c.nat (j + 1)) (at' a (j + 1))).1) ∧
    at' (jetInteg c k a).1 j = (if j = 0 then 0 else (c.div (at' a (j - 1)) (c.nat j)).1) ∧
    at' (jetFact c k a).1 j = (c.mul (c.nat j.factorial) (at' a j)).1 ∧
    (∀ (x : Nat) (neg : Bool) (v : Rat), Claims.Reads c x neg v → c.R.rm < 4 → ∃ z : Int,
      Claims.Reads { c with R := {} } (roundNum c x).1 neg z ∧ (roundNum c x).2 = 0 ∧
      (c.R.rm = 0 → |(z : Rat) - v| ≤ 1 / 2 ∧ (|(z : Rat) - v| = 1 / 2 → z % 2 = 0)) ∧
      (c.R.rm = 1 → |(z : Rat)| ≤ |v| ∧ |v| - |(z : Rat)| < 1 ∧ 0 ≤ (z : Rat) * v) ∧
      (c.R.rm = 2 → (z : Rat) ≤ v ∧ v < z + 1) ∧ (c.R.rm = 3 → v ≤ z ∧ (z : Rat) < v + 1)) ∧
    (∀ x sig, c.read x = .nan sig → roundNum c x = (c.F.nan, if sig then 1 else 0)) ∧
    ∀ x n, c.read x = .inf n → roundNum c x = (c.F.inf n, 0)

/-- R8, R67 to R72: rounding into a format of IEEE 754, in every mode, with and without FTZ. A finite result is the one that RM
asks for among all finite values of the format: the nearest, with ties to the even pattern; or the nearest that is not beyond the
exact value in the direction toward zero, −∞ or +∞. Inexact is raised exactly when the result differs from the value. A value that
rounds beyond the largest finite one gives ±∞ or the largest finite value, as RM says, with overflow and inexact; underflow is
raised when the result is tiny and inexact, and a tiny one is flushed under FTZ. The single steps of sums, products, fused
products, quotients and square roots are the exact results so rounded; a NaN operand gives the canonical NaN, invalid when it is
signalling; an invalid operation gives it with invalid, a finite value divided by zero ±∞ with division by zero. -/
def Obligations.RoundingIsCorrect : Prop :=
  (∀ (F : Fmt) (R : Rounding) (neg : Bool) (m : Nat) (e : Int), F ∈ [fp64, fp32, bf16, fp16, e5m2] → R.rm < 4 → m ≠ 0 →
    Claims.Rounded F R (Claims.valueOf neg m e) (roundFin F R neg m e)) ∧
  ∀ (c : Fp) (x y z : Nat), c.F ∈ [fp64, fp32, bf16, fp16] → c.R.rm < 4 →
    let nan := fun (l : List Nat) => (c.F.nan, if l.any fun u => (c.read u).isSig then 1 else 0)
    ((c.read x).isNan = true ∨ (c.read y).isNan = true →
      c.add x y = nan [x, y] ∧ c.mul x y = nan [x, y] ∧ c.div x y = nan [x, y]) ∧
    ((c.read x).isNan = true ∨ (c.read y).isNan = true ∨ (c.read z).isNan = true → c.fma x y z = nan [x, y, z]) ∧
    ((c.read x).isNan = true → c.sqrt x = nan [x]) ∧
    c.fma x y z = c.fma y x z ∧
    (∀ s t, c.read x = .inf s → c.read y = .inf t →
      c.add x y = (if s = t then (c.F.inf s, 0) else (c.F.nan, 1)) ∧ c.mul x y = (c.F.inf (s != t), 0) ∧
      c.div x y = (c.F.nan, 1)) ∧
    (∀ s t v, c.read x = .inf s → Claims.Reads c y t v →
      c.add x y = (c.F.inf s, 0) ∧ c.add y x = (c.F.inf s, 0) ∧ c.div x y = (c.F.inf (s != t), 0) ∧
      c.div y x = (c.F.zero (s != t), 0) ∧ c.mul x y = c.mul y x ∧
      c.mul x y = if v = 0 then (c.F.nan, 1) else (c.F.inf (s != t), 0)) ∧
    (∀ s, c.read x = .inf s → c.sqrt x = if s then (c.F.nan, 1) else (c.F.inf false, 0)) ∧
    (∀ s t v u, Claims.Reads c x s v → Claims.Reads c y t u →
      Claims.Gives c ((v + u : Rat) : ℝ) (if s = t then s else c.R.rm == 2) (c.add x y) ∧
      Claims.Gives c ((v * u : Rat) : ℝ) (s != t) (c.mul x y) ∧
      (u ≠ 0 → Claims.Gives c ((v / u : Rat) : ℝ) (s != t) (c.div x y)) ∧
      (u = 0 → c.div x y = if v = 0 then (c.F.nan, 1) else (c.F.inf (s != t), 2)) ∧
      (∀ n, c.read z = .inf n → c.fma x y z = (c.F.inf n, 0)) ∧
      ∀ n w, Claims.Reads c z n w →
        Claims.Gives c ((v * u + w : Rat) : ℝ) (if n = (s != t) then n else c.R.rm == 2) (c.fma x y z)) ∧
    (∀ s t, (c.read x = .inf s ∧ (∃ u, Claims.Reads c y t u ∧ u ≠ 0) ∨ c.read x = .inf s ∧ c.read y = .inf t) →
      (∀ n, c.read z = .inf n → c.fma x y z = if n = (s != t) then (c.F.inf n, 0) else (c.F.nan, 1)) ∧
      ∀ n w, Claims.Reads c z n w → c.fma x y z = (c.F.inf (s != t), 0)) ∧
    (∀ s t, c.read x = .inf s → Claims.Reads c y t 0 → (c.read z).isNan = false → c.fma x y z = (c.F.nan, 1)) ∧
    ∀ s v, Claims.Reads c x s v →
      (v = 0 → c.sqrt x = (c.F.zero s, 0)) ∧ (v < 0 → c.sqrt x = (c.F.nan, 1)) ∧
      (0 < v → Claims.Rounded c.F c.R (Real.sqrt v) (c.sqrt x))

/-- R72, R331, R413: the values of FCVT. Between floating-point formats, and from integers, it rounds the exact value, a NaN
giving the canonical one, invalid when it is signalling. FCVT.i32.f32 and FCVT.n32.f32 truncate toward zero and saturate: a NaN
and a value beyond the range are invalid, a value that is not integral is inexact; a NaN gives 0, or to FCVT.i32.f32 what an
erratum names. -/
def Obligations.FloatToInteger : Prop :=
  (∀ (c : Fp) (F : Fmt) (x : Nat) (z : Int), c.F ∈ [fp64, fp32, bf16, fp16] → F ∈ [fp64, fp32, bf16, fp16] → c.R.rm < 4 →
    (∀ g, readFp F c.R x = .nan g → c.convert F x = (c.F.nan, if g then 1 else 0)) ∧
    (∀ g, readFp F c.R x = .inf g → c.convert F x = (c.F.inf g, 0)) ∧
    (∀ neg m e, readFp F c.R x = .fin neg m e → Claims.Gives c ((Claims.valueOf neg m e : Rat) : ℝ) neg (c.convert F x)) ∧
    Claims.Gives c (z : ℝ) false (c.ofInt z)) ∧
  ∀ (c : Fp) (x : Nat), c.F = fp32 →
    (∀ g n, c.read x = .nan g → toI32 c n x = (n, 1) ∧ toN32 c x = (0, 1)) ∧
    (∀ g, c.read x = .inf g → toI32 c 0 x = (if g then 2 ^ 31 else 2 ^ 31 - 1, 1) ∧ toN32 c x = (if g then 0 else 2 ^ 32 - 1, 1)) ∧
    ∀ (neg : Bool) (m : Nat) (e : Int), c.read x = .fin neg m e →
      let v := Claims.valueOf neg m e
      let z : Int := if v < 0 then ⌈v⌉ else ⌊v⌋
      toI32 c 0 x = (if (2 : Rat) ^ 31 ≤ v then (2 ^ 31 - 1, 1) else if v ≤ -(2 : Rat) ^ 31 - 1 then (2 ^ 31, 1)
        else ((z % 2 ^ 32).toNat, if (z : Rat) = v then 0 else 16)) ∧
      toN32 c x = (if (2 : Rat) ^ 32 ≤ v then (2 ^ 32 - 1, 1) else if v ≤ -1 then (0, 1)
        else (z.toNat, if (z : Rat) = v then 0 else 16))

namespace Sys2Proof.Claims

/-! ### Memory instructions -/

/-- The address of lane `l` (R262): base + sext(voff[l]) + index × size, modulo 2^64. -/
def address (s : State) (sb o i n l : Nat) : Nat :=
  (((s.sreg sb).toNat + (lane (s.vaReg o) l).toInt + i * n) % 2 ^ 64).toNat
/-- One request for each active lane (R338). -/
def perLane (s : State) (sb o i n : Nat) : List Req :=
  (lanesIn s.w.active).map fun l => { lane := l, lanes := BitVec.twoPow 32 l, addr := address s sb o i n l }
/-- One request for the whole wave (R343, R344). -/
def perWave (s : State) (sb i n l : Nat) (lanes : Word) : List Req :=
  [{ lane := l, lanes := lanes, addr := ((s.sreg sb).toNat + i * n) % 2 ^ 64 }]

/-- A load: its operands, the bytes of an element, the windows it reaches, its requests, and the vector registers or the
scalar that receive the result (R341, R343, R344). -/
structure LoadRow where
  ops : List Opnd
  n : Nat
  reach : Reach
  reqs : List Req
  vregs : List Nat
  sreg : List Nat := []

/-- A generic address lies in the stack window (R11). -/
def isStack (a : Nat) : Bool := decide (Config.stackBase ≤ a) && decide (a < Config.stackEnd)
/-- The address of a scalar access (R344). -/
def scalarAddress (s : State) (sb i n : Nat) : Nat := ((s.sreg sb).toNat + i * n) % 2 ^ 64

/-- LD, LDB and LDB.X; the scalar form does not reach the stack window. -/
def load (s : State) : Instr → Option LoadRow
  | .ld d sb o w _ i => some ⟨opsLoad d sb o w, 2 ^ w, {}, perLane s sb o i (2 ^ w), dataRegs w d, []⟩
  | .ldb d sb o w _ i =>
    if o = 0 then
      some ⟨[{ field := 0, kind := dataKind w, reg := d, dst := true }, { field := 4, kind := .s, reg := sb }], 2 ^ w,
        { stack := false }, perWave s sb i (2 ^ w) ((lowestLane s.w.active).getD 0) s.w.active, dataRegs w d, []⟩
    else none
  | .ldbX d sb o w i =>
    if o = 0 && !isStack (scalarAddress s sb i (2 ^ w)) then
      some ⟨[{ field := 0, kind := .s, reg := d, dst := true }, { field := 4, kind := .s, reg := sb }], 2 ^ w, {},
        perWave s sb i (2 ^ w) 0 0, [], [d]⟩
    else none
  | _ => none

/-- The bytes of a request, as the issuing wave reads them. -/
def bytesOf (s : State) (x : Located) : List Byte :=
  (Located.pieces x).flatMap fun p => (List.range p.2).map fun i => s.peek s.cur (p.1.at i)

/-- A store: operands, bytes of an element, requests, and the value of each lane (R342, R344). -/
structure StoreRow where
  ops : List Opnd
  n : Nat
  reqs : List Req
  data : Nat → Nat

/-- The value of a data register, or of the pair for .W64 (R339). -/
def dataOf (s : State) (w d l : Nat) : Nat :=
  if w = 3 then (lane (s.vreg d) l).toNat + 2 ^ 32 * (lane (s.vreg (d + 1)) l).toNat else (lane (s.vreg d) l).toNat

/-- ST and ST.X. -/
def store (s : State) : Instr → Option StoreRow
  | .st d sb o w _ i => some ⟨opsStore d sb o w, 2 ^ w, perLane s sb o i (2 ^ w), dataOf s w d⟩
  | .stX d sb o w i =>
    if o = 0 && !isStack (scalarAddress s sb i (2 ^ w)) then
      some ⟨[{ field := 0, kind := .s, reg := d }, { field := 4, kind := .s, reg := sb }], 2 ^ w, perWave s sb i (2 ^ w) 0 0,
        fun _ => (s.sreg d).toNat⟩
    else none
  | _ => none

/-- A place is a word of S whose lock bit one of some waves holds (R51). -/
def lockedBy (s : State) (core : Nat) (p : Place) (who : Nat → Prop) : Prop :=
  ∃ o h, p = .buf .s o ∧ (s.core core).locks.get? (lockOf o) = some h ∧ who h
/-- What waits for lock bits on a core (R52): 0 the instruction of a wave, 1 its oldest queued store, 2 an engine operation that
has still to write there; each with its number. -/
def waitsAt (s : State) (core kind num : Nat) (z : LockWait) : Prop :=
  (∃ p ∈ s.waves.rows, p.1 = num ∧ (s.group p.2.group).core = core ∧
    ((kind = 0 ∧ p.2.phase = .run ∧ (s.group p.2.group).phase = .resident ∧ p.2.storeWait = none ∧ p.2.bankWait = some z) ∨
      (kind = 1 ∧ p.2.storeWait = some z))) ∨
    (kind = 2 ∧ ∃ p ∈ (s.cluster (core / 4)).engines.rows, p.1 = num ∧ ∃ o ∈ p.2, o.waits.get? core = some z ∧
      (o.drain = true ∨ ∃ t ∈ o.targets, t.k = core % 4 ∧ t.state = 0 ∧ t.follow = false))
/-- The retry of wave `k`'s queued store waits behind another that is due at one of its banks and began earlier (R52); of those
that began in one cycle an instruction comes first, then the stores by their waves (log 93). -/
def behind (s : State) (core k : Nat) (q : LockWait) : Prop :=
  ∃ kind num z, waitsAt s core kind num z ∧ z.due ≤ s.now ∧ (∃ b ∈ z.banks, b ∈ q.banks) ∧
    (z.since < q.since ∨ (z.since = q.since ∧ (kind = 0 ∨ (kind = 1 ∧ num < k))))

/-- Every request has its places (R12). -/
def allOk (l : List Located) : Prop := ∀ x ∈ l, ∃ ps, x.2 = .ok ps
/-- An access shares a byte with an access to another package that the wave has under way; it waits for it (R122). -/
def shares (s : State) (l : List Located) : Prop :=
  ∃ x ∈ l, ∃ pa e n, (Place.phys pa e, n) ∈ Located.pieces x ∧ ∃ m ∈ s.w.remotes, m.pa < pa + n ∧ pa < m.pa + m.width
/-- A place in this package's HBM or in a buffer. -/
def here (s : State) (p : Place) : Prop :=
  match p with
  | .phys pa _ => isRemote s pa = false
  | .buf _ _ => True
  | .host _ => False

/-- The operation of an atomic on `n` bytes (R347): old value, operand, comparand. -/
def atomic (code n old x cmp : Nat) : Nat :=
  let m := 2 ^ (8 * n)
  match code with
  | 0 => (old + x) % m
  | 1 => old &&& x
  | 2 => old ||| x
  | 3 => old ^^^ x
  | 4 => if signed (8 * n) x ≤ signed (8 * n) old then x else old
  | 5 => if signed (8 * n) old ≤ signed (8 * n) x then x else old
  | 6 => if x ≤ old then x else old
  | 7 => if old ≤ x then x else old
  | 8 => x
  | 9 => if old = cmp then x else old
  | _ => (Fp.add { F := if n = 8 then fp64 else fp32 } old x).1

/-- The number in `n` bytes of a memory, little-endian. -/
def number (m : Nat → Byte) (a : Nat) : Nat → Nat
  | 0 => 0
  | n + 1 => (m a).toNat + 256 * number m (a + 1) n
/-- A memory with the `n` low bytes of `x` stored at `a`. -/
def stored (m : Nat → Byte) (a n x : Nat) : Nat → Byte :=
  fun b => if a ≤ b ∧ b < a + n then BitVec.ofNat 8 (x / 256 ^ (b - a)) else m b
/-- The number in some bytes of a memory, and a memory with a number put into them. -/
def numberAt (m : Nat → Byte) : List Nat → Nat
  | [] => 0
  | a :: t => (m a).toNat + 256 * numberAt m t
def putAt (m : Nat → Byte) : List Nat → Nat → (Nat → Byte)
  | [], _ => m
  | a :: t, x => putAt (fun b => if b = a then BitVec.ofNat 8 x else m b) t (x / 256)
/-- The atomics of the lanes, one after another in lane order (R348): the memory they leave and the values they found.
Each: the addresses of its bytes, operand, comparand. -/
def atomics (code n : Nat) (m : Nat → Byte) : List (List Nat × Nat × Nat) → (Nat → Byte) × List Nat
  | [] => (m, [])
  | (a, x, cmp) :: t =>
    let old := numberAt m a
    let r := atomics code n (putAt m a (atomic code n old x cmp)) t
    (r.1, old :: r.2)

/-- The physical addresses or the offsets of the bytes of a request; an 8-byte value of the stack lies in two places (R17). -/
def places (x : Located) : List Nat :=
  (Located.pieces x).flatMap fun p =>
    match p.1 with
    | .phys pa _ => (List.range p.2).map (pa + ·)
    | .buf _ o => (List.range p.2).map (o + ·)
    | .host _ => []
/-- The physical address or the offset of a request's one place. -/
def spot (x : Located) : Nat :=
  match Located.pieces x with
  | (.phys pa _, _) :: _ => pa
  | (.buf _ o, _) :: _ => o
  | _ => 0

/-- Operand and comparand of an atomic in lane `l` (R347): .CAS compares with vdata and stores the register or pair after it. -/
def operands (s : State) (w d p l : Nat) : Nat × Nat :=
  if p = 9 then (dataOf s w (d + if w = 3 then 2 else 1) l, dataOf s w d l) else (dataOf s w d l, 0)

/-! ### Translation -/

/-- `n` bits of a number, from bit `lo` up. -/
def part (x lo n : Nat) : Nat := x / 2 ^ lo % 2 ^ n
/-- The translation fault of a level: reason, address in its context's window, depth and context (R36, R37). -/
def noWay (reason addr depth ctx : Nat) (away : Bool := false) : MemFault :=
  { cause := 4, reason := reason, addr := addr, depth := depth, owner := some ctx, remote := away }
/-- The trap of a memory fault that a lane's access meets (R36). -/
def faultOf (f : MemFault) (a : Acc) (lane : Nat) : Trap :=
  { cause := f.cause, addr := BitVec.ofNat 64 f.addr, owner := f.owner
    info := BitVec.ofNat 64 (f.reason + 2 ^ 8 * f.depth + 2 ^ 12 * lane + (if a.write then 2 ^ 17 else 0) +
      (if a.atomic then 2 ^ 18 else 0) + (if f.remote then 2 ^ 20 else 0)) }
/-- An aperture fault (R36, R37). -/
def outside (reason addr : Nat) : MemFault := { cause := 3, reason := reason, addr := addr }
/-- `n` bytes that a context's entries may name (R20, R230): at depth 2 and beyond they lie wholly within one window that the
parent has granted. -/
def granted (x : Context) (a n : Nat) : Bool :=
  decide (x.depth < 2) ||
    (decide (a < 0xFE0000000000) && x.windows.any fun w => decide (w.base ≤ a) && decide (a + n ≤ w.base + w.size))
/-- Bytes of the table or page that an entry of the top (0), middle (1) or bottom table (2) names (R19). -/
def entrySize (level : Nat) (leaf : Bool) : Nat :=
  if leaf then (if level = 1 then 2 ^ 25 else 2 ^ 16) else if level = 0 then 2 ^ 17 else 2 ^ 12
/-- An entry with V = 1 breaks a rule of R20. -/
def breaks (x : Context) (level e : Nat) : Bool :=
  let leaf := decide (part e 1 1 = 1)
  let oa := part e 12 38 * 2 ^ 12
  decide (part e 50 6 ≠ 0) || decide (part e 5 7 ≠ 0) || (decide (level = 0) && leaf) || (decide (level = 2) && !leaf) ||
    (!leaf && decide (part e 2 3 ≠ 0)) || decide (oa % entrySize level leaf ≠ 0) || !granted x oa (entrySize level leaf)

/-- The walk of an address through a context and its ancestors, listed from itself up (R19 to R22, R230, R446): the physical
address, the page size, and the levels of lowest depth whose leaf lacks WR, EX and RES; or the fault at which it stops. -/
def walkOf (s : State) : List Nat → Nat → Except MemFault Walked
  | [], a => .ok { pa := a, root := { ctx := 0, depth := 0, addr := a, big := true } }
  | c :: up, va =>
    let x := s.ctx c
    let fail := fun (r : Nat) => noWay r va x.depth c
    let parent := fun (a : Nat) => (walkOf s up a).map fun w =>
      if up.isEmpty then { w with root := { ctx := c, depth := x.depth, addr := va, big := false } } else w
    let read := fun (base i : Nat) => (parent base).bind fun w =>
      let home := fun (a : Nat) => decide (a / 2 ^ 43 = s.config.package) && decide (a % 2 ^ 43 < 0xA000000000)
      if !home w.pa || !home (w.pa + 8 * i) then
        .error (noWay 0x16 w.root.addr w.root.depth w.root.ctx (decide (w.pa / 2 ^ 43 ≠ s.config.package)))
      else match w.noRes with
        | some l => .error (noWay 0x14 (l.addr - l.addr % (if l.big then 2 ^ 25 else 2 ^ 16)) l.depth l.ctx)
        | none => .ok (number (memRead s.hbm) (w.pa + 8 * i) 8)
    let entry := fun (level base i : Nat) => (read base i).bind fun e =>
      if e % 2 = 0 then .error (fail 0x10) else if breaks x level e then .error (fail 0x11) else .ok e
    if granted x x.root (2 ^ 12) = false then .error (fail 0x11)
    else
      (entry 0 x.root (part va 39 9)).bind fun e0 =>
      (entry 1 (part e0 12 38 * 2 ^ 12) (part va 25 14)).bind fun e1 =>
      (if part e1 1 1 = 1 then .ok (e1, true)
        else (entry 2 (part e1 12 38 * 2 ^ 12) (part va 16 9)).map fun e => (e, false)).bind fun leaf =>
      (parent (part leaf.1 12 38 * 2 ^ 12 + va % (if leaf.2 then 2 ^ 25 else 2 ^ 16))).map fun w =>
        let lacks := fun (b : Nat) (old : Option Level) =>
          match old with
          | some l => some l
          | none => if part leaf.1 b 1 = 1 then none else some { ctx := c, depth := x.depth, addr := va, big := leaf.2 }
        { w with
          big := w.big && leaf.2, noWr := lacks 2 w.noWr, noEx := lacks 3 w.noEx, noRes := lacks 4 w.noRes }

/-- The reason of the physical fault of an address when it is used (R24, R25), or 0. -/
def physical (s : State) (pa : Nat) (atomic : Bool) : Nat :=
  let off := pa % 2 ^ 43
  if pa / 2 ^ 43 ≠ s.config.package then (if pa / 2 ^ 43 ∉ s.config.domain then 0x15 else if off < 0xA000000000 then 0 else 0x16)
  else if off < 0xA000000000 then 0 else if off < 0x40000000000 then 0x16 else if atomic then 0x17 else 0
/-- A completed walk is used by an access (R12, R22, R24, R25): the physical checks, then WR or EX, then RES. -/
def used (s : State) (a : Acc) (w : Walked) : Except MemFault Nat :=
  let fail := fun (r : Nat) (l : Level) => Except.error (noWay r l.addr l.depth l.ctx (decide (w.pa / 2 ^ 43 ≠ s.config.package)))
  if physical s w.pa a.atomic ≠ 0 then fail (physical s w.pa a.atomic) w.root
  else match (if a.write then w.noWr else none) with
    | some l => fail 0x12 l
    | none => match (if a.fetch then w.noEx else none) with
      | some l => fail 0x13 l
      | none => match w.noRes with
        | some l => fail 0x14 l
        | none => .ok w.pa

/-- A cached mapping translates an address of a context until 1 us before its expiry (R27). -/
def translates (now c va : Nat) (m : Mapping) : Bool :=
  decide (m.ctx = c) && decide (m.va ≤ va) && decide (va < m.va + m.size) && decide (now + Config.usCycles < m.exp)
/-- It allows the access. -/
def allows (s : State) (a : Acc) (m : Mapping) : Prop :=
  (a.write = true → m.wr = true) ∧ (a.fetch = true → m.ex = true) ∧ physical s m.pa a.atomic = 0
/-- The TLB or none of its mappings translates the access; the first that covers the address counts. -/
def found (s : State) (a : Acc) (tlb : List Mapping) (c va : Nat) (m : Mapping) : Prop :=
  tlb.find? (translates s.now c va) = some m ∧ allows s a m
/-- A place of a physical address (R24). -/
def landed (pa e : Nat) : Place := if 0x40000000000 ≤ pa % 2 ^ 43 then .host (pa % 2 ^ 43 - 0x40000000000) else .phys pa e

/-- The typed-buffer windows (R11, R15, R40): buffer, whether an instruction reaches it, and the group's reservation. -/
def bufWindow (g : Group) (r : Reach) (i : Nat) : Buf × Bool × Range :=
  if i = 0 then (.s, r.s, g.rs) else if i = 1 then (.a, r.a, g.ra) else if i = 2 then (.w, false, g.rw) else (.c, r.c, g.rc)
/-- The parts of an access in the global window, each with its bytes: their places, or a fault, the earlier one's unless the
other comes first in the order of R12. -/
def globals (s : State) (core c : Nat) (a : Acc) (parts : List (Nat × Nat)) (r : State × Except MemFault (List Piece)) : Prop :=
  match parts with
  | [(va, n)] =>
    let u := translate s core c va a
    r = (u.1, u.2.map fun q => [(landed q.1 q.2, n)])
  | [(va, n), (vb, m)] =>
    let u := translate s core c va a
    let v := translate u.1 core c vb a
    let late := fun (f : MemFault) => if f.reason = 0x14 then 2 else if f.reason = 0x12 ∨ f.reason = 0x13 then 1 else 0
    r.1 = v.1 ∧
      (∀ p q, u.2 = .ok p → v.2 = .ok q → r.2 = .ok [(landed p.1 p.2, n), (landed q.1 q.2, m)]) ∧
      (∀ f q, u.2 = .error f → v.2 = .ok q → r.2 = .error f) ∧ (∀ p g, u.2 = .ok p → v.2 = .error g → r.2 = .error g) ∧
      ∀ f g, u.2 = .error f → v.2 = .error g → r.2 = .error (if late g < late f then g else f)
  | _ => False

/-- The vector and scalar accesses whose lanes take memory faults: operands, windows, rights, bytes of an element, requests. -/
def access (s : State) (i : Instr) : Option (List Opnd × Reach × Acc × Nat × List Req) :=
  let bank : Reach := { stack := false, a := false, c := false, glob := false }
  match load s i, store s i, i with
  | some r, _, _ => some (r.ops, r.reach, {}, r.n, r.reqs)
  | _, some r, _ => some (r.ops, {}, { write := true }, r.n, r.reqs)
  | _, _, .ldr d sb o w m =>
    some (opsLoad d sb o w ++ [{ field := 2, kind := .mw, reg := m }], {}, {}, 2 ^ w, perLane s sb o 0 (2 ^ w))
  | _, _, .atom d sb o w p =>
    some (opsAtom d sb o (w + 2) p, { s := false, a := false, c := false }, { write := true, atomic := true }, 2 ^ (w + 2),
      perLane s sb o 0 (2 ^ (w + 2)))
  | _, _, .spatom d sb o p => some (opsAtom d sb o 2 p, bank, { write := true, atomic := true }, 4, perLane s sb o 0 4)
  | _, _, .sunlk d sb o => some (opsStore d sb o 2, bank, { write := true }, 4, perLane s sb o 0 4)
  | _, _, _ => none
/-- The register alignment that .CAS asks of its data beside the operand checks (R348). -/
def casAligned : Instr → Prop
  | .atom d _ _ w p => p = 9 → d % (if w = 1 then 4 else 2) = 0
  | .spatom d _ _ p => p = 9 → d % 2 = 0
  | _ => True

/-- A result whose element of lane `l` is `v`, in one register or a pair. -/
def Holds (p : Pending) (regs : List Nat) (l v : Nat) : Prop :=
  p.vregs.map (·.1) = regs ∧ ∀ j, j < regs.length → lane ((p.vregs.map (·.2)).getD j zeroLanes) l = BitVec.ofNat 32 (v / 2 ^ (32 * j))

end Sys2Proof.Claims

/-- R11 to R13, R15, R17, R19 to R25, R27, R29, R36, R37, R230, R446. The walk of an address through a context and its
ancestors. What translates an access: the core's TLB, else the cluster's, else, where the walker keeps nothing, that walk with
the checks of R12, whose mapping expires after the least lease of its contexts. Where an access of a lane goes: a hole, a
typed-buffer window, the stack or the global window, with their aperture faults and their places. R12, R338: where some active
lane of a load, a store or an atomic fails a check, the instruction takes the fault of the lowest such lane, with its TADDR and
TINFO, and has no effect on memory or registers; the trap is taken by the handler, or goes to the owner of the level that
failed, or is reflected (R238).

The model's choices: a buffer that is out of reach is reported as such before the offset (log 81), and the address translated
afresh is used though its expiry may have passed (log 96). -/
def Obligations.AccessesTranslateOrFault : Prop :=
  (∀ (s : State) (cs : List Nat) (va : Nat), (walk s [] cs va).2 = Claims.walkOf s cs va) ∧
  (∀ (s : State) (core c va : Nat) (a : Acc),
     let x := translate s core c va a
     let own := (s.core core).tlb
     let shared := (s.cluster (core / 4)).tlb
     (∀ m, Claims.found s a own c va m → x = (s, .ok (m.pa + (va - m.va), m.exp))) ∧
     (∀ m, (∀ m', ¬Claims.found s a own c va m') → Claims.found s a shared c va m → x.2 = .ok (m.pa + (va - m.va), m.exp)) ∧
     ((∀ m, ¬Claims.found s a own c va m ∧ ¬Claims.found s a shared c va m) → s.walkers.getD (va / 2 ^ 16 % 64) [] = [] →
       x.2 = ((Claims.walkOf s (s.chain c) va).bind (Claims.used s a)).map fun pa =>
         (pa, s.now + ((s.chain c).map fun k => (s.ctx k).lease).foldr min 1023 * Config.usCycles))) ∧
  (∀ (s : State) (w : Wave) (r : Reach) (acc : Acc) (lane a n : Nat), n ∈ [1, 2, 4, 8] →
     let g := s.group w.group
     let x := s.ctx g.ctx
     let res := locate s w r acc lane a n
     let stop := fun q => res = (s, .error (Claims.outside q a))
     let size := 2 ^ 16 * 2 ^ x.stkSize
     let row := fun o => x.stackBase + w.stackSlot.getD 0 * 32 * size + o / 4 * 128 + lane * 4 + o % 4
     ((0xFE0040000000 ≤ a ∧ a < 0xFF0000000000) ∨ 0xFF0004000000 ≤ a → stop 0x01) ∧
     (∀ i, i < 4 → 0xFF0000000000 + i * 2 ^ 24 ≤ a → a < 0xFF0000000000 + (i + 1) * 2 ^ 24 →
       let b := Claims.bufWindow g r i
       let o := a - (0xFF0000000000 + i * 2 ^ 24)
       (b.2.1 = false → stop 0x03) ∧
       (b.2.1 = true →
         (b.2.2.size ≤ o → stop 0x02) ∧ (o < b.2.2.size → a % n ≠ 0 → stop 0x04) ∧
         (o < b.2.2.size → a % n = 0 → res = (s, .ok [(.buf b.1 (b.2.2.base + o), n)])))) ∧
     (0xFE0000000000 ≤ a → a < 0xFE0040000000 →
       let o := a - 0xFE0000000000
       (r.stack = false → stop 0x03) ∧
       (r.stack = true →
         (x.stkSlots = 0 ∨ size ≤ o → stop 0x05) ∧ (x.stkSlots ≠ 0 → o < size → a % n ≠ 0 → stop 0x04) ∧
         (x.stkSlots ≠ 0 → o < size → a % n = 0 →
           Claims.globals s g.core g.ctx acc (if n = 8 then [(row o, 4), (row (o + 4), 4)] else [(row o, n)]) res))) ∧
     (a < 0xFE0000000000 →
       (r.glob = false → stop 0x03) ∧ (r.glob = true → a % n ≠ 0 → stop 0x04) ∧
       (r.glob = true → a % n = 0 → Claims.globals s g.core g.ctx acc [(a, n)] res))) ∧
  ∀ (i : Instr) (s : State) (os : List Opnd) (r : Reach) (a : Acc) (n : Nat) (reqs : List Req) (f : MemFault),
    Claims.access s i = some (os, r, a, n, reqs) → i.wellFormed = true → Ready s 4 os none → IssuesPlainly s →
    Claims.casAligned i → ∀ pre x post, (locateAll r a n s reqs).2 = pre ++ x :: post → Claims.allOk pre → x.2 = .error f →
    ((∃ d sb o w m, i = .ldr d sb o w m) → f.reason ≠ 0x14) →
    ∃ t, exec i s = .next t ∧ SameMemory s t s.g.core ∧ t.w.pending = s.w.pending ∧ t.w.storeQ = s.w.storeQ ∧
      t.w.file = s.w.file ∧
      Claims.Takes s t (Claims.faultOf f a x.1.lane)

/-- R338, R341, R343, R344, R177: a load whose every lane passes its checks, and which reaches this package's HBM and the buffers
only, reads each element at its lane's address, as the wave reads memory (under its queued stores, R121); its destinations are
marked empty, or busy, until the result returns; it stores nothing. With no active lane a vector load marks its destinations full
at once. (The bytes of HBM are stated where the core's L1 holds no stale byte.)

The model's choices: the result is due one cycle after the issue (log 3), the load is performed when it issues (log 83), and it
reads the wave's queued stores also where a scalar load meets a vector store or a vector load a scalar store (log 84; R125 allows
the old bytes there too). -/
def Obligations.LoadsReadTheirElements : Prop :=
  ∀ (i : Instr) (s : State) (r : Claims.LoadRow), Claims.load s i = some r → i.wellFormed = true → Ready s 4 r.ops none →
    Issues s →
    let u := locateAll r.reach {} r.n s r.reqs
    (s.w.active = 0 → r.sreg = [] → ∃ t, exec i s = .next t ∧ Executed s t 4 r.vregs [] [] false ∧
      ∀ v ∈ r.vregs, t.w.isEmpty v = s.w.dem ∧ t.w.vreg v = s.w.vreg v) ∧
    ((r.sreg = [] → s.w.active ≠ 0) → Claims.allOk u.2 → s.uncorr = [] → Claims.shares s u.2 →
      (∀ x ∈ u.2, ∀ a n, (Place.host a, n) ∉ Located.pieces x) → ∃ t, exec i s = .next t ∧ Waits s t) ∧
    ((r.sreg = [] → s.w.active ≠ 0) → Claims.allOk u.2 → (∀ x ∈ u.2, ∀ p ∈ Located.pieces x, Claims.here s p.1) →
      s.uncorr = [] → ¬Claims.shares s u.2 → s.memWf = true → s.coherent s.g.core →
    ∃ t p, exec i s = .next t ∧ MovedOn s t 4 ∧ SameRegs s t r.vregs r.sreg [] false ∧ SameMemory s t s.g.core ∧
      t.w.pending = s.w.pending ++ [p] ∧ (s.now + 1, .loadResultReturn s.cur p.tag) ∈ t.agenda ∧
      (∀ v ∈ r.vregs, t.w.isEmpty v = true) ∧ (∀ v ∈ r.sreg, t.w.sbusy.getLsbD v = true) ∧
      ∀ x ∈ u.2,
        (r.sreg = [] → ∀ l, l < 32 → bit x.1.lanes l = true → Claims.Holds p r.vregs l (leNat (Claims.bytesOf s x))) ∧
        (∀ v ∈ r.sreg, p.sreg = some (v, BitVec.ofNat 64 (leNat (Claims.bytesOf s x)))))

/-- R177: the result of a load arrives: the elements of its lanes are written and the others kept, the registers become full
unless the XMOD marked them empty, a scalar or mask is no longer busy. -/
def Obligations.LoadResultArrives : Prop :=
  ∀ (k tag : Nat) (s : State) (p : Pending), ((s.wave k).pending.find? fun q => q.tag == tag) = some p →
    (p.vregs.map (·.1)).Nodup → (∀ q ∈ p.vregs, q.1 < 128 ∧ (s.wave k).deferred.get? q.1 = none) →
    ∃ t, exec (.loadResultReturn k tag) s = .next t ∧ t = s.setWave k (t.wave k) ∧
      (∀ q ∈ p.vregs, (t.wave k).isEmpty q.1 = p.dem ∧
        ∀ l, l < 32 → lane ((t.wave k).vreg q.1) l = if bit p.lanes l then lane q.2 l else lane ((s.wave k).vreg q.1) l) ∧
      (∀ r, r ∉ p.vregs.map (·.1) → (t.wave k).vreg r = (s.wave k).vreg r ∧ (t.wave k).isEmpty r = (s.wave k).isEmpty r) ∧
      (∀ r x, p.sreg = some (r, x) → r < 32 → (t.wave k).sreg r = x ∧ (t.wave k).sbusy.getLsbD r = false) ∧
      (∀ m ls x, p.mask = some (m, ls, x) → 0 < m → m < 16 → (t.wave k).mbusy.getLsbD m = false ∧
        (t.wave k).mreg m = ((s.wave k).mreg m &&& ~~~ls) ||| (x &&& ls)) ∧
      (t.wave k).pending = (s.wave k).pending.filter fun q => q.tag != tag

/-- R345: LDR reads the lanes whose page is resident and sets, in the active lanes' bits of its mask, the bits of those whose page
is not; under the LDRMASK erratum (R413) the bits of inactive lanes become 0.

The model's choices: the load is performed when it issues (log 83), under the wave's queued stores, scalar ones too (log 84). -/
def Obligations.LdrReportsAbsentPages : Prop :=
  ∀ (d sb o w m : Nat) (s : State), (Instr.ldr d sb o w m).wellFormed = true →
    Ready s 4 (opsLoad d sb o w ++ [{ field := 2, kind := .mw, reg := m }]) none → Issues s →
    let u := locateAll {} {} (2 ^ w) s (Claims.perLane s sb o 0 (2 ^ w))
    (∀ x ∈ u.2, (∃ ps, x.2 = .ok ps) ∨ ∃ f, x.2 = .error f ∧ f.reason = rAbsent) →
    (∀ x ∈ u.2, ∀ p ∈ Located.pieces x, Claims.here s p.1) → s.uncorr = [] → ¬Claims.shares s u.2 → s.memWf = true →
    s.coherent s.g.core →
    ∃ t p ls absent, exec (.ldr d sb o w m) s = .next t ∧ MovedOn s t 4 ∧ SameRegs s t (dataRegs w d) [] [m] false ∧
      SameMemory s t s.g.core ∧ t.w.pending = s.w.pending ++ [p] ∧ t.w.mbusy.getLsbD m = true ∧
      (∀ v ∈ dataRegs w d, t.w.isEmpty v = true) ∧
      p.mask = some (m, ls, absent) ∧ (ls = if s.compat 2 then 0xFFFFFFFF else s.w.active) ∧
      (∀ l, l < 32 → (bit absent l = true ↔ ∃ x ∈ u.2, x.1.lane = l ∧ ∃ f, x.2 = .error f)) ∧
      ∀ x ∈ u.2, (∃ ps, x.2 = .ok ps) → Claims.Holds p (dataRegs w d) x.1.lane (leNat (Claims.bytesOf s x))

/-- R338, R342, R344, R121: a store whose every lane passes its checks puts the lanes' bytes, in lane order, at the end of the
wave's queue, from which the wave reads them (State.peek). No other location changes for the wave, none for another wave, and no
register. R121, R56, R52: the oldest store of a wave's queue is performed: in the core's L1, where its bytes become dirty, in a
buffer, or in the host's memory. Exactly its bytes change. A store to a word of S whose lock bit another wave holds is presented
again two cycles later; until then it holds its wave, and the older stores that wait at its bank are served before it.

The model's choice: a store that is not served in its turn is presented again in the next cycle (log 93). -/
def Obligations.StoreQueue : Prop :=
  (∀ (i : Instr) (s : State) (r : Claims.StoreRow), Claims.store s i = some r → i.wellFormed = true → Ready s 4 r.ops none →
     Issues s → s.groupHandler s.w.group = false →
     let u := locateAll {} { write := true } r.n s r.reqs
     Claims.allOk u.2 →
     (∀ x ∈ u.2, ∀ p ∈ Located.pieces x, p.1.remote s = false ∧ ¬Claims.lockedBy s s.g.core p.1 (· ≠ s.cur)) →
     ¬Claims.shares s u.2 → ∃ t, exec i s = .next t ∧ MovedOn s t 4 ∧ SameRegs s t [] [] [] false ∧ SameMemory s t s.g.core ∧
       t.w.storeQ = s.w.storeQ ++ u.2.flatMap (fun x => cutPieces (Located.pieces x) (leBytes r.n (r.data x.1.lane))) ∧
       (∀ x, (∀ q ∈ u.2, ∀ p ∈ Located.pieces q, ∀ j, j < p.2 → p.1.at j ≠ x) → t.peek s.cur x = s.peek s.cur x) ∧
       ∀ k, k ≠ s.cur → ∀ x, t.peek k x = s.peek k x) ∧
  (∀ (k : Nat) (s : State) (p : Place) (x : List Byte) (rest : List (Place × List Byte)),
     (s.wave k).storeQ = (p, x) :: rest →
     let core := (s.group (s.wave k).group).core
     let y := (s.wave k).storeWait
     let early := ∃ q, y = some q ∧ s.now < q.due
     let behind := ∃ q, y = some q ∧ Claims.behind s core k q
     ∃ t, exec (.storeQueueDrain k) s = .next t ∧
       (early ∨ behind → t.waves = s.waves ∧ t.cores = s.cores ∧ t.hbm = s.hbm ∧ t.host = s.host ∧
         Claims.Due t (.storeQueueDrain k)) ∧
       (¬early → ¬behind → Claims.lockedBy s core p (· ≠ k) → (t.wave k).storeQ = (s.wave k).storeQ ∧
         (t.wave k).file = (s.wave k).file ∧
         (∃ since, (t.wave k).storeWait = some { banks := [p.bank], since := since, due := s.now + 2 } ∧
           since = (match y with
             | some q => q.since
             | none => s.now)) ∧
         t.ready k = false ∧ SameMemory s t core ∧ (s.now + 2, .storeQueueDrain k) ∈ t.agenda) ∧
       (¬early → ¬behind → ¬Claims.lockedBy s core p (· ≠ k) → (t.wave k).storeWait = none ∧
         (rest ≠ [] → Claims.Due t (.storeQueueDrain k))) ∧
       (¬early → ¬behind → ¬Claims.lockedBy s core p (· ≠ k) → (s.core core).l1Wf → s.memWf = true →
         (match p with
           | .phys pa _ => pa % 128 + x.length ≤ 128
           | _ => True) →
         (t.wave k).storeQ = rest ∧ (t.wave k).file = (s.wave k).file ∧
         (∀ j, j < x.length → t.storedAt core (p.at j) = x.getD j 0) ∧
         ∀ y, (∀ j, j < x.length → p.at j ≠ y) → t.storedAt core y = s.storedAt core y))

/-- R17, R347, R348: ATOM performs the lanes' operations at home, one after another in lane order, and returns the old values; on
an 8-byte value of the stack, which lies in two places, each is one operation. The
memory that this core sees afterwards is exactly what those operations leave. R349: SPATOM does the same on words of S, while no
other wave holds the lock bit of one of them. -/
def Obligations.AtomicsInLaneOrder : Prop :=
  (∀ (d sb o w p : Nat) (s : State), (Instr.atom d sb o w p).wellFormed = true →
     Ready s 4 (opsAtom d sb o (w + 2) p) none → casCheck d (w + 2) p = none → Issues s → s.w.active ≠ 0 →
     let n := 2 ^ (w + 2)
     let u := locateAll { s := false, a := false, c := false } { write := true, atomic := true } n s (Claims.perLane s sb o 0 n)
     Claims.allOk u.2 → (∀ x ∈ u.2, ∀ p ∈ Located.pieces x, ∃ pa exp, p.1 = .phys pa exp ∧ isRemote s pa = false ∧ pa % p.2 = 0) →
     s.uncorr = [] → s.w.storeQ = [] → s.w.remoteHold = false → ¬Claims.shares s u.2 → (s.core s.g.core).l1Wf → s.memWf = true →
     let r := Claims.atomics p n (fun a => s.storedAt s.g.core (0, a))
       (u.2.map fun x => (Claims.places x, Claims.operands s (w + 2) d p x.1.lane))
     ∃ t q, exec (.atom d sb o w p) s = .next t ∧ MovedOn s t 4 ∧ SameRegs s t (dataRegs (w + 2) d) [] [] false ∧
       t.w.pending = s.w.pending ++ [q] ∧ (∀ v ∈ dataRegs (w + 2) d, t.w.isEmpty v = true) ∧
       (∀ a, t.storedAt s.g.core (0, a) = r.1 a) ∧ (∀ c b, (t.core c).buf b = (s.core c).buf b) ∧ t.host = s.host ∧
       ∀ j x, u.2[j]? = some x → Claims.Holds q (dataRegs (w + 2) d) x.1.lane (r.2.getD j 0)) ∧
  (∀ (d sb o p : Nat) (s : State), (Instr.spatom d sb o p).wellFormed = true →
     Ready s 4 (opsAtom d sb o 2 p) none → casCheck d 2 p = none → Issues s → s.w.active ≠ 0 →
     let u := locateAll { stack := false, a := false, c := false, glob := false } { write := true, atomic := true } 4 s
       (Claims.perLane s sb o 0 4)
     Claims.allOk u.2 → s.uncorr = [] → s.w.storeQ = [] → s.memWf = true →
     (∀ x ∈ u.2, ∀ h, (s.core s.g.core).locks.get? (lockOf (Claims.spot x)) = some h → h = s.cur) →
     let r := Claims.atomics p 4 (fun a => s.storedAt s.g.core (1, a))
       (u.2.map fun x => (Claims.places x, Claims.operands s 2 d p x.1.lane))
     ∃ t q, exec (.spatom d sb o p) s = .next t ∧ MovedOn s t 4 ∧ SameRegs s t [d] [] [] false ∧
       t.w.pending = s.w.pending ++ [q] ∧ t.w.isEmpty d = true ∧ (∀ a, t.storedAt s.g.core (1, a) = r.1 a) ∧
       (∀ y, y.1 ≠ 1 → t.storedAt s.g.core y = s.storedAt s.g.core y) ∧
       ∀ j x, u.2[j]? = some x → Claims.Holds q [d] x.1.lane (r.2.getD j 0))

/-- R350, R51: SLOCK, while no other wave holds a bit that it names, takes for each lane the bit of its word if it is free and no
lower active lane names it, and loads the word; the mask reports the lanes that took none. While another wave holds one, it waits.
R351: SUNLK stores each lane's word and clears its lock bit; it is refused, before any effect, if another wave holds one of the
bits. -/
def Obligations.LockBits : Prop :=
  (∀ (d sb o m : Nat) (s : State), (Instr.slock d sb o m).wellFormed = true →
     Ready s 4 [{ field := 0, kind := .v, reg := d, dst := true }, { field := 1, kind := .v, reg := o, src := some 0 },
       { field := 2, kind := .mw, reg := m }, { field := 4, kind := .s, reg := sb }] none → Issues s →
     let u := locateAll { stack := false, a := false, c := false, glob := false } {} 4 s (Claims.perLane s sb o 0 4)
     let held := fun x : Located => (s.core s.g.core).locks.get? (lockOf (Claims.spot x))
     Claims.allOk u.2 → s.uncorr = [] → s.w.storeQ = [] → s.w.slocks = [] →
     ((∃ x ∈ u.2, ∃ h, held x = some h ∧ h ≠ s.cur ∧
         ∀ y ∈ u.2, lockOf (Claims.spot y) = lockOf (Claims.spot x) → x.1.lane ≤ y.1.lane) →
       ∃ t, exec (.slock d sb o m) s = .next t ∧ t.w.waiting = true ∧ t.w.file = s.w.file ∧ t.w.duct = s.w.duct) ∧
     ((∀ x ∈ u.2, ∀ h, held x = some h → h = s.cur) →
       ∃ t q ls fails, exec (.slock d sb o m) s = .next t ∧ MovedOn s t 4 ∧ SameRegs s t [d] [] [m] false ∧
         SameMemory s t s.g.core ∧ t.w.pending = s.w.pending ++ [q] ∧ q.mask = some (m, ls, fails) ∧ ls = s.w.active ∧
         ∀ x ∈ u.2,
           let takes := held x = none ∧ ∀ y ∈ u.2, y.1.lane < x.1.lane → lockOf (Claims.spot y) ≠ lockOf (Claims.spot x)
           (t.core s.g.core).locks.get? (lockOf (Claims.spot x)) = some s.cur ∧ (bit fails x.1.lane = false ↔ takes) ∧
           (takes → Claims.Holds q [d] x.1.lane (Claims.number (fun a => s.storedAt s.g.core (1, a)) (Claims.spot x) 4)))) ∧
  (∀ (d sb o : Nat) (s : State), (Instr.sunlk d sb o).wellFormed = true → Ready s 4 (opsStore d sb o 2) none → Issues s →
     let u := locateAll { stack := false, a := false, c := false, glob := false } { write := true } 4 s (Claims.perLane s sb o 0 4)
     let held := fun x : Located => (s.core s.g.core).locks.get? (lockOf (Claims.spot x))
     Claims.allOk u.2 → s.w.storeQ = [] → s.memWf = true →
     ((∀ x ∈ u.2, ∀ h, held x = some h → h = s.cur) →
       ∃ t, exec (.sunlk d sb o) s = .next t ∧ MovedOn s t 4 ∧ SameRegs s t [] [] [] false ∧
         (∀ x ∈ u.2, (t.core s.g.core).locks.get? (lockOf (Claims.spot x)) = none) ∧
         (∀ a, t.storedAt s.g.core (1, a) = u.2.foldl (fun m x => Claims.stored m (Claims.spot x) 4 (Claims.dataOf s 2 d x.1.lane))
           (fun a => s.storedAt s.g.core (1, a)) a) ∧
         ∀ y, y.1 ≠ 1 → t.storedAt s.g.core y = s.storedAt s.g.core y) ∧
     (s.w.regen = [] → s.toHandler s.cur { cause := 0x02 } = true →
       ∀ x ∈ u.2, (∃ h, held x = some h ∧ h ≠ s.cur) → (∀ y ∈ u.2, y.1.lane < x.1.lane → ∀ h, held y = some h → h = s.cur) →
       ∃ t, exec (.sunlk d sb o) s = .next t ∧ SameMemory s t s.g.core ∧
         EnteredHandler s t s.cur s.w.ipc
           { cause := 0x02, info := BitVec.ofNat 64 (0x31 + 2 ^ 8 * 1 + 2 ^ 16 * o + 2 ^ 24 * x.1.lane) }))

/-- R346: PREF changes no register and stores nothing; it completes whatever its lanes' addresses are, whether its registers
hold a value or not, and raises nothing but the checks of its operands. -/
def Obligations.PrefStoresNothing : Prop :=
  ∀ (sb o w h i : Nat) (s : State), (Instr.pref sb o w h i).wellFormed = true →
    operandTrap s.w 4 [{ field := 1, kind := .v, reg := o, src := some 0 }, { field := 4, kind := .s, reg := sb }] = none → Issues s →
    (s.core s.g.core).l1Wf → s.memWf = true →
    ∃ t, exec (.pref sb o w h i) s = .next t ∧ MovedOn s t 4 ∧ SameRegs s t [] [] [] false ∧ SameMemory s t s.g.core

namespace Sys2Proof.Claims
/-- An access to another package comes after the nominal expiry of a mapping that translated it (R28). -/
def late (s : State) (m : Remote) : Prop := m.exp < s.now ∨ ∃ u, m.upper = some u ∧ u.2.2 < s.now
/-- A physical address lies in a package's host window, and its address at the host (R24). -/
def hostPa (pa : Nat) : Prop := Config.hostBase ≤ pa % Config.packageSize
def hostAt (pa : Nat) : Nat := pa % Config.packageSize - Config.hostBase
/-- A result after a value of an access came in; the lanes that its mask reports keep their zeros (R345). -/
def receives (p : Pending) (m : Remote) (x : Nat) : Pending :=
  if p.tag = m.owner then
    p.put (match p.mask with
      | some q => m.lanes &&& ~~~q.2.2
      | none => m.lanes) m.off m.width x
  else p
/-- A wave's results after a value came in for one of them. -/
def received (l : List Pending) (m : Remote) (x : Nat) : List Pending := l.map fun p => receives p m x
end Sys2Proof.Claims

/-- R17, R24, R25, R28, R34: an access to another package is performed there when it arrives by its nominal expiry, in memory or
at the host, and acknowledged; an atomic on an 8-byte stack value is one operation on both its parts. After the expiry it is
refused, translated again and reissued after 560 cycles, the model's choice (log 26). A fault of that translation waits at the
result of a load, gives zeros in every register of the result and a mask bit where an LDR's page is not resident (R345), and
waits at a held store or atomic. The acknowledgement of the last access of a load lets its result return one cycle later (log
3); that of a store or an atomic lets the held instruction complete. -/
def Obligations.RemoteAccesses : Prop :=
  ∀ (k tag : Nat) (s : State) (m : Remote), ((s.wave k).remotes.find? fun q => q.tag == tag) = some m →
    let g := s.group (s.wave k).group
    let seen := fun (a : Nat) => s.storedAt g.core (0, a)
    let acc : Acc := { write := m.op != .load, atomic := m.op matches .atomic _ _ _ }
    (Claims.late s m → exec (.remoteAccessArrival k tag) s = .next (s.post 0 (.remoteAccessRefused k tag))) ∧
    (¬Claims.late s m → ¬Claims.hostPa m.pa → (s.core g.core).l1Find (m.pa / 128) = none → m.pa % 128 + m.width ≤ 128 →
      s.memWf = true → (s.core g.core).l1Wf →
      ∃ t, exec (.remoteAccessArrival k tag) s = .next t ∧ (s.now, .remoteAcknowledge k tag) ∈ t.agenda ∧
        (m.op = .load → (t.wave k).pending = Claims.received (s.wave k).pending m (Claims.number (memRead s.hbm) m.pa m.width)) ∧
        (∀ x, m.op = .store x → x.length = m.width →
          ∀ a, t.storedAt g.core (0, a) = if m.pa ≤ a ∧ a < m.pa + m.width then x.getD (a - m.pa) 0 else seen a) ∧
        ∀ code x cmp, m.op = .atomic code x cmp → m.upper = none →
          let old := Claims.number (memRead s.hbm) m.pa m.width
          (∀ a, t.storedAt g.core (0, a) = Claims.stored seen m.pa m.width (atomicOp code m.width old x cmp) a) ∧
          (t.wave k).held = (s.wave k).held.map fun p => Claims.receives p m old) ∧
    (∀ code x cmp va pa exp, ¬Claims.late s m → m.op = .atomic code x cmp → m.upper = some (va, pa, exp) → m.width = 8 →
      (s.core g.core).l1Find (m.pa / 128) = none → (s.core g.core).l1Find (pa / 128) = none → m.pa % 128 + 4 ≤ 128 →
      pa % 128 + 4 ≤ 128 → s.memWf = true → (s.core g.core).l1Wf →
      let old := Claims.number (memRead s.hbm) m.pa 4 + 2 ^ 32 * Claims.number (memRead s.hbm) pa 4
      let new := atomicOp code 8 old x cmp
      ∃ t, exec (.remoteAccessArrival k tag) s = .next t ∧ (s.now, .remoteAcknowledge k tag) ∈ t.agenda ∧
        (∀ a, t.storedAt g.core (0, a) = Claims.stored (Claims.stored seen m.pa 4 new) pa 4 (new / 2 ^ 32) a) ∧
        (t.wave k).held = (s.wave k).held.map fun p => Claims.receives p m old) ∧
    (¬Claims.late s m → Claims.hostPa m.pa → s.memWf = true →
      (m.op = .load → ∃ t, exec (.remoteAccessArrival k tag) s = .next t ∧ (s.now, .remoteAcknowledge k tag) ∈ t.agenda ∧
        (t.wave k).pending =
          Claims.received (s.wave k).pending m (Claims.number (memRead s.host) (Claims.hostAt m.pa) m.width)) ∧
      ∀ x, m.op = .store x → ∃ t, exec (.remoteAccessArrival k tag) s = .next t ∧
        (s.now, .remoteAcknowledge k tag) ∈ t.agenda ∧ t.hbm = s.hbm ∧ ∀ a, memRead t.host a =
          if Claims.hostAt m.pa ≤ a ∧ a < Claims.hostAt m.pa + x.length then x.getD (a - Claims.hostAt m.pa) 0 else memRead s.host a) ∧
    (¬Claims.late s m → exec (.remoteAccessRefused k tag) s = .next s) ∧
    (Claims.late s m → m.upper = none → ∀ pa exp, (translate s g.core g.ctx m.va acc).2 = .ok (pa, exp) →
      ∃ t, exec (.remoteAccessRefused k tag) s = .next t ∧ (s.now + 560, .remoteAccessArrival k tag) ∈ t.agenda ∧
        (t.wave k).remotes = (s.wave k).remotes.map fun q => if q.tag = tag then { m with pa := pa, exp := exp } else q) ∧
    (Claims.late s m → ∀ f, (translate s g.core g.ctx m.va acc).2 = .error f →
      ∃ t, exec (.remoteAccessRefused k tag) s = .next t ∧ (s.now, .remoteAcknowledge k tag) ∈ t.agenda ∧
        (t.wave k).remotes = (s.wave k).remotes ∧
        (m.op ≠ .load → (s.wave k).remoteFault = none →
          (t.wave k).remoteFault = some (f, m.op matches .atomic _ _ _, m.lane)) ∧
        (m.op = .load → ∀ p, ((s.wave k).pending.find? fun q => q.tag == m.owner) = some p →
          (∀ q ∈ (s.wave k).pending, q.tag = m.owner → q = p) →
          (f.reason ≠ rAbsent ∨ p.mask = none → ∀ q ∈ p.vregs, (t.wave k).deferred.get? q.1 =
            ((s.wave k).deferred.get? q.1).or (some { fault := f, lane := m.lane, ldpc := m.pc })) ∧
          ∀ x, f.reason = rAbsent → p.mask = some x → (t.wave k).deferred = (s.wave k).deferred ∧
            (t.wave k).pending = (s.wave k).pending.map fun q => if q.tag = m.owner then
              { p with
                vregs := p.vregs.map fun v => (v.1, blend m.lanes zeroLanes v.2)
                mask := some (x.1, x.2.1, x.2.2 ||| m.lanes) } else q)) ∧
    (m.op = .load → ∃ t, exec (.remoteAcknowledge k tag) s = .next t ∧
      (t.wave k).remotes = ((s.wave k).remotes.filter fun q => q.tag != tag) ∧
      ((∀ q ∈ (s.wave k).remotes, q.tag ≠ tag → q.owner = m.owner → q.op ≠ .load) →
        (s.now + 1, .loadResultReturn k m.owner) ∈ t.agenda)) ∧
    (m.op ≠ .load → k = s.cur → (s.wave k).remoteHold = true → (s.wave k).remoteFault = none →
      (∀ q ∈ (s.wave k).remotes, q.tag ≠ tag → q.op = .load) → IssuesPlainly s →
      ∃ t, exec (.remoteAcknowledge k tag) s = .next t ∧ t.w.remoteHold = false ∧ MovedOn s t 4 ∧
        ∀ p, (s.wave k).held = some p → t.w.pending = (s.wave k).pending ++ [p])

namespace Sys2Proof.Claims

/-! ### Binding, sync objects and fences -/

/-- sa and sb. -/
def scalars (a b : Nat) : List Opnd := [{ field := 1, kind := .s, reg := a }, { field := 2, kind := .s, reg := b }]
/-- sa. -/
def scalar1 (a : Nat) : List Opnd := [{ field := 1, kind := .s, reg := a }]

/-- An instruction of a wave whose handler takes its faults is refused with a code for a field and its register (R275). -/
def Refused (s : State) (i : Instr) (code field reg : Nat) : Prop :=
  s.w.regen = [] → s.toHandler s.cur { cause := 0x02 } = true →
    ∃ t, exec i s = .next t ∧ SameMemory s t s.g.core ∧ (∀ c, (t.ctx c).binds = (s.ctx c).binds) ∧
      EnteredHandler s t s.cur s.w.ipc { cause := 0x02, info := BitVec.ofNat 64 (code + 2 ^ 8 * field + 2 ^ 16 * reg) }

/-- OBJ of a kind (R129). -/
def object (kind obj : Nat) : Prop :=
  (kind ≤ 1 ∧ obj % 8 = 0 ∧ obj < 0xFE0000000000) ∨ (kind = 2 ∧ obj < 16) ∨ (kind = 3 ∧ obj = 0) ∨
    (kind = 4 ∧ obj < 256) ∨ (kind = 5 ∧ obj < 64)

/-- A binding table entry that BIND takes (R129, R130): its words lo and hi. -/
def entry (lo hi : DWord) : Prop :=
  let base := lo.toNat % 2 ^ 40 * 256
  let len := lo.toNat / 2 ^ 40 % 2 ^ 16 * 256
  let kind := lo.toNat / 2 ^ 60 % 8
  kind < 6 ∧ len ≠ 0 ∧ lo.toNat / 2 ^ 56 % 16 = 0 ∧ hi.toNat / 2 ^ 48 = 0 ∧ base + len ≤ 0xFE0000000000 ∧ object kind hi.toNat

/-- A line of 128 bytes overlaps one of some physical ranges. -/
def touches (rs : List (Nat × Nat)) (n : Nat) : Prop := ∃ r ∈ rs, 128 * n < r.1 + r.2 ∧ r.1 < 128 * n + 128
/-- Byte `i` of line `n` is valid in an L1. -/
def validAt (k : Core) (n i : Nat) : Bool := (k.l1Find n).any fun l => l.valid.getLsbD i
/-- It is dirty. -/
def dirtyAt (k : Core) (n i : Nat) : Bool := (k.l1Find n).any fun l => l.dirty.getLsbD i

/-- What ACQ, REL and the instructions of an object name: the ranges bound to it for the issuing wave. -/
def bound (s : State) (a b : Nat) : List (Nat × Nat) :=
  boundRanges s s.g.ctx (s.sreg a).toNat (s.sreg b).toNat
    (if (s.sreg a).toNat = 4 then s.queueRegion s.g.launch (s.sreg b).toNat else [])

/-- The instructions that write dirty bytes back (R126, R132, R360): operands, a condition on them, and the lines. -/
def publisher (s : State) : Instr → Option (List Opnd × Prop × (Nat → Prop))
  | .rel a b => some (scalars a b, (s.sreg a).toNat ≤ 5 ∧ object (s.sreg a).toNat (s.sreg b).toNat, touches (bound s a b))
  | .fenceC => some ([], True, fun _ => True)
  | .fenceD => some ([], True, fun _ => True)
  | .fenceS => some ([], True, fun _ => True)
  | .ifence => some ([], True, fun _ => True)
  | _ => none

/-- An operation that QFENCE waits for (R361). -/
def inQueues (s : State) (m : DWord) : Prop :=
  (∃ i o x, i < 8 ∧ m.getLsbD i = true ∧ o ∈ (s.cluster (s.g.core / 4)).engines.getD i [] ∧ o.group = s.w.group ∧
      x ∈ o.slices ∧ x.wid = s.w.wid) ∨
    (m.getLsbD 8 = true ∧ ∃ c ∈ s.c.matrixQ ++ s.g.frozen, c.wave = some s.cur ∧ (s.w.handler = true → c.inHandler = true)) ∨
    (m.getLsbD 9 = true ∧ ∃ x ∈ s.c.gatherQ, x.wave = s.cur)

/-- The tag of a wave in a lock word (R355). -/
def tag (s : State) : Nat :=
  (s.g.ctx % 2 ^ 16 * 2 ^ 48 + s.g.gid % 2 ^ 32 * 2 ^ 8 + s.w.wid * 2 ^ 4 + 1) % 2 ^ 64

/-- The word at s[a] is reached (R340, R358): it is aligned in the global window, and translates, now and again, to `pa`. -/
def reaches (s : State) (a : Nat) (acc : Acc) (pa : Nat) : Prop :=
  let va := (s.sreg a).toNat
  let x := translate s s.g.core s.g.ctx va acc
  va < 0xFE0000000000 ∧ va % 8 = 0 ∧ pa % 8 = 0 ∧ (∃ e, x.2 = .ok (pa, e)) ∧ ∃ e, (translate x.1 s.g.core s.g.ctx va acc).2 = .ok (pa, e)

/-- The 8-byte word at a physical address, as the core's stores have left it. -/
def wordAt (s : State) (pa : Nat) : Nat := number (fun a => s.storedAt s.g.core (0, a)) pa 8
/-- A word was stored there, and nothing else in the core's sight. -/
def WordStored (s t : State) (pa x : Nat) : Prop :=
  (∀ a, t.storedAt s.g.core (0, a) = stored (fun a => s.storedAt s.g.core (0, a)) pa 8 x a) ∧
    (∀ c b, (t.core c).buf b = (s.core c).buf b) ∧ t.host = s.host

/-- The permissions that LOCK, UNLOCK and SIGNAL need. -/
def atomicWrite : Acc := { write := true, atomic := true }

end Sys2Proof.Claims

/-- R129, R130, R353: BIND writes the entry that s[a] numbers and UNBIND clears its V bit; no other entry of any context
changes. An index not below the context's count, or an entry that breaks R130, is refused with code 0x34. R128, R132, R354: ACQ,
once the wave's store queue has drained, waits for its earlier loads, and clears the valid bit of every clean byte of the lines
of the core's L1 that overlap a region bound to the object; the other bytes stay. -/
def Obligations.BindingsAndAcquires : Prop :=
  (∀ (a b : Nat) (s : State), (Instr.bind a b).wellFormed = true → Issues s →
     let c := s.g.ctx
     let i := (s.sreg a).toNat
     let ops : List Opnd := [{ field := 1, kind := .s, reg := a }, { field := 2, kind := .s2, reg := b }]
     (Ready s 4 ops none → i < (s.ctx c).bindCount → Claims.entry (s.sreg b) (s.sreg (b + 1)) →
       ∃ t, exec (.bind a b) s = .next t ∧ Done s t [] [] [] false ∧ ∀ c' j, (t.ctx c').binds.getD j (0, 0) =
         if c' = c ∧ j = i then (s.sreg b, s.sreg (b + 1)) else (s.ctx c').binds.getD j (0, 0)) ∧
     (Ready s 4 ops none → (s.ctx c).bindCount ≤ i → Claims.Refused s (.bind a b) 0x34 1 a) ∧
     (Ready s 4 ops none → i < (s.ctx c).bindCount → ¬Claims.entry (s.sreg b) (s.sreg (b + 1)) →
       Claims.Refused s (.bind a b) 0x34 2 b) ∧
     (Ready s 4 (Claims.scalar1 a) none → i < (s.ctx c).bindCount →
       ∃ t, exec (.unbind a) s = .next t ∧ Done s t [] [] [] false ∧ ∀ c' j, (t.ctx c').binds.getD j (0, 0) =
         if c' = c ∧ j = i then
           (((s.ctx c).binds.getD i (0, 0)).1 &&& 0x7FFFFFFFFFFFFFFF, ((s.ctx c).binds.getD i (0, 0)).2)
         else (s.ctx c').binds.getD j (0, 0)) ∧
     (Ready s 4 (Claims.scalar1 a) none → (s.ctx c).bindCount ≤ i → Claims.Refused s (.unbind a) 0x34 1 a)) ∧
  (∀ (a b : Nat) (s : State), (Instr.acq a b).wellFormed = true → Ready s 4 (Claims.scalars a b) none → Issues s →
     (s.sreg a).toNat ≤ 5 → Claims.object (s.sreg a).toNat (s.sreg b).toNat → s.c.l1Wf → s.w.storeQ = [] →
     ((s.w.pending ≠ [] ∨ s.w.remotes ≠ []) → ∃ t, exec (.acq a b) s = .next t ∧ Waits s t) ∧
     (s.w.pending = [] → s.w.remotes = [] →
       ∃ t, exec (.acq a b) s = .next t ∧ Done s t [] [] [] false ∧ ∀ n i, i < 128 →
         (Claims.validAt (t.core s.g.core) n i = true ↔ Claims.validAt s.c n i = true ∧
           (Claims.touches (Claims.bound s a b) n → Claims.dirtyAt s.c n i = true)) ∧
         Claims.dirtyAt (t.core s.g.core) n i = Claims.dirtyAt s.c n i))

/-- R126, R132, R354, R359, R360: REL, FENCE.C, FENCE.D, FENCE.S and IFENCE, once the wave's store queue has drained and its loads
have returned, write every dirty byte of their lines back to HBM, and wait for the acknowledgement while there is one; what the
core reads as stored does not change. WRITE_BACK_ACKNOWLEDGE and HOST_STORE_ACKNOWLEDGE count the answers down. R126, R354, R359
to R361: each fence, REL and QFENCE completes once the work that it waits for is done. FENCE.D and FENCE.S then leave no clean
byte of the core's L1 valid, and IFENCE empties the core's instruction cache. QFENCE waits while an operation of the wave is in a
queue that it names, and a bit beyond 9 is refused with code 0x3A.

The model's choice: a write-back is acknowledged one cycle later (log 3). -/
def Obligations.WriteBacksAndFences : Prop :=
  ((∀ (i : Instr) (s : State) (os : List Opnd) (ok : Prop) (lines : Nat → Prop), Claims.publisher s i = some (os, ok, lines) →
     i.wellFormed = true → Ready s 4 os none → ok → Issues s → s.w.storeQ = [] → s.w.pending = [] → s.w.remotes = [] →
     s.w.scanned = false → s.memWf = true → s.c.l1Wf →
     ∃ t, exec i s = .next t ∧ SameRegs s t [] [] [] false ∧ SameMemory s t s.g.core ∧
       (∀ n j, j < 128 → lines n → Claims.dirtyAt s.c n j = true →
         memRead t.hbm (128 * n + j) = s.storedAt s.g.core (0, 128 * n + j) ∧ Claims.dirtyAt (t.core s.g.core) n j = false) ∧
       ((∃ n j, j < 128 ∧ lines n ∧ Claims.dirtyAt s.c n j = true) →
         Waits s t ∧ t.w.scanned = true ∧ t.w.wbOut ≠ 0 ∧ (s.now + 1, .writeBackAcknowledge s.cur) ∈ t.agenda)) ∧
   (∀ (k : Nat) (s : State), exec (.writeBackAcknowledge k) s = .next (s.setWave k { s.wave k with wbOut := 0 }) ∧
     exec (.hostStoreAcknowledge k) s = .next (s.setWave k { s.wave k with hostOut := (s.wave k).hostOut - 1 }))) ∧
  (∀ (s : State), Issues s →
     (Ready s 4 [] none → s.w.pending = [] → s.w.remotes = [] → ∃ t, exec .fenceW s = .next t ∧ Done s t [] [] [] false) ∧
     (Ready s 4 [] none → s.w.pending = [] → s.w.remotes = [] → s.w.storeQ = [] →
       ∃ t, exec .fenceG s = .next t ∧ Done s t [] [] [] false) ∧
     (Ready s 4 [] none → Published s → ∃ t, exec .fenceC s = .next t ∧ Done s t [] [] [] false) ∧
     (Ready s 4 [] none → Published s → s.c.l1Wf → ∀ i, (i = .fenceD ∨ (i = .fenceS ∧ s.w.hostOut = 0)) →
       ∃ t, exec i s = .next t ∧ Done s t [] [] [] false ∧
         ∀ n j, j < 128 → Claims.validAt (t.core s.g.core) n j = Claims.dirtyAt s.c n j) ∧
     (Ready s 4 [] none → Published s → ∃ t, exec .ifence s = .next t ∧ Done s t [] [] [] false ∧
       (t.core s.g.core).icache.rows = []) ∧
     (∀ a b, (Instr.rel a b).wellFormed = true → Ready s 4 (Claims.scalars a b) none → (s.sreg a).toNat ≤ 5 →
       Claims.object (s.sreg a).toNat (s.sreg b).toNat → Published s →
       ∃ t, exec (.rel a b) s = .next t ∧ Done s t [] [] [] false) ∧
     ∀ a, a < 32 → Ready s 4 (Claims.scalar1 a) none →
       ((s.sreg a).toNat < 2 ^ 10 → ¬Claims.inQueues s (s.sreg a) → ∃ t, exec (.qfence a) s = .next t ∧ Done s t [] [] [] false) ∧
       ((s.sreg a).toNat < 2 ^ 10 → Claims.inQueues s (s.sreg a) → ∃ t, exec (.qfence a) s = .next t ∧ Waits s t) ∧
       (2 ^ 10 ≤ (s.sreg a).toNat → Claims.Refused s (.qfence a) 0x3A 1 a))

/-- R355 to R358: LOCK writes the wave's tag into a free lock word, waits while another holds it, and is refused with code 0x33 if
the wave holds it itself; UNLOCK writes 0 into a word that holds the tag and is else refused with code 0x32; SIGNAL adds to the
counter; WAITGE completes when the counter, with what the core itself has stored there (log 84), has reached the target, as signed
numbers, and waits until then. LOCK waits for the wave's earlier loads. The retries let a waiting wave try again. -/
def Obligations.LocksAndCounters : Prop :=
  (∀ (a : Nat) (s : State) (pa : Nat), a < 32 → Ready s 4 (Claims.scalar1 a) none → Issues s →
    Claims.reaches s a Claims.atomicWrite pa → s.memWf = true → s.c.l1Wf → s.uncorr = [] →
    ((s.w.pending ≠ [] ∨ s.w.remotes ≠ []) → s.w.storeQ = [] → ∃ t, exec (.lock a) s = .next t ∧ Waits s t) ∧
    (s.w.pending = [] → s.w.remotes = [] → s.w.storeQ = [] →
      (Claims.wordAt s pa = 0 → ∃ t, exec (.lock a) s = .next t ∧ MovedOn s t 4 ∧ SameRegs s t [] [] [] false ∧
        Claims.WordStored s t pa (Claims.tag s)) ∧
      (Claims.wordAt s pa = Claims.tag s → s.w.wid < 16 → Claims.Refused s (.lock a) 0x33 1 a) ∧
      (Claims.wordAt s pa ≠ 0 → Claims.wordAt s pa ≠ Claims.tag s → s.w.wid < 16 → ∃ t, exec (.lock a) s = .next t ∧ Waits s t ∧
        t.w.retryAt = s.now + 64 ∧ ∃ q ∈ t.agenda, q.2 = .lockRetry s.cur)) ∧
    (Published s →
      (Claims.wordAt s pa = Claims.tag s → s.w.wid < 16 → ∃ t, exec (.unlock a) s = .next t ∧ MovedOn s t 4 ∧ SameRegs s t [] [] [] false ∧
        Claims.WordStored s t pa 0) ∧
      (Claims.wordAt s pa ≠ Claims.tag s → s.w.wid < 16 → Claims.Refused s (.unlock a) 0x32 1 a))) ∧
  (∀ (a b : Nat) (s : State) (pa : Nat), a < 32 → b < 32 → Ready s 4 (Claims.scalars a b) none → Issues s →
    Claims.reaches s a Claims.atomicWrite pa → s.memWf = true → s.c.l1Wf → s.uncorr = [] → Published s →
    ∃ t, exec (.signal a b) s = .next t ∧ MovedOn s t 4 ∧ SameRegs s t [] [] [] false ∧
      Claims.WordStored s t pa ((Claims.wordAt s pa + (s.sreg b).toNat) % 2 ^ 64)) ∧
  (∀ (a b : Nat) (s : State) (pa : Nat), a < 32 → b < 32 → Ready s 4 (Claims.scalars a b) none → Issues s →
    Claims.reaches s a { atomic := true } pa → s.w.pending = [] → s.w.remotes = [] → s.w.storeQ = [] → s.memWf = true → s.c.l1Wf →
    s.uncorr = [] →
    let x := BitVec.ofNat 64 (Claims.wordAt s pa)
    ((s.sreg b).toInt ≤ x.toInt → ∃ t, exec (.waitge a b) s = .next t ∧ Done s t [] [] [] false) ∧
    (x.toInt < (s.sreg b).toInt → ∃ t, exec (.waitge a b) s = .next t ∧ Waits s t ∧ t.w.retryAt = s.now + 64 ∧
      ∃ q ∈ t.agenda, q.2 = .waitgePoll s.cur)) ∧
  ∀ (k : Nat) (i : Instr) (s : State), (i = .lockRetry k ∨ i = .waitgePoll k ∨ i = .lockBitRetry k) →
    exec i s = .next (s.setWave k { s.wave k with retryAt := 0, waiting := false })
namespace Sys2Proof.Claims
/-- vd, neither read nor written (R364, R365). -/
def vector1 (d : Nat) : List Opnd := [{ field := 0, kind := .v, reg := d }]
/-- The recipes of a wave but the one whose set holds `d`. -/
def without (s : State) (d : Nat) : List Recipe := s.w.recipes.filter fun x => !(x.regs.contains d)
/-- The registers of `n` granules from granule `g` on (R200). -/
def granule (g n : Nat) : List Nat := (List.range (8 * n)).map (8 * g + ·)
/-- A wave's set becomes demoted: its registers hold no values (R190). -/
def demoted (s : State) (p : Nat × Recipe) : State :=
  let w := s.wave p.1
  s.setWave p.1 { w with
    recipes := w.recipes.map fun y => if y.entry = p.2.entry then { y with demoted := true } else y
    v := p.2.regs.foldl (fun v r => v.erase r) w.v }
/-- `u` is `s` after the core has demoted some sets, least recently used first, none of them once `n` more names fit (R190,
R200). -/
def Demotes (core n : Nat) : List (Nat × Recipe) → State → State → Prop
  | [], s, u => u = s
  | p :: t, s, u => 2048 < s.backing core + n ∧ p ∈ s.demotable core ∧ ((s.wave p.1).recipes.map (·.entry)).Nodup ∧
      (∀ q ∈ s.demotable core, q = p ∨ p.2.used < q.2.used) ∧ Demotes core n t (demoted s p) u
/-- The registers of a wave that some demotions took. -/
def lost (l : List (Nat × Recipe)) (k : Nat) : List Nat := l.flatMap fun p => if p.1 = k then p.2.regs else []
end Sys2Proof.Claims

/-- R188, R190, R191, R193, R364, R365: RDROP frees the entry of a materialised set, RMAT leaves it as it is, RDEMOTE makes it
hold no values; each of RDROP and RMAT first begins the regeneration of a demoted set (its slice from the instruction after the
header, with its recorded length), after demotions of other sets if its registers need room, or waits for registers (R201).
RMARK records a recipe for its eligible set, with the lanes, the jet order and the rounding in force, in an entry that no wave
of the core uses; without recipes in the Endpaper it only drops. -/
def Obligations.RecipesAreKept : Prop :=
  ∀ (d : Nat) (s : State), d < 128 → Ready s 4 (Claims.vector1 d) none → Issues s →
    (s.w.mustRegen d = none →
      (∃ t, exec (.rdrop d) s = .next t ∧ Done s t [] [] [] false ∧ t.w.recipes = Claims.without s d) ∧
      (∃ t, exec (.rmat d) s = .next t ∧ Done s t [] [] [] false ∧ t.w.recipes = s.w.recipes)) ∧
    (∀ x l u, s.w.mustRegen d = some x → s.uncorr = [] → l.length ≤ 256 → Claims.Demotes s.g.core x.count l s u →
      ∀ i, (i = .rdrop d ∨ i = .rmat d) →
      (u.backing s.g.core + x.count ≤ 2048 →
        ∃ t r, exec i s = .next t ∧ SameRegs s t (Claims.lost l s.cur) [] [] false ∧ t.w.duct = s.w.duct ∧
          (∀ k, (t.wave k).recipes = (u.wave k).recipes) ∧
          t.w.regen = r :: s.w.regen ∧ r.entry = x.entry ∧ r.pc = x.slice + 4 ∧ r.left = x.len) ∧
      (u.demotable s.g.core = [] → 2048 < u.backing s.g.core + x.count →
        ∃ t, exec i s = .next t ∧ t.w.phase = .regWait x.count s.now false ∧ t.w.duct = s.w.duct ∧
          SameRegs s t (Claims.lost l s.cur) [] [] false ∧ t.w.regen = s.w.regen)) ∧
    (∀ x, s.w.setOf d = some x → x.demoted = false → (s.w.recipes.map (·.entry)).Nodup →
      ∃ t, exec (.rdemote d) s = .next t ∧ Done s t x.regs [] [] false ∧
        t.w.recipes = (s.w.recipes.map fun y => if y.entry = x.entry then { y with demoted := true } else y) ∧
        ∀ r ∈ x.regs, t.w.vreg r = zeroLanes ∧ (s.w.setOf r = some x → t.w.isDemoted r = true)) ∧
    ((∀ x, s.w.setOf d = some x → x.demoted = true) →
      ∃ t, exec (.rdemote d) s = .next t ∧ Done s t [] [] [] false ∧ t.w.recipes = s.w.recipes) ∧
    ∀ i, i < 2 ^ 18 → IssuesPlainly s → s.w.mustRegen d = none → s.w.isEmpty d = false →
      (s.g.ep.recipes = false → ∃ t, exec (.rmark d i) s = .next t ∧ Done s t [] [] [] false ∧ t.w.recipes = Claims.without s d) ∧
      (s.g.ep.recipes = true → ∀ sl fs, s.sliceAt i = some sl → sliceForms none sl.code = some fs → sl.dest = d →
        let n := sliceCount s.w.order fs
        let ins := sliceInputs d fs
        sliceAligned s.w.order d fs = true → d + n ≤ 8 * s.w.granules → s.w.active ≠ 0 →
        (∀ r, r ∈ (List.range n).map (d + ·) ++ ins.flatMap (inputRegs s.w.order) → s.w.isEmpty r = false) →
        (∀ r ∈ ins.flatMap inputScalars, s.w.sbusy.getLsbD r = false) →
        (∃ e, e < 256 ∧ ∀ k ∈ s.wavesOn s.g.core, ∀ y ∈ (s.wave k).recipes, y.entry ≠ e) →
        ∃ t x, exec (.rmark d i) s = .next t ∧ Done s t [] [] [] false ∧ t.w.recipes = Claims.without s d ++ [x] ∧
          x.dest = d ∧ x.count = n ∧ x.lanes = s.w.active ∧ x.jord = s.w.order ∧ x.fpctl = s.w.fpctl &&& 7 ∧
          x.demoted = false ∧ x.len = fs.length ∧ x.slice = (s.g.ep.addr + (s.g.ep.rcpOff + 2 * sl.off)).toNat ∧
          x.vins = ins.flatMap (inputRegs s.w.order) ∧ x.sins = ins.flatMap inputScalars ∧ x.entry < 256 ∧
          ∀ k ∈ s.wavesOn s.g.core, k ≠ s.cur → ∀ y ∈ (s.wave k).recipes, y.entry ≠ x.entry)

/-- R190, R200 to R202, R363: GROW gives the wave granules whose registers read zero and are full, where no request waits and the
core's backing count leaves room, after it has demoted eligible sets, least recently used first, as far as needed; else it enters
register wait. SHRINK gives granules up. GROW_GRANT makes the oldest waiting GROW take effect, after such demotions, and no other
while that one does not fit; so does GROW_DEADLOCK_BREAKER, which, after 256 cycles in which nothing can be granted, has the group
most recently placed spilled. A count of 0,
or one beyond 16 granules or beyond those held, is refused with code 0x37.

The model's choice: code 0x37 comes with field 1 and the count as register (log 27). -/
def Obligations.Granules : Prop :=
  (∀ (n : Nat) (s : State), n < 16 → Ready s 4 [] none → Issues s →
    (∀ l u, 1 ≤ n → s.w.granules + n ≤ 16 → s.w.phase = .run → s.regWaiters s.g.core = [] → l.length ≤ 256 →
      Claims.Demotes s.g.core (8 * n) l s u → u.backing s.g.core + 8 * n ≤ 2048 →
      ∃ t, exec (.grow n) s = .next t ∧ Done s t (Claims.granule s.w.granules n ++ Claims.lost l s.cur) [] [] false ∧
        t.w.granules = s.w.granules + n ∧ (∀ k, (t.wave k).recipes = (u.wave k).recipes) ∧
        ∀ r ∈ Claims.granule s.w.granules n, t.w.vreg r = zeroLanes ∧ t.w.isEmpty r = false) ∧
    (∀ l u, 1 ≤ n → s.w.granules + n ≤ 16 → s.regWaiters s.g.core = [] → l.length ≤ 256 →
      Claims.Demotes s.g.core (8 * n) l s u → u.demotable s.g.core = [] → 2048 < u.backing s.g.core + 8 * n →
      ∃ t, exec (.grow n) s = .next t ∧ t.w.phase = .regWait (8 * n) s.now true ∧ t.w.duct = s.w.duct ∧
        SameRegs s t (Claims.lost l s.cur) [] [] false ∧ t.w.granules = s.w.granules ∧
        (∀ k, (t.wave k).recipes = (u.wave k).recipes) ∧ ∃ q ∈ t.agenda, q.2 = .growGrant s.g.core) ∧
    (1 ≤ n → s.w.granules + n ≤ 16 → s.regWaiters s.g.core ≠ [] →
      ∃ t, exec (.grow n) s = .next t ∧ t.w.phase = .regWait (8 * n) s.now true ∧ SameRegs s t [] [] [] false ∧
        t.w.duct = s.w.duct ∧ t.w.granules = s.w.granules ∧ ∃ q ∈ t.agenda, q.2 = .growGrant s.g.core) ∧
    ((n = 0 ∨ 16 < s.w.granules + n) → Claims.Refused s (.grow n) 0x37 1 n) ∧
    (1 ≤ n → n < s.w.granules → s.w.granules ≤ 16 →
      (∀ r ∈ Claims.granule (s.w.granules - n) n, s.w.vpinned r = []) →
      (∀ p ∈ s.w.pending, ∀ q ∈ p.vregs, q.1 < 8 * (s.w.granules - n)) →
      (∀ x ∈ s.w.recipes, x.demoted = true → x.dest + x.count ≤ 8 * (s.w.granules - n) ∨ 8 * (s.w.granules - n) ≤ x.dest) →
      ∃ t, exec (.shrink n) s = .next t ∧ Done s t (Claims.granule (s.w.granules - n) n) [] [] false ∧
        t.w.granules = s.w.granules - n ∧
        t.w.recipes = s.w.recipes.filter fun x => decide (x.dest + x.count ≤ 8 * (s.w.granules - n))) ∧
    ((n = 0 ∨ s.w.granules ≤ n) → Claims.Refused s (.shrink n) 0x37 1 n)) ∧
  (∀ (core k n since : Nat) (s u : State) (l : List (Nat × Recipe)) (i : Instr),
    (i = .growGrant core ∨ i = .growDeadlockBreaker core) → s.regWaiters core = [(since, k, 8 * n, true)] → l.length ≤ 256 →
    Claims.Demotes core (8 * n) l s u → u.backing core + 8 * n ≤ 2048 →
    (s.wave k).granules + n ≤ 16 → IssuesPlainly { s with cur := k } →
    ∃ t, exec i s = .next t ∧ (t.wave k).phase = .run ∧ (t.wave k).granules = (s.wave k).granules + n ∧
      MovedOn { s with cur := k } { t with cur := k } ((s.wave k).barLen) ∧ (∀ j, (t.wave j).recipes = (u.wave j).recipes) ∧
      SameRegs { s with cur := k } { t with cur := k } (Claims.granule (s.wave k).granules n ++ Claims.lost l k) [] [] false ∧
      (∀ g, (t.group g).forced = (s.group g).forced) ∧
      ∀ r ∈ Claims.granule (s.wave k).granules n, (t.wave k).vreg r = zeroLanes ∧ (t.wave k).isEmpty r = false) ∧
  (∀ (core : Nat) (s : State) (p : Nat × Nat × Nat × Bool), p ∈ s.regWaiters core →
    (∀ q ∈ s.regWaiters core, q = p ∨ p.1 < q.1) → s.demotable core = [] → 2048 < s.backing core + p.2.2.1 →
    ∃ t, exec (.growGrant core) s = .next t ∧ t.waves = s.waves) ∧
  ∀ (core g since : Nat) (s : State), s.resident core ≠ [] →
    (∀ h ∈ s.resident core, ∃ k ∈ s.wavesOf h, ∃ n t b, (s.wave k).phase = .regWait n t b) → s.demotable core = [] →
    (∀ w ∈ s.regWaiters core, 2048 < s.backing core + w.2.2.1) → (s.core core).deadlockSince = some since →
    since + 256 ≤ s.now → (∀ h ∈ s.resident core, (s.group h).forced = none) → g ∈ s.resident core →
    (∀ h ∈ s.resident core, h ≠ g → (s.group h).placedAt < (s.group g).placedAt) →
    ∃ t, exec (.growDeadlockBreaker core) s = .next t ∧ (t.group g).forced = some 2 ∧ t.waves = s.waves ∧
      ∃ q ∈ t.agenda, q.2 = .groupStop g
namespace Sys2Proof.Claims

/-! ### Handles, copies and the Spine -/

/-- The words of a status record (R106), for fields that fit. -/
def statusWord (x : HStatus) : Nat :=
  x.len + x.tflags * 2 ^ 32 + x.conv * 2 ^ 36 + x.reason * 2 ^ 40 + x.skip * 2 ^ 52 + x.code * 2 ^ 56 + x.state * 2 ^ 62
/-- Handle `h` of the issuing group. -/
def handle (s : State) (h : Nat) : Handle := s.handle s.w.group h
/-- The other handles of the group are as they were. -/
def otherHandles (s t : State) (g h : Nat) : Prop := ∀ k, k ≠ h → t.handle g k = s.handle g k
/-- A walk of a page request ends: with the address resident, or with a fault other than non-residency (R31). -/
def filled (s : State) (g va : Nat) (x : HStatus) : Option HStatus :=
  match freshWalk s (s.group g).ctx va {} with
  | .ok _ => some { x with state := 2, code := 0 }
  | .error f => if f.reason = rAbsent then none else some { x with state := 2, code := 1, reason := f.reason }
end Sys2Proof.Claims

/-- R105 to R108, R128, R174, R371: HWAIT and HFREE wait for a full handle and acquire it, once the wave's store queue has
drained and its loads have returned; HFREE returns it to free and keeps its record; HSTAT reads the status word, at once where
the handle is not full (a free handle reads 0 under the HSTATFREE erratum, R413), and acquires a full one. With the Nib role set
and the Nib lane inactive HWAIT and HFREE have no effect. R109: a fault that waits at a handle is taken by the first instruction
that names it. -/
def Obligations.Handles : Prop :=
  ∀ (h : Nat) (s : State), h < 64 → Issues s →
    let g := s.w.group
    let x := Claims.handle s h
    let skipped := s.g.ep.nib = true ∧ bit s.w.active s.w.nib = false ∧ ∀ y, s.w.pre = some y → s.w.mbusy.getLsbD y.pm = false
    let loading := s.w.pending ≠ [] ∨ s.w.remotes ≠ []
    (skipped → ∀ i, (i = .hwait h ∨ i = .hfree h) →
      ∃ t, exec i s = .next t ∧ Done s t [] [] [] false ∧ t = s.setW t.w) ∧
    (¬skipped → Ready s 4 [] none → x.poison = none →
      (x.st.state = 2 → ¬loading → s.w.storeQ = [] → s.c.l1Wf →
        (∃ t, exec (.hwait h) s = .next t ∧ Done s t [] [] [] false ∧ Claims.handle t h = x ∧ Claims.otherHandles s t g h) ∧
        ∃ t, exec (.hfree h) s = .next t ∧ Done s t [] [] [] false ∧ (Claims.handle t h).bound = false ∧
          (Claims.handle t h).st = { x.st with state := 0 } ∧ Claims.otherHandles s t g h) ∧
      ((x.st.state ≠ 2 ∨ (loading ∧ s.w.storeQ = [])) → ∀ i, (i = .hwait h ∨ i = .hfree h) →
        ∃ t, exec i s = .next t ∧ Waits s t ∧ Claims.handle t h = x)) ∧
    (¬skipped → Ready s 4 [] none → ∀ p, x.poison = some p → s.w.regen = [] →
      s.toHandler s.cur { cause := p.1 } = true → ∀ i, (i = .hwait h ∨ i = .hfree h) →
      ∃ t, exec i s = .next t ∧ (Claims.handle t h).poison = none ∧
        EnteredHandler s t s.cur s.w.ipc { cause := p.1, addr := p.2.1, info := p.2.2 }) ∧
    ∀ d, d < 32 → Ready s 4 [{ field := 0, kind := .s, reg := d, dst := true }] none →
      (x.poison = none → x.st.len < 2 ^ 32 → x.st.state < 4 → s.c.l1Wf →
        (x.st.state = 2 → ¬loading ∧ s.w.storeQ = []) →
        ∃ t, exec (.hstat d h) s = .next t ∧ Done s t [] [d] [] false ∧ t.w.sreg d =
          if s.compat 3 = true ∧ x.bound = false then 0 else BitVec.ofNat 64 (Claims.statusWord x.st)) ∧
      (x.poison = none → x.st.state = 2 → loading → s.w.storeQ = [] →
        ∃ t, exec (.hstat d h) s = .next t ∧ Waits s t ∧ Claims.handle t h = x) ∧
      ∀ p, x.poison = some p → s.w.regen = [] → s.toHandler s.cur { cause := p.1 } = true →
        ∃ t, exec (.hstat d h) s = .next t ∧ (Claims.handle t h).poison = none ∧
          EnteredHandler s t s.cur s.w.ipc { cause := p.1, addr := p.2.1, info := p.2.2 }

namespace Sys2Proof.Claims
/-- The handles that wait on a page of an owner (R33). -/
def waiting (s : State) (o page : Nat) : Nat :=
  ((s.groups.vals.map fun g => (g.handles.vals.countP fun h =>
    match h.work with
    | .fill _ (some e) => e == (o, page)
    | _ => false)).foldr (· + ·) 0)
/-- A walk for context `c` found a page of an owner not resident: its entry was written to the owner's ring, where that is enabled
and no request for the page has an entry yet; a full ring is left, and a ring that cannot be written is marked (R32, R33). -/
def Requested (s t : State) (c o page : Nat) : Prop :=
  let x := s.ctx o
  let same := t.hbm = s.hbm ∧ t.host = s.host
  if x.prqEn = true ∧ ∀ p ∈ x.requested, p.1 ≠ page then
    match s.ringWrite o x.prqBase (16 * 2 ^ x.prqSize)
      (leBytes 8 page ++ leBytes 8 c ++ leBytes 2 (if s.bigPage o page then 1 else 0) ++ leBytes 2 0 ++
        leBytes 4 (waiting t o page) ++ leBytes 40 0) with
    | .done s' => t.hbm = s'.hbm ∧ t.host = s'.host ∧ (t.ctx o).requested = (page, false) :: x.requested
    | .full => same ∧ (t.ctx o).requested = x.requested
    | .failed _ => same ∧ (t.ctx o).requested = (page, true) :: x.requested
  else same ∧ (t.ctx o).requested = x.requested
/-- The page of an address in its owner's window, as a walk that finds it not resident gives them (R22). -/
def absent (s : State) (c va : Nat) : Option (Nat × Nat) :=
  match freshWalk s c va {} with
  | .ok _ => none
  | .error f => if f.reason = rAbsent then
      some (f.owner.getD c, f.addr / (if s.bigPage (f.owner.getD c) f.addr then 2 ^ 25 else 2 ^ 16) *
        (if s.bigPage (f.owner.getD c) f.addr then 2 ^ 25 else 2 ^ 16))
    else none
end Sys2Proof.Claims

/-- R26, R27, R28, R31 to R33, R108, R362: PAGEREQ.FILL takes a free handle, which becomes full when its address is resident, or
with the reason of another fault; until then the page's owner has an entry in its page-request ring, and the walk is made again.
PAGEREQ.SETTLE's handle becomes full after the lease horizon. Both wait for a free handle. At its expiry a mapping leaves the
TLBs, and a dirty line of the L1 is written back. -/
def Obligations.PageRequestsAndLeases : Prop :=
  (∀ (h a : Nat) (s : State), h < 64 → a < 32 → Issues s → s.w.storeQ = [] → (Claims.handle s h).poison = none →
    let g := s.w.group
    (s.canBind g h = true → Ready s 4 (Claims.scalar1 a) none → (s.sreg a).toNat < 0xFE0000000000 →
      ∃ t, exec (.pagereqFill h a) s = .next t ∧ MovedOn s t 4 ∧ SameRegs s t [] [] [] false ∧
        Claims.otherHandles s t g h ∧ (Claims.handle t h).bound = true ∧
        match Claims.filled s g (s.sreg a).toNat {} with
        | some st => (Claims.handle t h).st = st ∧ SameMemory s t s.g.core
        | none => (Claims.handle t h).st.state = 1 ∧ Claims.Due t (.pagereqRewalk g h) ∧
            ∀ e, Claims.absent s s.g.ctx (s.sreg a).toNat = some e →
              (Claims.handle t h).work = .fill (s.sreg a).toNat (some e) ∧ Claims.Requested s t s.g.ctx e.1 e.2) ∧
    (Ready s 4 (Claims.scalar1 a) none → 0xFE0000000000 ≤ (s.sreg a).toNat → Claims.Refused s (.pagereqFill h a) 0x35 1 a) ∧
    (Ready s 4 (Claims.scalar1 a) none → (s.sreg a).toNat < 0xFE0000000000 → s.canBind g h = false →
      ∃ t, exec (.pagereqFill h a) s = .next t ∧ Waits s t ∧ t.groups = s.groups) ∧
    (Ready s 4 [] none → s.canBind g h = true →
      let due := s.now + 2000 * leaseHorizon s s.g.ctx
      ∃ t, exec (.pagereqSettle h) s = .next t ∧ Done s t [] [] [] false ∧ Claims.otherHandles s t g h ∧
        Claims.handle t h = { bound := true, st := { state := 1 }, work := .settle due } ∧
        (due, .pagereqSettleExpiry g h) ∈ t.agenda) ∧
    (Ready s 4 [] none → s.canBind g h = false → ∃ t, exec (.pagereqSettle h) s = .next t ∧ Waits s t ∧ t.groups = s.groups)) ∧
  (∀ (g h va : Nat) (e : Option (Nat × Nat)) (s : State), (s.handle g h).work = .fill va e →
    let c := (s.group g).ctx
    ∃ t, exec (.pagereqRewalk g h) s = .next t ∧
      match Claims.filled s g va (s.handle g h).st with
      | some st => (t.handle g h).st = st ∧ (t.handle g h).work = .idle
      | none => (t.handle g h).st = (s.handle g h).st ∧ Claims.Due t (.pagereqRewalk g h) ∧
          ∀ e, Claims.absent s c va = some e → (t.handle g h).work = .fill va (some e) ∧ Claims.Requested s t c e.1 e.2) ∧
  (∀ (g h due : Nat) (s : State), (s.handle g h).work = .settle due →
    (due ≤ s.now → ∃ t, exec (.pagereqSettleExpiry g h) s = .next t ∧
      (t.handle g h).st = { (s.handle g h).st with state := 2, code := 0 }) ∧
    (s.now < due → exec (.pagereqSettleExpiry g h) s = .next s)) ∧
  (∀ (core : Nat) (s : State), ∃ t, exec (.mappingLeaseExpiry core) s = .next t ∧ SameMemory s t core ∧
    (t.core core).tlb = ((s.core core).tlb.filter fun m => decide (s.now + 2000 < m.exp)) ∧
    (∀ m ∈ (t.cluster (core / 4)).tlb, m ∈ (s.cluster (core / 4)).tlb ∧ s.now + 2000 < m.exp) ∧
    ∀ p ∈ t.walkers.rows, ∀ m ∈ p.2, s.now + 2000 < m.exp) ∧
  ∀ (core line : Nat) (s : State) (l : L1Line), (s.core core).l1Find line = some l → l.exp ≤ s.now + 2000 →
    s.memWf = true → (s.core core).l1Wf →
    ∃ t, exec (.l1LeaseWriteback core line) s = .next t ∧ SameMemory s t core ∧
      ∀ i, i < 128 → Claims.dirtyAt (t.core core) line i = false ∧
        (l.dirty.getLsbD i = true → memRead t.hbm (128 * line + i) = l.byte i)

namespace Sys2Proof.Claims
/-- The entries of a saved FIFO as its area of 128 bytes each gives them; one that cannot be read is the one saved (log 33). -/
def savedFifo (s : State) (c a : Nat) (f : Spine) : List Lanes :=
  f.entries.zipIdx.map fun p =>
    match s.globReadRun c (a + 128 + 128 * p.2) 128 with
    | .ok b => lanesOf fun l => BitVec.ofNat 32 (leNat ((b.drop (4 * l)).take 4))
    | .error _ => p.1.2
end Sys2Proof.Claims

/-- R62 to R64, R374: SPUSH puts the 32 lanes of its register at the end of the FIFO into the partner core and takes a credit, or
waits for one; SPOP takes the head entry once it has arrived, to the active lanes, and returns the credit, or waits; SPCNT reads
the sender's free count. The Roltik-2 rows do the same. Without both cores of the pair they are refused with code 0x5C. The
entries of a pair folio return to empty FIFOs, and until those are empty the restore is tried again. The model's choices: a popped
register is full four cycles later (log 3), an uncorrectable word is met by the head entry alone (log 46), and an entry of a pair
folio that cannot be read is the one saved in the device (log 33). -/
def Obligations.SpineFifos : Prop :=
  (∀ (r : Nat) (i : Instr) (s : State), r < 128 → Issues s →
    let core := s.g.core
    let p := partner core
    let x := (s.core p).spine
    let y := (s.core core).spine
    let both := s.granted s.g.ctx core = true ∧ s.granted s.g.ctx p = true
    ((i = .spush r ∨ i = .spushRoltik2 r) → Ready s 4 [{ field := 1, kind := .v, reg := r, src := some 0 }] none → both →
      (s.spineFree p ≠ 0 → ∃ t, exec i s = .next t ∧ Done s t [] [] [] false ∧
        (t.core p).spine = { x with entries := x.entries ++ [(s.now + s.spineDelay p, s.vaReg r)], free := x.free - 1 } ∧
        (s.now + s.spineDelay p, .spineEntryArrival p) ∈ t.agenda) ∧
      (s.spineFree p = 0 → ∃ t, exec i s = .next t ∧ Waits s t)) ∧
    ((i = .spop r ∨ i = .spopRoltik2 r) → Ready s 4 [{ field := 0, kind := .v, reg := r, dst := true }] none → both →
      (∀ v rest, y.entries = (0, v) :: rest → s.uncorr = [] →
        ∃ t q, exec i s = .next t ∧ Done s t [r] [] [] false ∧ (t.core core).spine.entries = rest ∧
          (t.core core).spine.credits = y.credits ++ [s.now + s.spineDelay core] ∧ t.w.isEmpty r = true ∧
          t.w.pending = s.w.pending ++ [q] ∧ q.vregs = [(r, v)] ∧ q.lanes = s.w.active ∧ q.dem = s.w.dem ∧
          (s.now + 4, .loadResultReturn s.cur q.tag) ∈ t.agenda ∧
          (s.now + s.spineDelay core, .spineCreditReturn core) ∈ t.agenda) ∧
      ((∀ v rest, y.entries ≠ (0, v) :: rest) → ∃ t, exec i s = .next t ∧ Waits s t)) ∧
    ((i = .spcnt r ∨ i = .spcntRoltik2 r) → r < 32 → Ready s 4 [{ field := 0, kind := .s, reg := r, dst := true }] none → both →
      ∃ t, exec i s = .next t ∧ Done s t [] [r] [] false ∧ t.w.sreg r = BitVec.ofNat 64 (s.spineFree p)) ∧
    ((i = .spush r ∨ i = .spushRoltik2 r) → Ready s 4 [{ field := 1, kind := .v, reg := r, src := some 0 }] none → ¬both →
      Claims.Refused s i 0x5C 7 0) ∧
    ((i = .spop r ∨ i = .spopRoltik2 r) → Ready s 4 [{ field := 0, kind := .v, reg := r, dst := true }] none → ¬both →
      Claims.Refused s i 0x5C 7 0) ∧
    ((i = .spcnt r ∨ i = .spcntRoltik2 r) → r < 32 → Ready s 4 [{ field := 0, kind := .s, reg := r, dst := true }] none → ¬both →
      Claims.Refused s i 0x5C 7 0)) ∧
  (∀ (core : Nat) (s : State), let x := (s.core core).spine
    (∃ t, exec (.spineEntryArrival core) s = .next t ∧
      (t.core core).spine = { x with entries := x.entries.map fun e => if e.1 ≤ s.now then (0, e.2) else e }) ∧
    ∃ t, exec (.spineCreditReturn core) s = .next t ∧ (t.core core).spine.entries = x.entries ∧
      (t.core core).spine.free = x.free + x.credits.countP (fun u => decide (u ≤ s.now)) ∧
      (t.core core).spine.credits = x.credits.filter fun u => decide (s.now < u)) ∧
  ∀ (c core slot : Nat) (lo hi : Spine) (s : State), (s.ctx c).pairFolios = [(slot, core, lo, hi)] →
    let turns := s.holdsTurn c core = true ∧ s.holdsTurn c (core + 192) = true
    let empty := (s.core core).spine.entries = [] ∧ (s.core (core + 192)).spine.entries = []
    let area := (s.ctx c).saveBase + slot * 2 ^ 21
    (turns → empty → ∃ t, exec (.spinePairFolioRestore c core) s = .next t ∧ (t.ctx c).pairFolios = [] ∧
      slot ∉ (t.ctx c).folioUsed ∧ (t.core core).spine.entries.map (·.2) = Claims.savedFifo s c (area + 0x49000) lo ∧
      (t.core (core + 192)).spine.entries.map (·.2) = Claims.savedFifo s c (area + 0x50000) hi ∧
      (lo.entries ≠ [] → (t.core core).spine.free = 16 - lo.entries.length) ∧
      (hi.entries ≠ [] → (t.core (core + 192)).spine.free = 16 - hi.entries.length)) ∧
    (turns → ¬empty → ∃ t, exec (.spinePairFolioRestore c core) s = .next t ∧ t.ctxs = s.ctxs ∧ t.cores = s.cores ∧
      Claims.Due t (.spinePairFolioRestore c core)) ∧
    (¬turns → exec (.spinePairFolioRestore c core) s = .next s)
namespace Sys2Proof.Claims

/-- The Nib role is set and the Nib lane is not active: a tile instruction is skipped (R174), once the mask of its predicate has
no outstanding producer (R282, R283). -/
def skipped (s : State) : Prop :=
  s.g.ep.nib = true ∧ bit s.w.active s.w.nib = false ∧ ∀ x, s.w.pre = some x → s.w.mbusy.getLsbD x.pm = false
/-- v and the pair s[c], s[c + 1] of a copy (R368, R369). -/
def copyOps (v c : Nat) : List Opnd :=
  [{ field := 0, kind := .v, reg := v, src := some 0 }, { field := 4, kind := .s2, reg := c }]
/-- Descriptor `c` of the issuing wave's core. -/
def cbuf (s : State) (c : Nat) : CBuf := s.c.cbs.getD c {}
/-- The fields of CBSET's word that it takes for a group (R372). -/
def cbWord (s : State) (w : Nat) : Prop :=
  w / 2 ^ 48 % 2 ^ 14 = 0 ∧ w / 2 ^ 12 % 2 ^ 16 = 0 ∧ w / 2 ^ 40 % 256 ≠ 0 ∧ w / 2 ^ 28 % 4096 ≠ 0 ∧
    (w % 4096 + w / 2 ^ 40 % 256 * (w / 2 ^ 28 % 4096)) * 128 ≤ if w / 2 ^ 62 % 2 = 1 then s.g.rw.size else s.g.ra.size

/-- A byte of a buffer of a core. -/
def bufByte (s : State) (core : Nat) (b : Buf) (a : Nat) : Byte := memRead ((s.core core).buf b) a
/-- The head of a queue has left it, and its handle is full with a code. -/
def Ended (s t : State) (cl e q : Nat) (o : EngineOp) (code : Nat) : Prop :=
  t.queueOf cl e q = (s.queueOf cl e q).tail ∧ (t.handle o.group o.handle).st.state = 2 ∧
    (t.handle o.group o.handle).st.code = code

/-- A copy whose one slice may land on a group: it fits, and no lock bit holds it up (R52, R104). -/
def lands (s : State) (o : EngineOp) (sl : Slice) (g : Nat) : Prop :=
  o.slices = [sl] ∧ sl.wid < 16 ∧ o.follow = none ∧ s.copyWaits o g = [] ∧ o.waits.get? (s.group g).core = none ∧ s.fits o g = true
/-- Where the slice of a copy lands in a group's reservation (R42, R368). -/
def landing (s : State) (o : EngineOp) (sl : Slice) (g : Nat) : Nat :=
  ((s.group g).range (bufOf o.buf)).base + s.windowOffset o sl

/-! The bytes that an operation leaves (R74 to R85, R98 to R100). -/

/-- The value of element `j` of a unit `u` in a storage format other than packed bits and DPW8 (R67, R74, R75). -/
def sourceOf (fmt : Nat) (u : List Byte) (j : Nat) : Machine.Num :=
  let int := fun (z : Int) => Machine.Num.fin (decide (z < 0)) z.natAbs 0
  let x := leNat u
  match fmt with
  | 0 => unpack fp32 x
  | 1 => unpack bf16 x
  | 2 => unpack fp16 x
  | 3 => unpack e5m2 x
  | 4 => unpack e4m3 x
  | 5 => int (signed 8 (x % 2 ^ 8))
  | 6 => int (signed 4 (x / 2 ^ (4 * j) % 2 ^ 4))
  | _ =>
    let scale : Nat := x / 2 ^ 128 % 2 ^ 8
    if scale = 255 then .nan false
    else match unpack e2m1 (x / 2 ^ (4 * j) % 2 ^ 4) with
      | .fin n m e => .fin n m (e + (scale : Int) - 127)
      | v => v
/-- A value in a canonical type, with its conversion status (R78). -/
def canonOf (ct : Nat) (x : Machine.Num) : Nat × Nat :=
  if ct = 0 then intoFmt bf16 x else if ct = 1 then intoFmt fp32 x else greedy x
/-- A DPW8 term that R83 chooses for a value. -/
def IsTerm (y : Rat) (t : Nat) : Prop :=
  let far := fun (c : Nat) => |(|y| - (2 : Rat) ^ (-(c : Int)))|
  if |y| < (2 : Rat) ^ (-7 : Int) then t = 7
  else ∃ c, c < 7 ∧ t = c + (if y < 0 then 8 else 0) ∧ ∀ d, d < 7 → far c ≤ far d ∧ (far c = far d → c ≤ d)
/-- The value of a DPW8 term (R82). -/
def termValue (t : Nat) : Rat := if t % 8 = 7 then 0 else (if 8 ≤ t then -1 else 1) * (2 : Rat) ^ (-((t % 8 : Nat) : Int))
/-- Conversions into the formats whose top codes are values, with the status of R81: the nearest value, held at the largest;
`low` and `high` bound the values that underflow or overflow. -/
def Saturates (F : Fmt) (low high : Rat) (strict : Bool) (n : Bool) (v : Rat) (r : Nat × Nat) : Prop :=
  r.1 < 2 * F.signBit ∧ ∃ m e, unpack F r.1 = .fin n m e ∧ Nearest F 0 v (valueOf n m e) r.1 ∧
    r.2 = if high < |v| ∨ (strict = false ∧ |v| = high) then 3
      else if valueOf n m e = v then 0 else if |v| < low then 9 else 1
/-- A value as a whole number of `b` bits (R80). -/
def Holding (b : Nat) (v : Rat) (r : Nat × Nat) : Prop :=
  ∃ z : Int, |(z : Rat) - v| ≤ 1 / 2 ∧ (|(z : Rat) - v| = 1 / 2 → z % 2 = 0) ∧
    r = if (2 : Int) ^ (b - 1) ≤ z then (2 ^ (b - 1) - 1, 3) else if z < -(2 : Int) ^ (b - 1) then (2 ^ (b - 1), 3)
      else ((z % 2 ^ b).toNat, if (z : Rat) = v then 0 else 1)

/-- Elements along dimension `d` of an operation's box (R98). -/
def boxOf (y : Layout) (d : Nat) : Nat :=
  (y.dims.getD d (0, 0, 1)).2.2 * if d = y.bdim ∧ y.nblk ≠ 0 then y.nblk else 1
/-- Elements of dimensions 0 to `d` − 1. -/
def boxTo (y : Layout) : Nat → Nat
  | 0 => 1
  | d + 1 => boxTo y d * boxOf y d
/-- Tensor coordinate `d` of canonical index `n` (R98, R99). -/
def coordOf (y : Layout) (starts : List Int) (list : List Nat) (n d : Nat) : Int :=
  let i := n / boxTo y d % boxOf y d
  let b := (y.dims.getD d (0, 0, 1)).2.2
  starts.getD d 0 + if d = y.bdim ∧ y.nblk ≠ 0 then ((list.getD (i / b) 0 * b + i % b : Nat) : Int) else (i : Int)
/-- No coordinate of canonical index `n` lies outside its extent. -/
def within (y : Layout) (starts : List Int) (list : List Nat) (n : Nat) : Bool :=
  (List.range y.dims.length).all fun d =>
    decide (0 ≤ coordOf y starts list n d) && decide (coordOf y starts list n d < ((y.dims.getD d (0, 0, 1)).1 : Int))
/-- Elements and bytes of a format's unit (R96). -/
def perUnit (fmt : Nat) : Nat × Nat :=
  ([(1, 4), (1, 2), (1, 2), (1, 1), (1, 1), (1, 1), (2, 1), (32, 17), (1, 1), (8, 1)] : List (Nat × Nat)).getD fmt (1, 1)
/-- The address of the unit of canonical index `n` (R98). -/
def unitAt (y : Layout) (starts : List Int) (list : List Nat) (n : Nat) : Int :=
  y.base + ((List.range y.dims.length).map fun d =>
    let x := coordOf y starts list n d
    (if d = 0 then x / ((perUnit y.format).1 : Int) else x) * (y.dims.getD d (0, 0, 1)).2.1 * ((perUnit y.format).2 : Int)).foldr
      (· + ·) 0
/-- The places of that unit. -/
def unitOf (s : State) (o : EngineOp) (starts : List Int) (list : List Nat) (n : Nat) : Except Nat (List Piece) :=
  s.enginePlace (s.group o.group) o.layout.base o.drain (unitAt o.layout starts list n) (perUnit o.layout.format).2
/-- Canonical element `n` of a copied slice, with its status (R79, R100). -/
def elementOf (s : State) (o : EngineOp) (sl : Slice) (list : List Nat) (n : Nat) : Nat × Nat :=
  let y := o.layout
  let g := s.group o.group
  if within y sl.starts list n then
    match unitOf s o sl.starts list n with
    | .error _ => (0, 0)
    | .ok p => copyElem y o.buf (s.engineRead g.core p) (coordOf y sl.starts list n 0 % ((perUnit y.format).1 : Int)).toNat
        (if y.smooth then some (unpack fp32 (number (bufByte s g.core .s)
          (g.rs.base + y.sptr + 4 * (coordOf y sl.starts list n y.schan).toNat) 4)) else none)
  else (fillOf y.ctype y.fill, 0)
/-- Bytes of a canonical region's elements, and of the region (R99). -/
def regionOf (y : Layout) : Nat × Nat :=
  let n := boxTo y y.dims.length
  let k := if y.ctype = 3 then (n + 7) / 8 else n * ([2, 4, 1] : List Nat).getD y.ctype 0
  (k, (k + 127) / 128 * 128)
/-- The one slice of a copy has landed on a group: its elements, zeros to the region's end, and nothing else was written
(R99, R100). -/
def Landed (s t : State) (o : EngineOp) (sl : Slice) (list : List Nat) (g : Nat) : Prop :=
  let y := o.layout
  let core := (s.group g).core
  let b := bufOf o.buf
  let off := landing s o sl g
  let size := ([2, 4, 1] : List Nat).getD y.ctype 0
  (y.ctype < 3 → ∀ n i, n < boxTo y y.dims.length → i < size →
    bufByte t core b (off + n * size + i) = BitVec.ofNat 8 ((elementOf s o sl list n).1 / 2 ^ (8 * i))) ∧
  (y.ctype = 3 → ∀ n, n < 8 * (regionOf y).1 → (bufByte t core b (off + n / 8)).getLsbD (n % 8) =
    (decide (n < boxTo y y.dims.length) && (elementOf s o sl list n).1.testBit 0)) ∧
  (∀ i, (regionOf y).1 ≤ i → i < (regionOf y).2 → bufByte t core b (off + i) = 0) ∧
  (∀ k u i, ¬(k = core ∧ u = b ∧ off ≤ i ∧ i < off + (regionOf y).2) → bufByte t k u i = bufByte s k u i) ∧
  t.hbm = s.hbm ∧ t.host = s.host
/-- The status bits of the elements that a slice converts (R81). -/
def statusOf (s : State) (o : EngineOp) (sl : Slice) (list : List Nat) : Nat :=
  ((List.range (boxTo o.layout o.layout.dims.length)).map fun n => (elementOf s o sl list n).2).foldr (· ||| ·) 0

/-- The byte of a place of a core, as it is at home, at the bank, at the host. -/
def raw (s : State) (core : Nat) (x : Nat × Nat) : Byte :=
  match x.1 with
  | 0 => memRead s.hbm x.2
  | 1 => bufByte s core .s x.2
  | 2 => bufByte s core .a x.2
  | 3 => bufByte s core .w x.2
  | 4 => bufByte s core .c x.2
  | _ => memRead s.host x.2
/-- Bytes after the pieces were written one after another. -/
def written (m : Nat × Nat → Byte) (l : List (Place × List Byte)) : Nat × Nat → Byte :=
  l.foldl (fun m w x => ((List.range w.2.length).find? fun i => w.1.at i == x).elim (m x) fun i => w.2.getD i 0) m
/-- The bytes that a drained unit `m` leaves, where it is written: the elements in bounds of the unit are packed, and the
others are +0, or keep the bits of a packed byte (R80, R100). -/
def drainedUnit (s : State) (o : EngineOp) (sl : Slice) (list : List Nat) (mem : Nat × Nat → Byte) (m : Nat) :
    (Nat × Nat → Byte) × Nat × Nat :=
  let y := o.layout
  let g := s.group o.group
  let k := (perUnit y.format).1
  let off := (g.range (bufOf o.buf)).base + sl.d
  let elem := fun (n : Nat) =>
    if y.ctype = 3 then (bufByte s g.core (bufOf o.buf) (off + n / 8)).toNat / 2 ^ (n % 8) % 2
    else
      let size := ([2, 4, 1] : List Nat).getD y.ctype 0
      let x := number (bufByte s g.core (bufOf o.buf)) (off + n * size) size
      if y.ctype = 0 then (if (unpack bf16 x).isNan then 0x7FC00000 else x * 2 ^ 16) else x
  let ns := (List.range k).map (k * m + ·)
  match ns.find? (within y sl.starts list) with
  | none => (mem, 0, 0)
  | some n =>
    match unitOf s o sl.starts list n with
    | .error _ => (mem, 0, 0)
    | .ok ps =>
      let old := ps.flatMap fun p => (List.range p.2).map fun i => mem (p.1.at i)
      let r := packUnit y.format old (ns.map fun n => if within y sl.starts list n then some (elem n) else none)
      (written mem (cutPieces ps r.1), r.2, r.1.length)
/-- A slice is drained, unit by unit: the memory it leaves, its status and the bytes written. -/
def drainedTo (s : State) (o : EngineOp) (sl : Slice) (list : List Nat) (core : Nat) : (Nat × Nat → Byte) × Nat × Nat :=
  let y := o.layout
  (List.range (boxTo y y.dims.length / (perUnit y.format).1)).foldl (fun u m =>
    let r := drainedUnit s o sl list u.1 m
    (r.1, u.2.1 ||| r.2.1, u.2.2 + r.2.2)) (raw s core, 0, 0)

/-- The conversions of the engines (R76, R78 to R81, R83, R85): values, status bits, and the formats of each code. -/
def Conversions : Prop :=
  (∀ F ∈ [fp32, bf16, fp16, e5m2], (∀ g, intoFmt F (.nan g) = (F.nan, 4)) ∧ (∀ n, intoFmt F (.inf n) = (F.inf n, 0)) ∧
    ∀ n m e, let r := roundFin F {} n m e
      intoFmt F (.fin n m e) = (r.1, (if r.2.testBit 3 then 8 else 0) + (if r.2.testBit 2 then 2 else 0) +
        (if r.2.testBit 4 then 1 else 0))) ∧
  ((∀ g, intoFmt e4m3 (.nan g) = (0x7F, 4)) ∧ (∀ n, intoFmt e4m3 (.inf n) = (if n then 0xFE else 0x7E, 3)) ∧
    ∀ n m e, Saturates e4m3 ((2 : Rat) ^ (-6 : Int) - (2 : Rat) ^ (-11 : Int)) 464 true n (valueOf n m e)
      (intoFmt e4m3 (.fin n m e))) ∧
  (∀ b ∈ [4, 8], (∀ g, toInt b (.nan g) = (0, 4)) ∧
    (∀ n, toInt b (.inf n) = (if n then 2 ^ (b - 1) else 2 ^ (b - 1) - 1, 3)) ∧
    ∀ n m e, Holding b (valueOf n m e) (toInt b (.fin n m e))) ∧
  ((∀ g, greedy (.nan g) = (0x77, 4)) ∧ (∀ n, greedy (.inf n) = (if n then 0x88 else 0x00, 3)) ∧
    ∀ n m e, let v := valueOf n m e
      let r := greedy (.fin n m e)
      let w := termValue (r.1 / 16) + termValue (r.1 % 16)
      r.1 < 256 ∧ IsTerm v (r.1 / 16) ∧ IsTerm (v - termValue (r.1 / 16)) (r.1 % 16) ∧
        r.2 = (if 2 < |v| then 2 else 0) + (if w = v then 0 else 1)) ∧
  (∀ xs : List Machine.Num, xs.length = 32 →
    let r := packB4 xs
    r.1.length = 17 ∧ r.2.length = 32 ∧
    ((∃ x ∈ xs, ∀ n m e, x ≠ .fin n m e) → (∀ i, i < 16 → r.1.getD i 0 = 0) ∧ r.1.getD 16 0 = 255 ∧
      ∀ j, j < 32 → r.2.getD j 0 = if (xs.getD j (.inf false)).isNan then 4 else 5) ∧
    ((∀ x ∈ xs, ∃ n m e, x = .fin n m e) →
      ((∀ x ∈ xs, ∀ n m e, x = .fin n m e → m = 0) → r.1 = List.replicate 16 0 ++ [127] ∧ r.2 = List.replicate 32 0) ∧
      ∀ (k : Int), (∀ x ∈ xs, ∀ n m e, x = .fin n m e → |valueOf n m e| < (2 : Rat) ^ (k + 1)) →
        (∃ x ∈ xs, ∃ n m e, x = .fin n m e ∧ (2 : Rat) ^ k ≤ |valueOf n m e|) →
        let sc := max 0 (min 254 (k - 2 + 127))
        r.1.getD 16 0 = BitVec.ofInt 8 sc ∧ ∀ j n m e, j < 32 → xs.getD j (.inf false) = .fin n m e →
          Saturates e2m1 0 7 false n (valueOf n m e * (2 : Rat) ^ (127 - sc))
            ((r.1.getD (j / 2) 0).toNat / 2 ^ (4 * (j % 2)) % 2 ^ 4, r.2.getD j 0))) ∧
  (∀ (y : Layout) (buf j : Nat) (u : List Byte) (g : Machine.Num), y.format < 10 → y.ctype < 3 →
    (y.format < 8 → u.length = (perUnit y.format).2 → copyElem y buf u j none = canonOf y.ctype (sourceOf y.format u j)) ∧
    (y.format < 8 → u.length = (perUnit y.format).2 → copyElem y buf u j (some g) = canonOf y.ctype (unpack fp32 (deliver fp32 {}
        (let x := sourceOf y.format u j
         if buf = 1 then divNum 23 x g else mulNum x g)).1)) ∧
    (y.format = 8 → copyElem y buf u j none = (leNat u, 0)) ∧
    (y.format = 9 → j < 8 → u.length = 1 → copyElem y buf u j none = (leNat u / 2 ^ j % 2, 0))) ∧
  (∀ f : Word, fillOf 0 f = (intoFmt bf16 (unpack fp32 f.toNat)).1 ∧ fillOf 1 f = f.toNat ∧
    fillOf 2 f = (greedy (unpack fp32 f.toNat)).1 ∧ fillOf 3 f = f.toNat % 2) ∧
  ∀ (old : List Byte) (x : Nat) (xs : List (Option Nat)),
    let v := unpack fp32 x
    packUnit 0 old [some x] = (leBytes 4 x, if v.isNan then 4 else 0) ∧
    packUnit 1 old [some x] = (leBytes 2 (intoFmt bf16 v).1, (intoFmt bf16 v).2) ∧
    packUnit 2 old [some x] = (leBytes 2 (intoFmt fp16 v).1, (intoFmt fp16 v).2) ∧
    packUnit 3 old [some x] = (leBytes 1 (intoFmt e5m2 v).1, (intoFmt e5m2 v).2) ∧
    packUnit 4 old [some x] = (leBytes 1 (intoFmt e4m3 v).1, (intoFmt e4m3 v).2) ∧
    packUnit 5 old [some x] = (leBytes 1 (toInt 8 v).1, (toInt 8 v).2) ∧
    (xs.length = 2 → let r := fun j => toInt 4 (unpack fp32 ((xs.getD j none).getD 0))
      (packUnit 6 old xs).1 = leBytes 1 ((r 0).1 + 16 * (r 1).1) ∧
      (packUnit 6 old xs).2 = (if (xs.getD 0 none).isSome then (r 0).2 else 0) ||| (if (xs.getD 1 none).isSome then (r 1).2 else 0)) ∧
    (xs.length = 32 → let r := packB4 (xs.map fun x => unpack fp32 (x.getD 0))
      (packUnit 7 old xs).1 = r.1 ∧
      ∀ i, (packUnit 7 old xs).2.testBit i = true ↔ ∃ j, j < 32 ∧ (xs.getD j none).isSome = true ∧ (r.2.getD j 0).testBit i = true) ∧
    (xs.length = 8 → (packUnit 9 old xs).2 = 0 ∧ (packUnit 9 old xs).1.length = 1 ∧
      ∀ j, j < 8 → ((packUnit 9 old xs).1.getD 0 0).getLsbD j = ((xs.getD j none).elim ((old.getD 0 0).getLsbD j) fun x => x.testBit 0))

/-- The tree T(lo, 2^k) of R89 over the values `f lo`, `f (lo + 1)`, …. -/
def balanced {α : Type} (node : α → α → α) (f : Nat → α) : Nat → Nat → α
  | 0, lo => f lo
  | k + 1, lo => node (balanced node f k lo) (balanced node f k (lo + 2 ^ k))
/-- log2 of a semiring's K (R378). -/
def levels : Semiring → Nat
  | .ptBf16 => 5
  | .ptDpw8 => 7
  | .orand => 9
  | _ => 3
/-- The word of a sum. -/
def sumWord (sr : Semiring) (x : Machine.Num) : Word :=
  BitVec.ofNat 32 (match sr with
    | .orand => if x.isZero then 0 else 1
    | _ => x.pattern)

/-! ### The checks of the engines and the matrix unit -/

/-- The trap of the first condition that holds. -/
def firstBad : List (Bool × Trap) → Option Trap
  | [] => none
  | (b, x) :: t => if b then some x else firstBad t
/-- An illegal operand: code, field and register (R275). -/
def illegal (code field reg : Nat) : Trap := { cause := 0x02, info := BitVec.ofNat 64 (code + 2 ^ 8 * field + 2 ^ 16 * reg) }
/-- An aperture fault of a unit's access: reason, address, lane, and whether it writes (R36, R37). -/
def denied (reason addr lane : Nat) (write : Bool) : Trap :=
  { cause := 0x03, addr := BitVec.ofNat 64 addr
    info := BitVec.ofNat 64 (reason + 2 ^ 12 * lane + if write then 2 ^ 17 else 0) }
/-- MATRIX_PROTECT (R243): reason, and the tile's window offset. -/
def protects (reason addr : Nat) : Trap := { cause := 0x0E, addr := BitVec.ofNat 64 addr, info := BitVec.ofNat 64 reason }
/-- The typed-buffer window of an address: 0 S, 1 A, 2 W, 3 C (R11). -/
def bufferOf (a : Nat) : Option Nat :=
  if 0xFF0000000000 ≤ a ∧ a < 0xFF0004000000 then some ((a - 0xFF0000000000) / 2 ^ 24) else none
/-- The offset in that window. -/
def offsetOf (a : Nat) : Nat := (a - 0xFF0000000000) % 2 ^ 24
/-- A group's reservation in a buffer. -/
def sizeOf (g : Group) (b : Nat) : Nat := ([g.rs, g.ra, g.rw, g.rc].getD b g.rc).size

/-- The checks of CPY and CPYD before the record is read, in the order of R369: 0x51, 0x52, UNIT_DENIED for BUF, 0x40. -/
def copyFirst (drain : Bool) (s : State) (n c : Nat) : List (Bool × Trap) :=
  let x := (s.sreg c).toNat
  let y := (s.sreg (c + 1)).toNat
  let buf := part x 48 2
  let cb := s.c.cbs.getD (part x 51 3) {}
  [(!(s.g.set n).members.getLsbD s.w.wid, illegal 0x51 2 n),
    (decide (part x 54 10 ≠ 0) || (drain && decide (part y 24 8 ≠ 0)) ||
      (decide (part x 50 1 = 1) && (drain || decide (part y 0 24 ≠ 0) || decide (part y 24 8 ≠ 0) || !cb.valid ||
        decide (cb.owner ≠ s.w.group) || decide (cb.buf + 1 ≠ buf))), illegal 0x52 4 c),
    (if drain then decide (buf = 1 ∨ buf = 2) else decide (buf = 3),
      denied 0x03 (0xFF0000000000 + buf * 2 ^ 24 + part y 0 24) s.w.nib (!drain)),
    (decide (part x 0 48 % 256 ≠ 0) || !(decide (part x 0 48 < 0xFE0000000000) || decide (bufferOf (part x 0 48) = some 0)),
      illegal 0x40 4 c)]

/-- A slice of set `n` stops at a check: its wave takes the trap; at a code from 0x40 to 0x48 no slice of the operation is then
accepted: the wave's count passes it, an operation that has begun leaves its queue, its handle full with code CANCELLED, and one
that has not will not begin (R101 to R103). -/
def Stops (s : State) (i : Instr) (n : Nat) (x : Trap) : Prop :=
  let k := s.g.copies.getD (16 * n + s.w.wid) 0
  ∃ t, exec i s = .next t ∧ Takes s t x ∧ SameMemory s t s.g.core ∧
    ((∃ code field reg, 0x40 ≤ code ∧ code ≤ 0x48 ∧ field < 8 ∧ x = illegal code field reg) →
      (t.group s.w.group).copies.getD (16 * n + s.w.wid) 0 = k + 1 ∧ k < (t.group s.w.group).opsBegun n ∧
      ∀ key o, s.findOp s.w.group n k = some (key, o) → t.findOp s.w.group n k = none ∧
        (t.handle s.w.group o.handle).st.state = 2 ∧ (t.handle s.w.group o.handle).st.code = 3)

/-- `n` bits of the 64-bit word at byte `a` of a layout record, from bit `lo` up (R95). -/
def recBits (b : List Byte) (a lo n : Nat) : Nat := part (leNat ((b.drop a).take 8)) lo n
/-- Extent, stride and box of dimension entry `d` (R97); the stride as its 48 bits. -/
def recDim (b : List Byte) (d : Nat) : Nat × Nat × Nat :=
  (leNat ((b.drop (0x40 + 12 * d)).take 4), leNat ((b.drop (0x44 + 12 * d)).take 6), leNat ((b.drop (0x4A + 12 * d)).take 2))
/-- A canonical type that a copy writes into, or a drain reads from, a buffer, for a storage format (R77, R78, R80). -/
def pairs (drain : Bool) (fmt ct buf : Nat) : Bool :=
  if drain then (fmt, ct, buf) ∈ ([0, 1, 2, 3, 4, 5, 6, 7, 9].map fun f => (f, 1, 3)) ++ ([0, 1, 2, 3, 4, 5, 6, 7, 9].map fun f => (f, 1, 0)) ++
    ([0, 1, 2, 3, 4, 5, 6, 7].map fun f => (f, 0, 0)) ++ [(9, 3, 0)]
  else (fmt, ct, buf) ∈ ([0, 1, 2, 3, 4, 5, 6, 7].flatMap fun f => [(f, 0, 0), (f, 0, 1), (f, 0, 2), (f, 1, 0), (f, 2, 2)]) ++
    [(8, 2, 2), (9, 3, 0), (9, 3, 1), (9, 3, 2)]
/-- Bytes of the canonical region of a record (R99). -/
def recRegion (b : List Byte) : Nat :=
  let n := ((List.range (recBits b 8 12 4 + 1)).map fun d => (recDim b d).2.2 *
    if d = recBits b 16 28 4 ∧ recBits b 16 0 12 ≠ 0 then recBits b 16 0 12 else 1).foldr (· * ·) 1
  let k := if recBits b 8 8 2 = 3 then (n + 7) / 8 else n * ([2, 4, 1].getD (recBits b 8 8 2) 0)
  (k + 127) / 128 * 128

/-- The checks of the record that was read: the window of BASE, then 0x41 to 0x47 (R94 to R101). -/
def copyRest (drain : Bool) (s : State) (c : Nat) (b : List Byte) (start : Int) : List (Bool × Trap) :=
  let x := (s.sreg c).toNat
  let y := (s.sreg (c + 1)).toNat
  let buf := part x 48 2
  let base := recBits b 0 0 48
  let fmt := recBits b 8 0 4
  let last := recBits b 8 12 4
  let smooth := decide (recBits b 8 19 1 = 1)
  let nblk := recBits b 16 0 12
  let k := if fmt = 6 then 2 else if fmt = 7 then 32 else if fmt = 9 then 8 else 1
  let off := part y 0 24
  [(decide ((0xFE0040000000 ≤ base ∧ base < 0xFF0000000000) ∨ 0xFF0004000000 ≤ base), denied 0x01 base s.w.nib drain),
    (!(decide (base < 0xFE0000000000) || decide (bufferOf base = some 0)), denied 0x03 base s.w.nib drain),
    (decide (recBits b 0 48 16 ≠ 0) || decide (recBits b 8 24 8 ≠ 0) || decide (recBits b 8 16 3 ≠ 0) ||
      decide (recBits b 8 10 2 ≠ 0) || decide (recBits b 8 4 4 ≠ 0) || decide (recBits b 16 50 14 ≠ 0) ||
      decide (recBits b 16 12 16 ≠ 0) || (smooth && decide (recBits b 16 32 2 ≠ 0)) || decide (recBits b 24 48 16 ≠ 0) ||
      ((List.range 32).any fun i => b.getD (0x20 + i) 0 != 0) ||
      ((List.range (12 * (15 - last))).any fun i => b.getD (0x40 + 12 * (last + 1) + i) 0 != 0), illegal 0x41 4 c),
    (!pairs drain fmt (recBits b 8 8 2) buf, illegal 0x42 4 c),
    (decide (last < recBits b 16 28 4) || decide (last < recBits b 8 20 4) ||
      ((List.range (last + 1)).any fun d => decide ((recDim b d).1 = 0) || decide ((recDim b d).2.2 = 0)), illegal 0x43 4 c),
    ((decide (k ≠ 1) && (decide ((recDim b 0).2.1 ≠ 1) || decide (start % (k : Int) ≠ 0) || decide ((recDim b 0).2.2 % k ≠ 0))) ||
      decide (base % (if fmt = 0 then 4 else if fmt = 1 ∨ fmt = 2 then 2 else 1) ≠ 0) ||
      (decide (nblk ≠ 0) && decide (recBits b 24 0 48 % 4 ≠ 0)) || decide (off % 128 ≠ 0), illegal 0x44 4 c),
    (smooth && (drain || decide (buf = 0) ||
      decide (s.g.rs.size < recBits b 16 32 18 + 4 * (recDim b (recBits b 8 20 4)).1)), illegal 0x45 4 c),
    (decide (sizeOf s.g buf < off + recRegion b) || decide (2 ^ 24 < off + recRegion b), illegal 0x46 4 c),
    (decide (part y 28 4 ≠ 0) || ((List.range 4).any fun k => (part y 24 8).testBit k &&
      !((s.ctx s.g.ctx).cores.any fun p => p.1 == 4 * (s.g.core / 4) + k)), illegal 0x47 4 c)]

/-- The checks of a tile descriptor in a field (R376, R380). -/
def tileChecks (g : Group) (d : DWord) (field reg : Nat) (scaled : Bool) : List (Bool × Trap) :=
  let n := d.toNat
  [(decide (part n 56 8 ≠ 0) || decide (part n 24 8 ≠ 0), illegal 0x53 field reg),
    (decide (part n 0 24 % 16384 ≠ 0), illegal 0x54 field reg),
    (scaled && decide (part n 32 24 % 4 ≠ 0), illegal 0x58 field reg),
    (decide (g.rc.size < part n 0 24 + 16384), denied 0x02 (0xFF0003000000 + part n 0 24) 0 false),
    (scaled && decide (g.rs.size < part n 32 24 + 256), denied 0x02 (0xFF0000000000 + part n 32 24) 0 false)]
/-- Windows that R378 permits for the A operand and for the B operand of a semiring, and the operands' bytes. -/
def permitted : Semiring → List Nat × List Nat × Nat × Nat
  | .ptBf16 => ([1, 0], [2, 1, 0], 4096, 4096)
  | .ptDpw8 => ([1, 0], [2], 16384, 8192)
  | .orand => ([1, 0], [2, 1, 0], 4096, 4096)
  | _ => ([0], [0], 2048, 2048)
/-- The checks of an operand descriptor (R377, R378, R380): `ok` the windows, `bytes` its length. -/
def operandChecks (g : Group) (d : DWord) (field reg : Nat) (isA : Bool) (ok : List Nat) (bytes : Nat) : List (Bool × Trap) :=
  let n := d.toNat
  let a := part n 0 48
  let latch := d.getLsbD 63
  let b := (bufferOf a).getD 4
  [(decide (part n 48 8 ≠ 0) || (latch && !isA), illegal 0x53 field reg),
    (!latch && decide (b = 3), denied 0x03 a 0 false),
    (!latch && (!(ok.contains b) || decide (a % 128 ≠ 0)), illegal 0x55 field reg),
    (!latch && decide (sizeOf g b < offsetOf a + bytes), denied 0x02 a 0 false)]
/-- The checks of an MMA on a group's reservations, in the order of R380: tile, A, B, latch (R382). -/
def mmaChecks (g : Group) (sr : Semiring) (t x y : DWord) (d a b : Nat) : List (Bool × Trap) :=
  let p := permitted sr
  tileChecks g t 0 d (decide (sr = .ptDpw8)) ++ operandChecks g x 1 a true p.1 p.2.2.1 ++
    operandChecks g y 2 b false p.2.1 p.2.2.2 ++
    [(x.getLsbD 63 && (decide (g.gathers = 0) || decide (64 * g.latchRow ≠ p.2.2.1)), illegal 0x56 1 a)]
/-- MATRIX_PROTECT of a command in handler mode on a tile (R243). -/
def protectChecks (s : State) (t : DWord) (writes : Bool) : List (Bool × Trap) :=
  let n := part t.toNat 0 24 / 16384
  [(s.w.handler && decide (s.g.ep.htCount = 0), protects 0x03 0),
    (s.w.handler && writes && decide (n < s.g.ep.htFirst ∨ s.g.ep.htFirst + s.g.ep.htCount ≤ n), protects 0x01 (part t.toNat 0 24))]
/-- The checks of MGATHER (R243, R381): the descriptor, each index's row, and the handler. -/
def gatherChecks (s : State) (d : DWord) (reg : Nat) (idx : List Word) : List (Bool × Trap) :=
  let n := d.toNat
  let a := part n 0 48
  let b := (bufferOf a).getD 4
  let r := 32 * part n 48 8
  [(d.getLsbD 63, illegal 0x53 2 reg),
    (!([1, 2, 8].contains (part n 48 8)) || decide (a % 32 ≠ 0), illegal 0x57 2 reg),
    (decide (b = 2 ∨ b = 3), denied 0x03 a 0 false), (decide (b = 4), illegal 0x57 2 reg)] ++
  ((List.range 64).map fun i =>
    let x := idx.getD i 0
    (x != 0xFFFFFFFF && decide (sizeOf s.g b < offsetOf a + (x.toNat + 1) * r), denied 0x02 (a + x.toNat * r) (i % 32) false)) ++
  [(s.w.handler, protects 0x02 0)]

/-- An MMA as a follow-on word names it: semiring, SAT, and the numbers of its scalars (R370). -/
def asMma : Instr → Option (Semiring × Bool × Nat × Nat × Nat)
  | .mmaPtBf16 d a b t => some (.ptBf16, t, d, a, b)
  | .mmaPtDpw8 d a b t => some (.ptDpw8, t, d, a, b)
  | .mmaPtF32 d a b t => some (.ptF32, t, d, a, b)
  | .mmaMinpF32 d a b t => some (.minp, t, d, a, b)
  | .mmaMaxpF32 d a b t => some (.maxp, t, d, a, b)
  | .mmaMaxtF32 d a b t => some (.maxt, t, d, a, b)
  | .mmaOrandBits d a b => some (.orand, false, d, a, b)
  | _ => none
/-- A follow-on word is the word of an MMA. -/
def Follows (w : Nat) (m : Semiring × Bool × Nat × Nat × Nat) : Prop := ∃ i, decode 3 (leBytes 4 w) = some (i, 4) ∧ asMma i = some m

/-! The arithmetic of the semirings (R84, R90). -/

/-- A result rounded to FP32 from finite operands, as a step leaves it (R90, R46): beyond the largest value the saturating form
stays there and sets CLAMP, the other gives an infinity and sets OVF. -/
def stepped (sat : Bool) (p : Nat) : Nat × Nat :=
  if p % 2 ^ 31 = 0x7F800000 then (if sat then (p - 1, 4) else (p, 1)) else (p, 0)
/-- The FP32 pattern of an infinity. -/
def infinite (n : Bool) : Nat := if n then 0xFF800000 else 0x7F800000
/-- rne(x + y, FP32), with its flags. -/
def Sum32 (sat : Bool) (x y : Machine.Num) (r : Nat × Nat) : Prop :=
  (x.isNan = true ∨ y.isNan = true → r = (0x7FC00000, 0)) ∧
  (∀ n k, x = .inf n → y = .inf k → r = if n = k then (infinite n, 0) else (0x7FC00000, if sat then 0 else 2)) ∧
  (∀ n k m e, (x = .inf n ∧ y = .fin k m e) ∨ (x = .fin k m e ∧ y = .inf n) → r = (infinite n, 0)) ∧
  ∀ n m e k p f, x = .fin n m e → y = .fin k p f → ∃ q fl,
    Gives { F := fp32 } ((valueOf n m e + valueOf k p f : Rat) : ℝ) (n && k) (q, fl) ∧ r = stepped sat q
/-- rne(x × y, FP32), with its flags. -/
def Product32 (sat : Bool) (x y : Machine.Num) (r : Nat × Nat) : Prop :=
  (x.isNan = true ∨ y.isNan = true → r = (0x7FC00000, 0)) ∧
  (∀ n k, x = .inf n → y = .inf k → r = (infinite (n != k), 0)) ∧
  (∀ n k m e, (x = .inf n ∧ y = .fin k m e) ∨ (x = .fin k m e ∧ y = .inf n) →
    r = if m = 0 then (0x7FC00000, if sat then 0 else 2) else (infinite (n != k), 0)) ∧
  ∀ n m e k p f, x = .fin n m e → y = .fin k p f → ∃ q fl,
    Gives { F := fp32 } ((valueOf n m e * valueOf k p f : Rat) : ℝ) (n != k) (q, fl) ∧ r = stepped sat q
/-- The exact product a × b. -/
def ExactProduct (sat : Bool) (x y : Machine.Num) (r : Machine.Num × Nat) : Prop :=
  (x.isNan = true ∨ y.isNan = true → r = (.nan false, 0)) ∧
  (∀ n k, x = .inf n → y = .inf k → r = (.inf (n != k), 0)) ∧
  (∀ n k m e, (x = .inf n ∧ y = .fin k m e) ∨ (x = .fin k m e ∧ y = .inf n) →
    r = if m = 0 then (.nan false, if sat then 0 else 2) else (.inf (n != k), 0)) ∧
  ∀ n m e k p f, x = .fin n m e → y = .fin k p f → ∃ z t, r = (.fin (n != k) z t, 0) ∧
    valueOf (n != k) z t = valueOf n m e * valueOf k p f
/-- The product of an activation and a DPW8 byte: a × (t + u), for the terms t and u of the byte, exact (R82, R84). -/
def Dpw8Product (sat : Bool) (x : Machine.Num) (b : Nat) (r : Machine.Num × Nat) : Prop :=
  let t := termValue (b / 16)
  let u := termValue (b % 16)
  (x.isNan = true → r = (.nan false, 0)) ∧
  (∀ n m e, x = .fin n m e → ∃ k z f, r = (.fin k z f, 0) ∧ valueOf k z f = valueOf n m e * t + valueOf n m e * u) ∧
  ∀ n, x = .inf n →
    r = if t * u < 0 ∨ (t = 0 ∧ u = 0) then (.nan false, if sat then 0 else 2)
      else (.inf (n != decide (t < 0 ∨ u < 0)), 0)
/-- A number is below another, with −0 below +0. -/
def isBelow : Machine.Num → Machine.Num → Prop
  | .inf n, .inf k => n = true ∧ k = false
  | .inf n, .fin _ _ _ => n = true
  | .fin _ _ _, .inf k => k = false
  | .fin n m e, .fin k p f => valueOf n m e < valueOf k p f ∨ (m = 0 ∧ p = 0 ∧ n = true ∧ k = false)
  | _, _ => False
/-- The least of two numbers, under an order; a NaN gives a NaN (R90). -/
def Least (order : Machine.Num → Machine.Num → Prop) (x y r : Machine.Num) : Prop :=
  (x.isNan = true ∨ y.isNan = true → r = .nan false) ∧
  (x.isNan = false → y.isNan = false → (r = x ∨ r = y) ∧ (order x y → r = x) ∧ (order y x → r = y))

/-- Products, tree nodes and accumulation of the seven semirings, and how they read their operands (R84, R90, R378). -/
def SemiringTable : Prop :=
  ∀ (sat : Bool) (x y : Machine.Num) (f g : Nat) (c t scale : Word) (l : List Byte) (n : Nat),
    ((Semiring.ptBf16).aVal l n = unpack bf16 (leNat ((l.drop (2 * n)).take 2)) ∧
      (Semiring.ptBf16).bVal l n = unpack bf16 (leNat ((l.drop (2 * n)).take 2)) ∧
      (Semiring.ptDpw8).aVal l n = unpack bf16 (leNat ((l.drop (2 * n)).take 2)) ∧
      (Semiring.ptDpw8).bVal l n = .fin false (l.getD n 0).toNat 0 ∧
      (Semiring.orand).aVal l n = .fin false ((l.getD (n / 8) 0).toNat / 2 ^ (n % 8) % 2) 0 ∧
      (Semiring.orand).bVal l n = .fin false ((l.getD (n / 8) 0).toNat / 2 ^ (n % 8) % 2) 0 ∧
      ∀ sr ∈ [Semiring.ptF32, .minp, .maxp, .maxt], sr.aVal l n = unpack fp32 (leNat ((l.drop (4 * n)).take 4)) ∧
        sr.bVal l n = unpack fp32 (leNat ((l.drop (4 * n)).take 4))) ∧
    ((∀ sr ∈ [Semiring.ptBf16, .ptF32], ExactProduct sat x y (sr.product sat x y)) ∧
      (∀ b, b < 256 → Dpw8Product sat x b ((Semiring.ptDpw8).product sat x (.fin false b 0))) ∧
      (∀ sr ∈ [Semiring.minp, .maxp], ∃ r, Sum32 sat x y r ∧ sr.product sat x y = (unpack fp32 r.1, r.2)) ∧
      (∃ r, Product32 sat x y r ∧ (Semiring.maxt).product sat x y = (unpack fp32 r.1, r.2)) ∧
      ∀ a b, a < 2 → b < 2 → (Semiring.orand).product sat (.fin false a 0) (.fin false b 0) = (.fin false (a * b) 0, 0)) ∧
    ((∀ sr ∈ [Semiring.ptBf16, .ptDpw8, .ptF32], ∃ r, Sum32 sat x y r ∧
        sr.node sat (x, f) (y, g) = (unpack fp32 r.1, r.2 ||| f ||| g)) ∧
      (∃ r, Least isBelow x y r ∧ (Semiring.minp).node sat (x, f) (y, g) = (r, f ||| g)) ∧
      (∀ sr ∈ [Semiring.maxp, .maxt], ∃ r, Least (fun a b => isBelow b a) x y r ∧ sr.node sat (x, f) (y, g) = (r, f ||| g)) ∧
      ∀ a b, a < 2 → b < 2 → (Semiring.orand).node sat (.fin false a 0, f) (.fin false b 0, g) =
        (.fin false (if a + b = 0 then 0 else 1) 0, f ||| g)) ∧
    (∀ sr ∈ [Semiring.ptBf16, .ptF32], ∃ r, Sum32 sat (unpack fp32 c.toNat) (unpack fp32 t.toNat) r ∧
      sr.accumulate sat c t scale = (BitVec.ofNat 32 r.1, r.2)) ∧
    (∃ u r, Product32 sat (unpack fp32 scale.toNat) (unpack fp32 t.toNat) u ∧
      Sum32 sat (unpack fp32 c.toNat) (unpack fp32 u.1) r ∧
      (Semiring.ptDpw8).accumulate sat c t scale = (BitVec.ofNat 32 r.1, r.2 ||| u.2)) ∧
    (Semiring.minp).accumulate sat c t scale = (BitVec.ofNat 32 (smallerOf c.toNat t.toNat), 0) ∧
    (∀ sr ∈ [Semiring.maxp, .maxt], sr.accumulate sat c t scale = (BitVec.ofNat 32 (largerOf c.toNat t.toNat), 0)) ∧
    (Semiring.orand).accumulate sat c t scale = ((c ||| t) &&& 1, 0)

/-- A matrix command: its scalars, its checks, its tile descriptor, what it does, the handles it names, and the scalar that
awaits its answer (R379, R383, R384). -/
structure MatRow where
  ops : List Opnd
  chk : List (Bool × Trap)
  tile : DWord
  op : MatOp
  latch : Nat := 0
  waits : List Nat := []
  busy : List Nat := []

/-- The matrix instructions. -/
def matrix (s : State) : Instr → Option MatRow :=
  let mma := fun (sr : Semiring) (d a b : Nat) (sat : Bool) => some
    { ops := opsMma d a b
      chk := mmaChecks s.g sr (s.sreg d) (s.sreg a) (s.sreg b) d a b ++ protectChecks s (s.sreg d) true
      tile := s.sreg d, op := .mma sr sat (s.sreg a) (s.sreg b)
      latch := if (s.sreg a).getLsbD 63 then s.g.gathers else 0
      waits := [s.sreg a, s.sreg b].filterMap fun x => if x.getLsbD 62 then some (part x.toNat 56 6) else none : MatRow }
  let flags := fun (d a : Nat) (clr : Bool) => some
    { ops := [{ field := 0, kind := .s, reg := d, dst := true }, { field := 1, kind := .s, reg := a }]
      chk := tileChecks s.g (s.sreg a) 1 a false ++ protectChecks s (s.sreg a) clr
      tile := s.sreg a, op := .mflags s.cur d clr, busy := [d] : MatRow }
  fun
  | .mmaPtBf16 d a b sat => mma .ptBf16 d a b sat
  | .mmaPtDpw8 d a b sat => mma .ptDpw8 d a b sat
  | .mmaPtF32 d a b sat => mma .ptF32 d a b sat
  | .mmaMinpF32 d a b sat => mma .minp d a b sat
  | .mmaMaxpF32 d a b sat => mma .maxp d a b sat
  | .mmaMaxtF32 d a b sat => mma .maxt d a b sat
  | .mmaOrandBits d a b => mma .orand d a b false
  | .mzero a => some
      { ops := [{ field := 1, kind := .s, reg := a }]
        chk := tileChecks s.g (s.sreg a) 1 a false ++ protectChecks s (s.sreg a) true, tile := s.sreg a, op := .mzero }
  | .mflags d a => flags d a false
  | .mflagsClr d a => flags d a true
  | _ => none

/-- The tile of a descriptor in a group's reservation (R45). -/
def tileOf (g : Group) (d : DWord) : Nat := (g.rc.base + d.toNat % 2 ^ 24) / 16384
/-- Flags of tile `n` (R46). -/
def metaOf (s : State) (core n : Nat) : Word := (s.core core).tiles.getD n 0

end Sys2Proof.Claims

/-- R94 to R106, R369, R370: a CPY or CPYD that is not skipped, with its stores drained, takes the trap of the first check that
fails: 0x51, 0x52, UNIT_DENIED for BUF and 0x40 before the record is read, a fault of that read, and 0x41 to 0x47, 0x48 and 0x50
after it; no slice of the operation is accepted after 0x40 to 0x48. The first slice, once its handle is free and its queue has a
place, puts an operation at the end of its queue, with the layout, the starts of its lanes, the members that count and its
follow-on command with the captured registers; its handle is filling (CPY) or draining (CPYD); until then the wave waits. A
later slice of the operation joins it. With the Nib lane inactive under the Nib role the instruction has no effect.

The model's choices: a refused slice counts as the wave's slice of its operation, and a further slice of an operation that was
cancelled or refused is counted and has no effect (logs 87 and 103); the record is read as loads of this package are, when it
issues (log 83). -/
def Obligations.CopiesAreQueued : Prop :=
  ∀ (drain : Bool) (v h n c q e : Nat) (s : State),
    let i : Instr := if drain then .cpyd v h n c q e else .cpy v h n c q e
    i.wellFormed = true → Issues s →
    (Claims.skipped s → operandTrap s.w 4 (Claims.copyOps v c) = none → ∃ t, exec i s = .next t ∧ Done s t [] [] [] false) ∧
    (¬Claims.skipped s → Ready s 4 (Claims.copyOps v c) none → s.w.storeQ = [] → s.w.regen = [] →
      let a := Claims.part (s.sreg c).toNat 0 48
      let x := (s.sreg (c + 1)).toNat
      let word := Claims.part x 32 32
      let k := s.g.copies.getD (16 * n + s.w.wid) 0
      let cl := s.g.core / 4
      let begun := s.findOp s.w.group n k
      (∀ z, Claims.firstBad (Claims.copyFirst drain s n c) = some z → Claims.Stops s i n z) ∧
      (Claims.firstBad (Claims.copyFirst drain s n c) = none → (s.handle s.w.group h).poison = none →
        let u := (locateAll {} {} 8 s ((List.range 32).map fun j => { lane := s.w.nib, lanes := 0, addr := a + 8 * j })).2
        (∀ pre y post f, u = pre ++ y :: post → Claims.allOk pre → y.2 = .error f →
          ∃ t, exec i s = .next t ∧ SameMemory s t s.g.core ∧ Claims.Takes s t (Claims.faultOf f {} s.w.nib)) ∧
        (Claims.allOk u → (∀ y ∈ u, ∀ p ∈ Located.pieces y, Claims.here s p.1) → s.uncorr = [] → ¬Claims.shares s u →
          s.memWf = true → s.coherent s.g.core →
          let b := u.flatMap (Claims.bytesOf s)
          let starts := (List.range (Claims.recBits b 8 12 4 + 1)).map fun d => (lane (s.vaReg v) d).toInt
          let sl : Slice := { wid := s.w.wid, starts := starts, d := x % 2 ^ 24 }
          (∀ z, Claims.firstBad (Claims.copyRest drain s c b (starts.headD 0)) = some z → Claims.Stops s i n z) ∧
          (Claims.firstBad (Claims.copyRest drain s c b (starts.headD 0)) = none →
            (∀ key o, begun = some (key, o) →
              let same := o.handle = h ∧ key = engineKey e q ∧ o.recAddr = a ∧ o.mcast = Claims.part x 24 8 ∧ o.drain = drain ∧
                o.follow.elim 0 (·.1.toNat) = word
              (¬same → Claims.Stops s i n (Claims.illegal 0x48 4 c)) ∧
              (same → o ∈ s.queueOf cl e q → ∃ t, exec i s = .next t ∧ Done s t [] [] [] false ∧
                { o with slices := o.slices ++ [sl] } ∈ t.queueOf cl e q ∧ t.g.copies.getD (16 * n + s.w.wid) 0 = k + 1)) ∧
            (begun = none → k < s.g.opsBegun n → ∃ t, exec i s = .next t ∧ Done s t [] [] [] false ∧
              (∀ e q, t.queueOf cl e q = s.queueOf cl e q) ∧ (∀ j, (t.handle s.w.group j).st = (s.handle s.w.group j).st) ∧
              t.g.copies.getD (16 * n + s.w.wid) 0 = k + 1) ∧
            (begun = none → s.g.opsBegun n ≤ k →
              let stop := ∃ t, exec i s = .next t ∧ SameMemory s t s.g.core ∧ Claims.Takes s t (Claims.illegal 0x50 4 c)
              (word ≠ 0 → drain = true → stop) ∧ ((∀ m, ¬Claims.Follows word m) → word ≠ 0 → stop) ∧
              ∀ m, word = 0 ∨ (drain = false ∧ Claims.Follows word m ∧ Ready s 4 (opsMma m.2.2.1 m.2.2.2.1 m.2.2.2.2) none) →
                let bad := Claims.firstBad (Claims.mmaChecks s.g m.1 (s.sreg m.2.2.1) (s.sreg m.2.2.2.1) (s.sreg m.2.2.2.2)
                  m.2.2.1 m.2.2.2.1 m.2.2.2.2)
                let free := s.canBind s.w.group h = true ∧ (s.queueOf cl e q).length < 16
                (word ≠ 0 → bad ≠ none → stop) ∧
                (word = 0 ∨ bad = none →
                  (¬free → ∃ t, exec i s = .next t ∧ Waits s t) ∧
                  (free → ∃ t o, exec i s = .next t ∧ Done s t [] [] [] false ∧ t.queueOf cl e q = s.queueOf cl e q ++ [o] ∧
                    o.drain = drain ∧ o.group = s.w.group ∧ o.launch = s.g.launch ∧ o.set = n ∧ o.num = k ∧ o.handle = h ∧
                    o.recAddr = a ∧ o.layout = layoutOf b ∧ o.buf = Claims.part (s.sreg c).toNat 48 2 ∧ o.slices = [sl] ∧
                    o.mcast = Claims.part x 24 8 ∧
                    o.cb = (if Claims.part (s.sreg c).toNat 50 1 = 1 then some (Claims.part (s.sreg c).toNat 51 3) else none) ∧
                    o.follow = (if word = 0 then none
                      else some (BitVec.ofNat 32 word, s.sreg m.2.2.1, s.sreg m.2.2.2.1, s.sreg m.2.2.2.2)) ∧
                    (∀ w, w ∈ o.counted ↔ w < 16 ∧ (s.g.set n).members.getLsbD w = true) ∧
                    (t.handle s.w.group h).st = { state := if drain then 3 else 1 } ∧ (t.handle s.w.group h).bound = true ∧
                    t.g.copies.getD (16 * n + s.w.wid) 0 = k + 1)))))))

/-- R54, R55, R372, R373: CBSET writes a descriptor, or waits while a slot is claimed and has not landed; on a descriptor of
another group it is refused with code 0x59. CBWAIT takes the oldest filled slot, and answers its window offset and its index; it
waits for a slot, and, as it acquires, for the wave's stores and loads. CBREL frees a slot that was taken. For these two an
invalid or foreign descriptor is refused with code 0x5B, for CBSET a wrong word with 0x5A. -/
def Obligations.CircularBuffers : Prop :=
  ∀ (c : Nat) (s : State), c < 8 → Issues s →
    let x := Claims.cbuf s c
    let mine := x.valid = true ∧ x.owner = s.w.group
    (∀ a, a < 32 → Ready s 4 (Claims.scalar1 a) none →
      (x.valid = true → x.owner ≠ s.w.group → Claims.Refused s (.cbset c a) 0x59 0 c) ∧
      ((x.valid = true → x.owner = s.w.group) →
      let w := (s.sreg a).toNat
      (Claims.cbWord s w → x.claimed = [] → ∃ t, exec (.cbset c a) s = .next t ∧ Done s t [] [] [] false ∧
        Claims.cbuf t c = { valid := true, buf := w / 2 ^ 62 % 2, count := w / 2 ^ 40 % 256, slot := w / 2 ^ 28 % 4096
                            base := w % 4096, owner := s.w.group, free := w / 2 ^ 40 % 256 } ∧
        ∀ d, d ≠ c → Claims.cbuf t d = Claims.cbuf s d) ∧
      (Claims.cbWord s w → x.claimed ≠ [] → ∃ t, exec (.cbset c a) s = .next t ∧ Waits s t) ∧
      (¬Claims.cbWord s w → Claims.Refused s (.cbset c a) 0x5A 1 a))) ∧
    (¬Claims.skipped s → ∀ d, d < 32 → Ready s 4 [{ field := 0, kind := .s, reg := d, dst := true }] none →
      (mine → x.filled ≠ 0 → s.w.storeQ = [] → s.w.loading = false → ∃ t, exec (.cbwait d c) s = .next t ∧ Done s t [] [d] [] false ∧
        t.w.sreg d = BitVec.ofNat 64 ((x.base + x.rdidx * x.slot) * 128 % 2 ^ 24 + x.rdidx * 2 ^ 24) ∧
        Claims.cbuf t c = { x with filled := x.filled - 1, rdidx := (x.rdidx + 1) % x.count, taken := x.taken + 1 }) ∧
      (mine → s.w.storeQ = [] → x.filled = 0 ∨ s.w.loading = true → ∃ t, exec (.cbwait d c) s = .next t ∧ Waits s t) ∧
      (¬mine → Claims.Refused s (.cbwait d c) 0x5B 1 c)) ∧
    (¬Claims.skipped s → Ready s 4 [] none →
      (mine → x.taken ≠ 0 → ∃ t, exec (.cbrel c) s = .next t ∧ Done s t [] [] [] false ∧
        Claims.cbuf t c = { x with free := x.free + 1, taken := x.taken - 1 }) ∧
      (¬(mine ∧ x.taken ≠ 0) → Claims.Refused s (.cbrel c) 0x5B 0 c))

/-- R55, R104, R107, R109, R111 to R113: the moves of an engine queue's head. It claims the next free slot of its circular
buffer; it starts when every counted slice is there, or ends with the reason of a failure and no byte written; a copy lands on
its group, or a multicast on the oldest resident group of its launch on a target core; a target that did not come is skipped; a
drain writes its units; the handle then becomes full and the operation leaves the queue. R74 to R85, R98 to R100: the elements
that a copy of one slice lands and the units that a drain of one slice leaves, converted as the tables of the formats say, with
their status. A follow-on command is placed when there is room, or, where it fails the checks of the receiving group, that group
takes BUFFER_RANGE.

The model's choices: all bytes move when the operation completes, read as they are then (log 32); at its delivery a target is
looked up again (log 35); a B4 element or a DPW8 weight records no underflow (log 38); the smoothing's first rounding records
nothing (log 85); an FP32 NaN is drained as it is, and packed bits are not smoothed (log 99). -/
def Obligations.EngineMoves : Prop :=
  (∀ (cl e q : Nat) (s : State) (o : EngineOp), (s.queueOf cl e q).head? = some o →
    let core := (s.group o.group).core
    let own : Target := { k := (s.group o.group).core % 4, group := some o.group }
    let complete := ∀ w ∈ o.counted, ∃ x ∈ o.slices, x.wid = w
    (∀ c, o.cb = some c → o.slot = none →
      let x := (s.core core).cbs.getD c {}
      (x.free ≠ 0 → ∃ t, exec (.cbSlotClaim cl e q) s = .next t ∧
        (t.queueOf cl e q).head? = some { o with slot := some x.wridx } ∧ (t.core core).cbs.getD c {} =
          { x with free := x.free - 1, wridx := (x.wridx + 1) % x.count, claimed := x.claimed ++ [(x.wridx, false)] }) ∧
      (x.free = 0 → exec (.cbSlotClaim cl e q) s = .next s)) ∧
    (o.started = false → (o.cb = none ∨ o.slot ≠ none) → complete →
      (s.engineFault o = none → s.uncorr = [] →
        (o.drain = true → ∃ t, exec (.copyOperationStart cl e q) s = .next t ∧
          (t.queueOf cl e q).head? = some { o with started := true } ∧ Claims.Due t (.copyOperationComplete cl e q)) ∧
        (o.drain = false → o.mcast = 0 → ∃ t, exec (.copyOperationStart cl e q) s = .next t ∧
          (t.queueOf cl e q).head? = some { o with started := true, targets := [own] } ∧
          Claims.Due t (.copyOperationComplete cl e q))) ∧
      (∀ r, s.engineFault o = some r → ∃ t, exec (.copyOperationStart cl e q) s = .next t ∧ Claims.Ended s t cl e q o 1 ∧
        (t.handle o.group o.handle).st.reason = r ∧ t.hbm = s.hbm ∧ ∀ k b, (t.core k).buf b = (s.core k).buf b)) ∧
    (o.started = true → o.drain = false → o.mcast = 0 → o.targets = [own] → o.res = {} → o.follow = none →
      s.copyWaits o o.group = [] → o.waits.get? core = none → s.fits o o.group = true →
      let r := s.landOn o o.group
      ∃ t, exec (.copyOperationComplete cl e q) s = .next t ∧
        Claims.Ended s t cl e q o (if r.2.code = 0 then 0 else 1) ∧ t.hbm = r.1.hbm ∧ t.host = r.1.host ∧
        (∀ k b, (t.core k).buf b = (r.1.core k).buf b) ∧ (t.handle o.group o.handle).st.len = r.2.len ∧
        (t.handle o.group o.handle).st.conv = r.2.conv ∧ (t.handle o.group o.handle).st.reason = r.2.reason) ∧
    (o.started = true → o.drain = false → o.mcast = 0 → o.targets = [own] → o.res = {} → s.memWf = true → s.engineFault o = none →
      o.layout.format < 10 → o.layout.ctype < 4 → (o.layout.ctype = 3 ↔ o.layout.format = 9) → o.layout.dims ≠ [] →
      (∀ d ∈ o.layout.dims, 0 < d.2.2) → (o.buf = 0 → ∀ p ∈ s.tensorPieces o, ∀ u x, p.2.1 ≠ .buf u x) →
      (o.layout.smooth = true → o.buf ≠ 0 ∧ o.layout.schan < o.layout.dims.length) →
      ∀ sl list, Claims.lands s o sl o.group → s.blockList (s.group o.group) o.layout = .ok list →
      ∃ t, exec (.copyOperationComplete cl e q) s = .next t ∧ Claims.Ended s t cl e q o 0 ∧
        Claims.Landed s t o sl list o.group ∧
        (t.handle o.group o.handle).st.len = (Claims.regionOf o.layout).2 ∧
        (t.handle o.group o.handle).st.conv = Claims.statusOf s o sl list) ∧
    (o.started = true → o.drain = true → s.drainWaits o = [] → o.waits.get? core = none →
      let r := s.drainAll o
      ∃ t, exec (.copyOperationComplete cl e q) s = .next t ∧ Claims.Ended s t cl e q o r.2.code ∧ t.hbm = r.1.hbm ∧
        t.host = r.1.host ∧ (∀ k b, (t.core k).buf b = (r.1.core k).buf b) ∧
        (t.handle o.group o.handle).st = { r.2 with state := 2 }) ∧
    (o.started = true → o.drain = true → s.drainWaits o = [] → o.waits.get? core = none → s.memWf = true → s.engineFault o = none →
      o.layout.format < 10 → o.layout.format ≠ 8 → o.layout.ctype ≠ 2 → o.layout.ctype < 4 → o.layout.dims ≠ [] →
      (∀ d ∈ o.layout.dims, 0 < d.2.2) →
      (∀ p ∈ s.tensorPieces o, ∀ u x, p.2.1 ≠ .buf u x) → ∀ sl list, o.slices = [sl] → sl.wid < 16 →
      (Claims.boxTo o.layout o.layout.dims.length) % (Claims.perUnit o.layout.format).1 = 0 →
      s.blockList (s.group o.group) o.layout = .ok list →
      let r := Claims.drainedTo s o sl list core
      ∃ t, exec (.copyOperationComplete cl e q) s = .next t ∧ Claims.Ended s t cl e q o 0 ∧
        (∀ x, x.1 < 6 → Claims.raw t core x = r.1 x) ∧ (t.handle o.group o.handle).st.conv = r.2.1 ∧
        (t.handle o.group o.handle).st.len = r.2.2) ∧
    (∀ k, o.started = true → o.mcast ≠ 0 → o.targets = [{ k := k }] → s.memWf = true →
      (∀ g sl, s.oldestOn o.launch (4 * cl + k) = some g → g ≠ o.group → s.canBind g o.handle = true → Claims.lands s o sl g →
        let r := s.landOn o g
        r.2.code = 0 →
        ∃ t, exec (.multicastDelivery cl e q k) s = .next t ∧ t.queueOf cl e q = (s.queueOf cl e q).tail ∧ t.hbm = r.1.hbm ∧
          t.host = r.1.host ∧ (∀ k b, (t.core k).buf b = (r.1.core k).buf b) ∧
          (t.handle g o.handle).st = { state := 2, conv := r.2.conv, len := r.2.len } ∧
          (t.handle o.group o.handle).st.state = 2) ∧
      (s.oldestOn o.launch (4 * cl + k) = none → (4 * cl + k) ∈ (s.launch o.launch).ranOn → o.res.code = 0 →
        ∃ t, exec (.multicastDelivery cl e q k) s = .next t ∧ Claims.Ended s t cl e q o 2 ∧
          (t.handle o.group o.handle).st.skip = 2 ^ k)) ∧
    (∀ k due, o.started = true → o.targets = [{ k := k, deadline := due }] → due ≠ 0 → due ≤ s.now → o.res.code = 0 →
      ∃ t, exec (.multicastWaitExpiry cl e q k) s = .next t ∧ Claims.Ended s t cl e q o 2 ∧
        (t.handle o.group o.handle).st.skip = 2 ^ k) ∧
    ∀ k w tile x y sr sat d a b, o.targets = [{ k := k, group := some o.group, follow := true }] → o.follow = some (w, tile, x, y) →
      Claims.Follows w.toNat (sr, sat, d, a, b) → o.res.code = 0 →
      let bad := Claims.firstBad (Claims.mmaChecks (s.group o.group) sr tile x y d a b)
      (s.matrixRoom o.group = false → exec (.followOnPlacement cl e q k) s = .next s) ∧
      (s.matrixRoom o.group = true → bad ≠ none → ∃ t, exec (.followOnPlacement cl e q k) s = .next t ∧
        Claims.Ended s t cl e q o 0 ∧ (t.core core).matrixQ = (s.core core).matrixQ ∧
        (t.handle o.group o.handle).poison = some (0x03, 0, 0x02)) ∧
      (s.matrixRoom o.group = true → bad = none → s.groupHandler o.group = false →
        ∃ t, exec (.followOnPlacement cl e q k) s = .next t ∧ Claims.Ended s t cl e q o 0 ∧
          (t.core core).matrixQ = (s.core core).matrixQ ++ [{ group := o.group, wave := none, op := .mma sr sat x y, tile := tile
                                                              latch := if x.getLsbD 63 then (s.group o.group).gathers else 0 }])) ∧
  Claims.Conversions

/-- R40, R242, R243, R375 to R384: a matrix command whose checks fail takes the trap of the first that does (0x53 to 0x58,
UNIT_DENIED, BUFFER_RANGE; in handler mode MATRIX_PROTECT) and is not placed (the group's commands that have not started freeze
when its handler takes the trap). One whose checks pass, when a place is free, goes to the end of its core's queue (or,
in a group that is in handler mode, of the frozen batch), sets OPEN of its tile unless it only reads flags, and makes the scalar
that awaits its answer busy; without a place it waits. MGATHER goes to the gather unit with its 64 indexes.

The model's choice: commands that other waves issue while the group is in handler mode join the frozen batch (log 40). -/
def Obligations.MatrixCommandsAreQueued : Prop :=
  (∀ (i : Instr) (s : State) (r : Claims.MatRow), Claims.matrix s i = some r → i.wellFormed = true → Issues s →
    (Claims.skipped s → operandTrap s.w 4 r.ops = none → ∃ t, exec i s = .next t ∧ Done s t [] [] [] false) ∧
    (¬Claims.skipped s → Ready s 4 r.ops none → s.w.regen = [] → ∀ x, Claims.firstBad r.chk = some x →
      ∃ t, exec i s = .next t ∧ SameMemory s t s.g.core ∧ t.w.file = s.w.file ∧ Claims.Takes s t x ∧
        (t.core s.g.core).matrixQ.length + t.g.frozen.length = s.c.matrixQ.length + s.g.frozen.length ∧
        (∀ m, m ∈ (t.core s.g.core).matrixQ ∨ m ∈ t.g.frozen → m ∈ s.c.matrixQ ∨ m ∈ s.g.frozen) ∧
        (s.toHandler s.cur x = false → (t.core s.g.core).matrixQ = s.c.matrixQ)) ∧
    (¬Claims.skipped s → Ready s 4 r.ops none → Claims.firstBad r.chk = none → s.w.storeQ = [] →
      (∀ h ∈ r.waits, (s.handle s.w.group h).poison = none) →
      (s.matrixRoom s.w.group = false → ∃ t, exec i s = .next t ∧ Waits s t) ∧
      (s.matrixRoom s.w.group = true →
        let m : MatCmd := { group := s.w.group, wave := some s.cur, inHandler := s.w.handler, op := r.op, tile := r.tile, latch := r.latch }
        let n := Claims.tileOf s.g r.tile
        ∃ t, exec i s = .next t ∧ MovedOn s t 4 ∧ SameMemory s t s.g.core ∧
          SameRegs s t [] r.busy [] false ∧ (∀ v, t.w.sreg v = s.w.sreg v) ∧
          (∀ v, v < 32 → t.w.sbusy.getLsbD v = (s.w.sbusy.getLsbD v || r.busy.contains v)) ∧
          (s.groupHandler s.w.group = true → s.w.handler = false →
            t.g.frozen = s.g.frozen ++ [m] ∧ t.c.matrixQ = s.c.matrixQ) ∧
          ((s.groupHandler s.w.group = false ∨ s.w.handler = true) →
            t.c.matrixQ = s.c.matrixQ ++ [m] ∧ t.g.frozen = s.g.frozen) ∧
          ∀ j, Claims.metaOf t s.g.core j = if j = n ∧ r.busy = [] then Claims.metaOf s s.g.core j ||| 8 else Claims.metaOf s s.g.core j))) ∧
  ∀ (a b : Nat) (s : State), (Instr.mgather a b).wellFormed = true → Issues s → ¬Claims.skipped s →
    Ready s 4 [{ field := 1, kind := .v2, reg := a, src := some 0 }, { field := 2, kind := .s, reg := b }] none →
    ((s.sreg b).getLsbD 62 = true → (s.handle s.w.group (Claims.part (s.sreg b).toNat 56 6)).poison = none) →
    let idx := (List.range 64).map fun i => if i < 32 then lane (s.vaReg a) i else lane (s.vaReg (a + 1)) (i - 32)
    (∀ x, Claims.firstBad (Claims.gatherChecks s (s.sreg b) b idx) = some x → s.w.regen = [] →
      ∃ t, exec (.mgather a b) s = .next t ∧ SameMemory s t s.g.core ∧ (t.core s.g.core).gatherQ = s.c.gatherQ ∧
        t.g.gathers = s.g.gathers ∧ Claims.Takes s t x) ∧
    (Claims.firstBad (Claims.gatherChecks s (s.sreg b) b idx) = none → s.w.storeQ = [] →
     ∃ t, exec (.mgather a b) s = .next t ∧ Done s t [] [] [] false ∧
      t.c.gatherQ = s.c.gatherQ ++ [{ group := s.w.group, seq := s.g.gathers + 1, desc := s.sreg b, idx := idx, wave := s.cur }] ∧
      t.g.gathers = s.g.gathers + 1 ∧ t.g.latchRow = 32 * ((s.sreg b).toNat / 2 ^ 48 % 256))

/-- R46 to R48, R82, R84, R89, R90, R378, R380 to R384: the products, the tree nodes and the accumulation of each semiring, with
its exact and rounded steps, its minimum or maximum, the clamp of the saturating form and the flags OVF, INVALID and CLAMP. The
array starts the oldest MMA of a group that is ready: sum (i, j) is the balanced tree of the products of row i and column j. The
accumulation reads, adds to and writes every element of the tile, and no other byte of C; MZERO clears a tile; MFLAGS answers
its flags and MFLAGS.CLR also clears them; a gather fills the latch with the rows that its indexes name. R44, R241: a command
that reads an uncorrectable word, of its tile, of the tile's metadata or of its rows, has no effect, and its wave takes the trap
at its next issue.

The model's choices: which words a command reads at its accumulation, and what a failed gather leaves (log 88); that the issuing
wave takes the trap at its next issue (log 43); a DPW8 term of zero adds nothing (log 85). -/
def Obligations.MatrixResults : Prop :=
  Claims.SemiringTable ∧
  (∀ (core g : Nat) (s : State) (m : MatCmd) (sr : Semiring) (sat : Bool) (a b : DWord), (s.core core).oldest g = some m →
    m.op = .mma sr sat a b → (s.group g).core = core → (∀ n ∈ (s.core core).matrixQ, n.started = false) →
    s.handlesFull g [a, b] = true → m.latch ≤ (s.group g).gathered → s.uncorr = [] →
    let x := s.group g
    let p := (s.operandBytes x a sr.aBytes).1
    let r := (s.operandBytes x b sr.bBytes).1
    ∃ t n, exec (.mmaStart core g) s = .next t ∧ (t.core core).oldest g = some n ∧ n = { m with started := true, sums := n.sums, flags := n.flags } ∧
      n.sums.length = 4096 ∧ (s.now + 64, .mmaAccumulationComplete core) ∈ t.agenda ∧
      let sum := fun i j => Claims.balanced (sr.node sat)
        (fun k => sr.product sat (sr.aVal p (i * 2 ^ Claims.levels sr + k)) (sr.bVal r (k * 64 + j))) (Claims.levels sr) 0
      (∀ i j, i < 64 → j < 64 → n.sums.getD (64 * i + j) 0 = Claims.sumWord sr (sum i j).1) ∧
      ∀ q, n.flags.testBit q = true ↔ ∃ i j, i < 64 ∧ j < 64 ∧ (sum i j).2.testBit q = true) ∧
  (∀ (core : Nat) (s : State) (m : MatCmd) (sr : Semiring) (sat : Bool) (a b : DWord),
    (s.core core).matrixQ.find? (·.started) = some m → m.op = .mma sr sat a b → (s.group m.group).core = core →
    m.sums.length = 4096 → (s.core core).memWf = true →
    let x := s.group m.group
    let n := Claims.tileOf x m.tile
    (x.rc.base % 16384 = 0 → m.tile.toNat % 16384 = 0 → ∀ w j, m.wave = some w → (4, core, j) ∈ s.uncorr → 2048 * n ≤ j →
      j < 2048 * (n + 1) → ∃ t, exec (.mmaAccumulationComplete core) s = .next t ∧ (t.wave w).alarm.isSome = true ∧
        ∀ k u i, Claims.bufByte t k u i = Claims.bufByte s k u i) ∧
    let new := fun k => sr.accumulate sat (BitVec.ofNat 32 (Claims.number (Claims.bufByte s core .c) (16384 * n + 4 * k) 4))
      (m.sums.getD k 0) (BitVec.ofNat 32 (Claims.number (Claims.bufByte s core .s)
        (x.rs.base + m.tile.toNat / 2 ^ 32 % 2 ^ 24 + 4 * (k % 64)) 4))
    (s.uncorr = [] → ∃ t, exec (.mmaAccumulationComplete core) s = .next t ∧
      (∀ k, k < 4096 → Claims.number (Claims.bufByte t core .c) (16384 * n + 4 * k) 4 = (new k).1.toNat) ∧
      (∀ i, (i < 16384 * n ∨ 16384 * (n + 1) ≤ i) → Claims.bufByte t core .c i = Claims.bufByte s core .c i) ∧
      (∀ k u i, (k ≠ core ∨ u ≠ .c) → Claims.bufByte t k u i = Claims.bufByte s k u i) ∧
      (∀ i, i < 3 → ((Claims.metaOf t core n).getLsbD i = true ↔ (Claims.metaOf s core n).getLsbD i = true ∨
        m.flags.testBit i = true ∨ ∃ k, k < 4096 ∧ (new k).2.testBit i = true)))) ∧
  (∀ (core g : Nat) (s : State) (m : MatCmd), (s.core core).oldest g = some m → (s.group g).core = core → m.group = g →
    let n := Claims.tileOf (s.group g) m.tile
    (m.op = .mzero → ∃ t, exec (.mzeroExecute core g) s = .next t ∧
      (∀ i, Claims.bufByte t core .c i = if 16384 * n ≤ i ∧ i < 16384 * (n + 1) then 0 else Claims.bufByte s core .c i) ∧
      (Claims.metaOf t core n) &&& 7 = 0) ∧
    (∀ w sd clr, m.op = .mflags w sd clr → m.wave = some w → sd < 32 → (5, core, n) ∈ s.uncorr →
      ∃ t, exec (.mflagsExecute core g) s = .next t ∧ (t.wave w).alarm.isSome = true ∧ (t.wave w).sreg sd = (s.wave w).sreg sd ∧
        (t.wave w).sbusy.getLsbD sd = false ∧ (Claims.metaOf t core n) &&& 7 = (Claims.metaOf s core n) &&& 7) ∧
    (∀ w sd clr, m.op = .mflags w sd clr → sd < 32 → (s.wave w).phase ≠ .ended → (5, core, n) ∉ s.uncorr →
      ∃ t, exec (.mflagsExecute core g) s = .next t ∧
      (t.wave w).sreg sd = (Claims.metaOf s core n).setWidth 64 ∧ (t.wave w).sbusy.getLsbD sd = false ∧
      (clr = true → (Claims.metaOf t core n) &&& 7 = 0) ∧ (clr = false → (Claims.metaOf t core n) &&& 7 = (Claims.metaOf s core n) &&& 7))) ∧
  ∀ (core : Nat) (s : State) (q : Gather) (rest : List Gather) (b : Buf) (off : Nat), (s.core core).gatherQ = q :: rest →
    window (q.desc.toNat % 2 ^ 48) = .buf b off → s.handlesFull q.group [q.desc] = true → q.idx.length = 64 → (s.core core).memWf = true →
    (∀ m ∈ s.matrixWork q.group, m.latch = 0 ∨ q.seq ≤ m.latch) →
    (s.group q.group).core = core →
    let r := 32 * (q.desc.toNat / 2 ^ 48 % 256)
    let o := ((s.group q.group).range b).base + off
    (o % 8 = 0 → off % 8 = 0 → ∀ i j, i < 64 → q.idx.getD i 0 ≠ 0xFFFFFFFF →
      ((match b with | .s => 1 | .a => 2 | .w => 3 | .c => 4), core, j) ∈ s.uncorr → o + (q.idx.getD i 0).toNat * r ≤ 8 * j →
      8 * j < o + (q.idx.getD i 0).toNat * r + r →
      ∃ t, exec (.mgatherExecute core) s = .next t ∧ (t.wave q.wave).alarm.isSome = true ∧ (t.core core).gatherQ = rest ∧
        (t.group q.group).latch = (s.group q.group).latch) ∧
    (s.uncorr = [] → ∃ t, exec (.mgatherExecute core) s = .next t ∧ (t.core core).gatherQ = rest ∧
      (t.group q.group).gathered = q.seq ∧ ∀ i j, i < 64 → j < r → (t.group q.group).latch.getD (i * r + j) 0 =
        if q.idx.getD i 0 = 0xFFFFFFFF then 0
        else Claims.bufByte s core b (o + (q.idx.getD i 0).toNat * r + j))

namespace Sys2Proof.Claims

/-! ### Record queues, contexts, special registers and traps -/

/-- The operands of RQALLOC (R385). -/
def allocOps (d a b : Nat) : List Opnd :=
  [{ field := 0, kind := .v, reg := d, dst := true }, { field := 1, kind := .s, reg := a }, { field := 2, kind := .mw, reg := b }]
/-- sd and sa. -/
def opsDA (d a : Nat) : List Opnd := [{ field := 0, kind := .s, reg := d, dst := true }, { field := 1, kind := .s, reg := a }]
/-- The free slots of a node in ring order, from the next one on (R385). -/
def freeSlots (n : Node) : List Nat :=
  ((List.range n.cap).map fun i => (n.ring + i) % n.cap).filter fun i => (n.slots.get? i).isNone
/-- The slot that RQALLOC obtains for lane `l`: the active lanes take the free slots in ascending order. -/
def slotOf (s : State) (n : Node) (l : Nat) : Option Nat := (freeSlots n)[(lanesIn s.w.active).idxOf l]?
/-- The handler takes a record-queue fault (R195). -/
def QueueFault (s : State) (i : Instr) (reason addr node depth l : Nat) : Prop :=
  let x : Trap :=
    { cause := 0x08, addr := BitVec.ofNat 64 addr
      info := BitVec.ofNat 64 (reason + 2 ^ 8 * node + 2 ^ 16 * depth + 2 ^ 24 * l) }
  s.w.regen = [] → s.toHandler s.cur x = true →
    ∃ t, exec i s = .next t ∧ SameMemory s t s.g.core ∧ t.launches = s.launches ∧ EnteredHandler s t s.cur s.w.ipc x
/-- The parts of 32 bytes of a record in a slot. -/
def recordParts (n : Node) (slot : Nat) (b : List Byte) : List (Nat × List Byte) :=
  (List.range (n.z / 32)).map fun i => (n.base + slot * n.z + 32 * i, (b.drop (32 * i)).take 32)
/-- The operand of RQCOMMIT and RQJOIN. -/
def recordOps (a : Nat) : List Opnd := [{ field := 1, kind := .v, reg := a, src := some 0 }]

/-- The word of an RQINFO select (R388). -/
def queueInfo (s : State) (node sel : Nat) : Nat :=
  let n := (s.launch s.g.launch).nodes.getD node {}
  let z := 32 * n.ep.recsz
  if sel = 0 then (s.ctx s.g.ctx).qbase
  else if sel = 1 then n.base
  else if sel = 2 then n.cap - n.slots.rows.length
  else if sel = 3 then n.ready.length
  else if sel = 4 then n.exhausted
  else if sel = 5 then n.abandoned
  else if sel = 6 then n.cap + z * 2 ^ 32
  else n.ep.target + n.ep.timer * 2 ^ 16 + n.ep.depth * 2 ^ 32 + n.prio * 2 ^ 40
end Sys2Proof.Claims

/-- R180, R181, R385: RQALLOC gives the active lanes, in ascending order, the free slots of its node in ring order; each lane
receives its slot's offset from QBASE and its header is stored; a lane for which no slot is left receives 0, its mask bit is 1 and
the node counts it. A node that the launch lacks is refused with code 0x5D; a group of depth 63 raises ALLOC_DEPTH. R182, R386:
RQCOMMIT, whose checks pass for every active lane, commits each record that the lanes name, once: it waits in its node's queue at
its depth (or is discarded, where the node has failed its launch checks, R414). A lane that names no slot raises NOT_ALLOCATED.
R388: RQINFO reads a node's numbers; it refuses a node that the launch lacks and the selects from 8 on.

The model's choices: a select from 8 on is refused with code 0x5F, field 2 and the select as register (log 27); the fault of a
lane that names no slot has node 0 and DEPTH 0 (log 101). -/
def Obligations.RecordsAreQueued : Prop :=
  (∀ (d a b : Nat) (s : State), (Instr.rqalloc d a b).wellFormed = true → Ready s 4 (Claims.allocOps d a b) none → Issues s →
     let g := s.g
     let node := (s.sreg a).toNat
     let n := s.node g.launch node
     let got := Claims.slotOf s n
     let u := locateAll {} { write := true } 8 s (headerReqs n.base n.z ((lanesIn s.w.active).map fun l => (l, got l)))
     ((s.launch g.launch).nodeCount ≤ node → Claims.Refused s (.rqalloc d a b) 0x5D 1 a) ∧
     (node < (s.launch g.launch).nodeCount → g.depth = 63 → ∀ l rest, lanesIn s.w.active = l :: rest →
       Claims.QueueFault s (.rqalloc d a b) 5 0 node 63 l) ∧
     (node < (s.launch g.launch).nodeCount → (g.depth ≠ 63 ∨ s.w.active = 0) → n.slots.keys.Nodup →
       (∀ j ∈ n.slots.keys, j < n.cap) → Claims.allOk u.2 →
       (∀ x ∈ u.2, ∀ p ∈ Located.pieces x, p.1.remote s = false) →
       ∃ t, exec (.rqalloc d a b) s = .next t ∧ MovedOn s t 4 ∧ SameRegs s t [d] [] [b] false ∧ SameMemory s t g.core ∧
         Wrote s t d (fun l => match got l with
           | some j => BitVec.ofNat 32 (n.base + j * n.z - (s.ctx g.ctx).qbase)
           | none => 0) ∧
         WroteMask s t b (fun l => (got l).isNone) ∧
         t.w.storeQ = s.w.storeQ ++ u.2.flatMap (fun x => cutPieces (Located.pieces x)
           (leBytes 8 (if x.1.lanes = 0 then 0 else node + 2 ^ 8 * (g.depth + 1)))) ∧
         (∀ j, (t.node g.launch node).slots.get? j =
           if (lanesIn s.w.active).any (got · == some j) then some (.allocated s.w.group) else n.slots.get? j) ∧
         (t.node g.launch node).exhausted = n.exhausted + ((lanesIn s.w.active).length - (Claims.freeSlots n).length) ∧
         ∀ m, m ≠ node → t.node g.launch m = s.node g.launch m)) ∧
  ((∀ (a : Nat) (s s1 : State) (cs : List Commit), a < 128 → Ready s 4 (Claims.recordOps a) none → Issues s →
     commitLanes (s.vaReg a) s [] (lanesIn s.w.active) = (s1, .ok cs) → Published s → s.memWf = true → s.c.l1Wf →
     ∃ t, exec (.rqcommit a) s = .next t ∧ Done s t [] [] [] false ∧
       (cs.map fun c => (c.node, c.slot)).Nodup ∧
       (∀ l, bit s.w.active l = true → ∃ c ∈ cs,
         (s.launch s.g.launch).slotAt ((s.ctx s.g.ctx).qbase + (lane (s.vaReg a) l).toNat) = some (c.node, c.slot)) ∧
       (∀ c ∈ cs, (s.node s.g.launch c.node).slots.get? c.slot = some (.allocated s.w.group) ∧
         ((s.node s.g.launch c.node).check ≠ 2 → (t.node s.g.launch c.node).slots.get? c.slot = some .committed ∧
           { slot := c.slot, depth := c.depth, time := s.now } ∈ (t.node s.g.launch c.node).ready) ∧
         ((s.node s.g.launch c.node).check = 2 → (t.node s.g.launch c.node).slots.get? c.slot = none)) ∧
       ∀ m j, (∀ c ∈ cs, (c.node, c.slot) ≠ (m, j)) →
         (t.node s.g.launch m).slots.get? j = (s.node s.g.launch m).slots.get? j) ∧
   (∀ (a : Nat) (s : State) (l : Nat) (rest : List Nat), a < 128 → Ready s 4 (Claims.recordOps a) none → Issues s →
     lanesIn s.w.active = l :: rest →
     let addr := (s.ctx s.g.ctx).qbase + (lane (s.vaReg a) l).toNat
     (s.launch s.g.launch).slotAt addr = none → Claims.QueueFault s (.rqcommit a) 3 addr 0 0 l) ∧
   (∀ (d a n : Nat) (s : State), (Instr.rqinfo d a n).wellFormed = true → Ready s 4 (Claims.opsDA d a) none → Issues s →
     let node := (s.sreg a).toNat
     ((n = 0 ∨ node < (s.launch s.g.launch).nodeCount) → n < 8 → ∃ t, exec (.rqinfo d a n) s = .next t ∧
       Executed s t 4 [] [d] [] false ∧ t.w.sreg d = BitVec.ofNat 64 (Claims.queueInfo s node n)) ∧
     (n ≠ 0 → (s.launch s.g.launch).nodeCount ≤ node → Claims.Refused s (.rqinfo d a n) 0x5D 1 a) ∧
     (node < (s.launch s.g.launch).nodeCount → 8 ≤ n → Claims.Refused s (.rqinfo d a n) 0x5F 2 n)))

/-- R183, R387: RQJOIN of one record decrements the counter of its join block at home. Above zero nothing follows; at zero the
continuation record enters its node's queue, its CONT bit cleared, or waits for a slot where that is full; below zero the
counter keeps its value, the lanes up to the failing one have moved past the instruction and JOIN_NEGATIVE is raised. A lane
that holds no record of the group is refused with code 0x5E. CONTINUATION_ENQUEUE puts a waiting continuation into a free slot,
its CONT bit cleared, as if it had been committed. -/
def Obligations.RecordsJoin : Prop :=
  (∀ (a : Nat) (s s1 : State) (j : Join), a < 128 → Ready s 4 (Claims.recordOps a) none → Issues s →
    s.recordCheck (s.vaReg a) = none → joinLanes (s.vaReg a) s [] (lanesIn s.w.active) = (s1, .ok [j]) → Published s →
    s.memWf = true → s.c.l1Wf → j.pa % 8 = 0 →
    let old := Claims.wordAt s j.pa
    let home := ((s1.atHome s.g.core s.g.ctx [(j.pa, 8)] fun _ => old - 1).1).contHeader j.join
    let node := bits home 7 0
    (1 < old → old < 2 ^ 63 → ∃ t, exec (.rqjoin a) s = .next t ∧ MovedOn s t 4 ∧ SameRegs s t [] [] [] false ∧
      Claims.WordStored s t j.pa (old - 1)) ∧
    (old = 1 → node < (s.launch s.g.launch).nodeCount → bits home 13 8 ≤ (s.node s.g.launch node).ep.depth →
      (s.node s.g.launch node).nextFree = none →
      ∃ t, exec (.rqjoin a) s = .next t ∧ MovedOn s t 4 ∧ SameRegs s t [] [] [] false ∧ Claims.WordStored s t j.pa 0 ∧
        (t.launch s.g.launch).continuations = (s.launch s.g.launch).continuations ++ [(j.join, node)]) ∧
    (∀ slot s' b, old = 1 → node < (s.launch s.g.launch).nodeCount →
      let n := s.node s.g.launch node
      let after := (s1.atHome s.g.core s.g.ctx [(j.pa, 8)] fun _ => 0).1
      bits home 13 8 ≤ n.ep.depth → n.nextFree = some slot → n.check ≠ 2 → after.globRead s.g.ctx (j.join + 64) n.z = .ok b →
      after.globWrites s.g.ctx (Claims.recordParts n slot (leBytes 8 (home - home / 2 ^ 16 % 2 * 2 ^ 16) ++ b.drop 8)) = .ok s' →
      ∃ t, exec (.rqjoin a) s = .next t ∧ MovedOn s t 4 ∧ SameRegs s t [] [] [] false ∧ t.hbm = s'.hbm ∧ t.host = s'.host ∧
        (t.launch s.g.launch).continuations = (s.launch s.g.launch).continuations ∧
        (t.node s.g.launch node).slots.get? slot = some .committed ∧ (t.node s.g.launch node).ring = slot + 1 ∧
        (t.node s.g.launch node).ready = n.ready ++ [{ slot := slot, depth := bits home 13 8, time := s.now }]) ∧
    (old = 0 → s.w.regen = [] → s.toHandler s.cur { cause := 0x08 } = true →
      ∃ t, exec (.rqjoin a) s = .next t ∧ Claims.WordStored s t j.pa (2 ^ 64 - 1) ∧ t.w.handler = true ∧ t.w.tcause = 0x08 ∧
        t.w.taddr = BitVec.ofNat 64 j.join ∧ t.w.tinfo.toNat % 2 ^ 8 = 2 ∧ t.w.tinfo.toNat / 2 ^ 24 = j.lane ∧
        ∀ l, l < 32 → lane t.w.dx l =
          if bit s.w.active l = true ∧ l ≤ j.lane then s.w.nextPc 4 else lane s.w.dx l)) ∧
  (∀ (a l : Nat) (s : State), a < 128 → Ready s 4 (Claims.recordOps a) none → Issues s → s.w.regen = [] →
    s.recordCheck (s.vaReg a) = some l → s.toHandler s.cur { cause := 0x02 } = true →
    ∃ t, exec (.rqjoin a) s = .next t ∧ SameMemory s t s.g.core ∧ EnteredHandler s t s.cur s.w.ipc
      { cause := 0x02, info := BitVec.ofNat 64 (0x5E + 2 ^ 8 * 1 + 2 ^ 16 * a + 2 ^ 24 * l) }) ∧
  ∀ (l join node slot : Nat) (s s' : State) (b : List Byte),
    let x := s.launch l
    let n := s.node l node
    let s1 := s.setLaunch l { x with continuations := [] }
    let h := leNat (b.take 8)
    x.continuations = [(join, node)] → n.nextFree = some slot → n.check ≠ 2 →
    s1.globRead x.ctx (join + 64) n.z = .ok b →
    (s1.setNode l node { n with ring := slot + 1 }).globWrites x.ctx
      (Claims.recordParts n slot (leBytes 8 (h - h / 2 ^ 16 % 2 * 2 ^ 16) ++ b.drop 8)) = .ok s' →
    ∃ t, exec (.continuationEnqueue l) s = .next t ∧ (t.launch l).continuations = [] ∧
      (t.node l node).slots.get? slot = some .committed ∧
      (t.node l node).ready = n.ready ++ [{ slot := slot, depth := bits h 13 8, time := s.now }]

namespace Sys2Proof.Claims

/-! ### The tree of contexts -/

/-- The instructions whose words CTXGRANT has (R391). -/
def grants (d a b : Nat) (i : Instr) : Prop :=
  i = .ctxgrantCores d a b ∨ i = .ctxgrantMem d a b ∨ i = .ctxgrantQmem d a b ∨ i = .ctxgrantBind d a b ∨
    i = .ctxgrantEnergyIpeak d a b ∨ i = .ctxgrantBandwidth d a b ∨ i = .ctxgrantRoot d a b ∨ i = .ctxgrantResume d a b
/-- The instructions whose words CTXTAKE has. -/
def takes (h a b : Nat) (i : Instr) : Prop :=
  i = .ctxtakeCores h a b ∨ i = .ctxtakeMem h a b ∨ i = .ctxtakeQmem h a b ∨ i = .ctxtakeBind h a b ∨
    i = .ctxtakeEnergyIpeak h a b ∨ i = .ctxtakeBandwidth h a b
/-- A field of a grant word (R391). -/
def gfield (w lo n : Nat) : Nat := w / 2 ^ lo % 2 ^ n
/-- An instruction of a context's tree is done, and answered a status and an ID in its scalar (R389). -/
def Answered (s : State) (i : Instr) (d x : Nat) (p : State → Prop) : Prop :=
  ∃ t, exec i s = .next t ∧ MovedOn s t 4 ∧ SameRegs s t [] [d] [] false ∧ t.w.sreg d = BitVec.ofNat 64 x ∧ p t
/-- A CTXTAKE or CTXFREE is done: it gave its handle to the revocation. -/
def Taken (s : State) (i : Instr) (p : State → Prop) : Prop :=
  ∃ t, exec i s = .next t ∧ MovedOn s t 4 ∧ SameRegs s t [] [] [] false ∧ p t
/-- A handle is full with a code and a reason (R106). -/
def Full (t : State) (g h code reason : Nat) : Prop :=
  (t.handle g h).st.state = 2 ∧ (t.handle g h).st.code = code ∧ (t.handle g h).st.reason = reason

/-- A grant word that R391 admits: no bit that its kind does not name, and its fields in range. -/
def legal (w : Nat) : Prop :=
  match gfield w 60 4 with
  | 0 => gfield w 4 44 = 0 ∧ gfield w 55 4 = 0 ∧ gfield w 48 7 ≤ 95
  | 1 => gfield w 56 4 = 0 ∧ gfield w 0 24 ≠ 0
  | 2 => gfield w 32 28 = 0
  | 3 => gfield w 9 51 = 0 ∧ gfield w 0 9 ≤ 256
  | 4 => gfield w 32 16 = 0 ∧ gfield w 55 5 = 0
  | 5 => gfield w 9 51 = 0
  | 6 => gfield w 48 12 = 0
  | 7 => gfield w 34 26 = 0 ∧ gfield w 32 2 ≠ 3
  | _ => False
/-- The cores that a CORES word names. -/
def namedCores (w : Nat) : List Nat := ((List.range 4).filter fun k => w.testBit k).map (4 * gfield w 48 7 + ·)
/-- The window that a MEM word names. -/
def namedWindow (w : Nat) : Range := { base := gfield w 24 32 * 65536, size := gfield w 0 24 * 65536 }
/-- The sum of an amount over the children of a context. -/
def children (s : State) (c : Nat) (f : Context → Nat) : Nat := ((s.children c).map fun d => f (s.ctx d)).foldr (· + ·) 0

/-- The grant of a kind from 0 to 5 is within what the issuer `c` holds unused (R229, R448). -/
def unused (s : State) (c d w : Nat) : Prop :=
  let x := s.ctx c
  let cl := gfield w 48 7
  let n := gfield w 0 9
  match gfield w 60 4 with
  | 0 => ∀ k ∈ namedCores w, s.granted c k = true ∧ k ∉ s.limboCores c ∧ ∀ e ∈ s.children c, e ≠ d →
      if w.testBit 59 = true then (k, false) ∉ (s.ctx e).cores else s.granted e k = false
  | 1 => (s.ctx d).windows.length < 8 ∧ (namedWindow w).base + (namedWindow w).size ≤ 0xFE0000000000
  | 2 => gfield w 0 32 * 65536 ≤ s.spareQmem c
  | 3 => n ≤ x.bindCount ∧ ∀ i, x.bindCount ≤ i + n → i < x.bindCount → ((x.binds.getD i (0, 0)).1).getLsbD 63 = false
  | 4 => cl ≤ 95 ∧ children s c (fun y => y.energy.getD cl 0) + gfield w 0 16 ≤ x.energy.getD cl 0 ∧
      children s c (fun y => y.ipeak.getD cl 0) + gfield w 16 16 ≤ x.ipeak.getD cl 0
  | _ => children s c (·.share) + n ≤ x.share

/-- What child `d` of `c` holds covers a take of a kind from 0 to 5: what it has granted on, and cores that a revocation already
takes, do not count (R232, R448). -/
def covered (s : State) (c d w : Nat) : Prop :=
  let x := s.ctx d
  let cl := gfield w 48 7
  match gfield w 60 4 with
  | 0 => ∀ k ∈ namedCores w, s.granted d k = true ∧ (∀ e ∈ s.children d, s.granted e k = false) ∧
      (∀ r ∈ x.revokes, r.due ≠ none → k ∉ r.cores) ∧ ∀ r ∈ (s.ctx c).revokes, r.child = d → k ∉ r.cores
  | 1 => namedWindow w ∈ x.windows
  | 2 => gfield w 0 32 * 65536 + children s d (·.qmem) ≤ x.qmem
  | 3 => gfield w 0 9 ≤ x.bindCount
  | 4 => gfield w 0 16 + children s d (fun y => y.energy.getD cl 0) ≤ x.energy.getD cl 0 ∧
      gfield w 16 16 + children s d (fun y => y.ipeak.getD cl 0) ≤ x.ipeak.getD cl 0
  | _ => gfield w 0 9 + children s d (·.share) ≤ x.share

/-- A descriptor breaks R18 or R228: a reserved field is not zero, or a field is out of its range, where the parent, if there is
one, has a watchdog period. -/
def badDescriptor (b : List Byte) (parent : Option Nat) : Prop :=
  let f := fun (o lo n : Nat) => gfield (leNat ((b.drop o).take 8)) lo n
  let slots := f 0x10 0 14
  let size := f 0x08 0 4
  let wdog := f 0x38 32 32
  let slice := f 0x40 32 32
  (f 0x00 50 14 ≠ 0 ∨ f 0x00 0 12 ≠ 0 ∨ f 0x08 48 16 ≠ 0 ∨ f 0x08 4 12 ≠ 0 ∨ f 0x10 14 18 ≠ 0 ∨ f 0x10 42 22 ≠ 0 ∨ f 0x18 48 16 ≠ 0 ∨
    f 0x18 1 7 ≠ 0 ∨ f 0x20 48 16 ≠ 0 ∨ f 0x28 48 16 ≠ 0 ∨ f 0x30 48 16 ≠ 0 ∨ f 0x38 13 3 ≠ 0 ∨ f 0x38 0 8 ≠ 0 ∨ f 0x40 0 32 ≠ 0 ∨
    ∃ i, 0x48 ≤ i ∧ i < 0x80 ∧ b.getD i 0 ≠ 0) ∨
  size = 15 ∨ 12288 < slots ∨ 0xFE0000000000 < f 0x08 16 32 * 65536 + slots * 32 * (65536 * 2 ^ size) ∨ 8 < f 0x18 8 4 ∨
    8 < f 0x38 8 4 ∨ f 0x38 16 16 = 0 ∨ 6144 < f 0x38 16 16 ∨ 60000 < wdog ∨ (∃ p, parent = some p ∧ p < wdog) ∨
    (slice ≠ 0 ∧ (slice < 10 ∨ 100000 < slice)) ∨ f 0x20 0 48 % 2 ^ 21 ≠ 0 ∨ f 0x28 0 48 % 2 ^ 12 ≠ 0 ∨ f 0x30 0 48 % 2 ^ 16 ≠ 0

/-! Submission entries (R437, R438, R449). -/

/-- An entry breaks R437 by itself: a reserved byte, or a field of the root record's header that must be zero. -/
def badRecord (e : List Byte) : Prop :=
  (∃ i, 0x14 ≤ i ∧ i < 0x20 ∧ e.getD i 0 ≠ 0) ∨ gfield (leNat ((e.drop 0x20).take 8)) 8 24 ≠ 0 ∨ leNat ((e.drop 0x28).take 8) ≠ 0
/-- The node table, and the node of the root record. -/
def tableAt (e : List Byte) : Nat := leNat (e.take 8)
def rootOf (e : List Byte) : Nat := (e.getD 0x20 0).toNat
/-- The entry of node `i` of a table and its Endpaper, as the device reads them in a context (R406, R407). -/
def nodePage (s : State) (c table i : Nat) : Except MemFault (List Byte × List Byte) :=
  (s.globReadRun c (table + 16 + 16 * i) 16).bind fun x => (s.globReadRun c (leNat (x.take 6)) 64).map fun b => (x, b)
/-- Record size in 32 bytes of a node. -/
def recsz (p : List Byte × List Byte) : Nat := (p.2.getD 0x15 0).toNat
/-- An entry starts no launch: BAD_ENTRY (R438). -/
def EntryBad (s : State) (c : Nat) (e : List Byte) : Prop :=
  badRecord e ∨ ∃ h, s.globReadRun c (tableAt e) 16 = .ok h ∧
    (leNat ((h.drop 4).take 2) ≤ rootOf e ∨ ∃ p, nodePage s c (tableAt e) (rootOf e) = .ok p ∧ recsz p = 0)
/-- A read that the start of its launch needs faults (R438). -/
def EntryFaults (s : State) (c : Nat) (e : List Byte) (f : MemFault) : Prop :=
  ¬badRecord e ∧ (s.globReadRun c (tableAt e) 16 = .error f ∨ ∃ h, s.globReadRun c (tableAt e) 16 = .ok h ∧
    rootOf e < leNat ((h.drop 4).take 2) ∧ nodePage s c (tableAt e) (rootOf e) = .error f)
/-- The sizes of the queues of an entry's launch (R179, R449); a node that cannot be read has none yet (log 102). -/
def queueSizes (s : State) (c : Nat) (e : List Byte) (count : Nat) : List Nat :=
  (List.range (min count 256)).map fun i =>
    match nodePage s c (tableAt e) i with
    | .ok p => leNat ((p.1.drop 8).take 4) * (32 * recsz p)
    | .error _ => 0
/-- The lowest base, a multiple of 64 KiB from `lo` up, at which `n` bytes lie below `hi` and beside some ranges. -/
def LowestBase (lo hi : Nat) (used : List Range) (n b : Nat) : Prop :=
  let fits := fun (b : Nat) => b % 65536 = 0 ∧ lo ≤ b ∧ b + n ≤ hi ∧ ∀ r ∈ used, ¬(r.base < b + n ∧ b < r.base + r.size)
  fits b ∧ ∀ d, fits d → b ≤ d
/-- Queues placed one after another, each at its lowest base (R449). -/
def Placed (lo hi : Nat) : List Range → List Nat → List Nat → Prop
  | _, [], [] => True
  | used, n :: t, b :: bs => LowestBase lo hi used n b ∧ Placed lo hi ({ base := b, size := n } :: used) t bs
  | _, _, _ => False
/-- The queues of an entry's launch lie at `bs` in the part of the context's queue memory that its children leave, beside the
ranges `used` (R449). -/
def QueuesAt (s : State) (c : Nat) (e : List Byte) (used : List Range) (bs : List Nat) : Prop :=
  ∃ h, s.globReadRun c (tableAt e) 16 = .ok h ∧
    Placed (s.ctx c).qbase ((s.ctx c).qbase + ((s.ctx c).qmem - children s c (·.qmem))) used
      (queueSizes s c e (leNat ((h.drop 4).take 2))) bs
/-- The queues of the context's running launches. -/
def runningQueues (s : State) (c : Nat) : List Range :=
  (s.launches.vals.filter fun l => l.ctx == c && !l.ended).flatMap fun l =>
    l.nodes.vals.map fun n => { base := n.base, size := n.cap * (32 * n.ep.recsz) }
/-- The root record as it is written into its slot: its 32 bytes, then zeros (R438). -/
def rootParts (s : State) (c : Nat) (e : List Byte) (bs : List Nat) : List (Nat × List Byte) :=
  match nodePage s c (tableAt e) (rootOf e) with
  | .ok p => (List.range (recsz p)).map fun i =>
      (bs.getD (rootOf e) 0 + 32 * i, if i = 0 then e.drop 0x20 else List.replicate 32 0)
  | .error _ => []
/-- Launch `l` is the launch of an entry in a context: its number among the context's, its completion word, its queues. -/
def StartedLaunch (t : State) (l c : Nat) (e : List Byte) (seq : Nat) (bs : List Nat) : Prop :=
  (t.launch l).ctx = c ∧ (t.launch l).seq = seq % 2 ^ 24 ∧ (t.launch l).completion = leNat ((e.drop 8).take 8) ∧
    (t.launch l).vector = BitVec.ofNat 32 (leNat ((e.drop 0x10).take 4)) ∧ t.nextLaunch = l + 1 ∧
    ∀ i, i < bs.length → (t.node l i).base = bs.getD i 0

/-- What the grant changes: the child's holdings, and the issuer's binding entries. -/
def Granted (s t : State) (c d w : Nat) : Prop :=
  let x := s.ctx d
  let y := t.ctx d
  let cl := gfield w 48 7
  let n := gfield w 0 9
  match gfield w 60 4 with
  | 0 => ∀ k, t.granted d k = true ↔ k ∈ namedCores w ∨ s.granted d k = true
  | 1 => y.windows = x.windows ++ [namedWindow w]
  | 2 => y.qmem = x.qmem + gfield w 0 32 * 65536
  | 3 => y.bindCount = x.bindCount + n ∧ (t.ctx c).bindCount = (s.ctx c).bindCount - n
  | 4 => y.energy.getD cl 0 = x.energy.getD cl 0 + gfield w 0 16 ∧ y.ipeak.getD cl 0 = x.ipeak.getD cl 0 + gfield w 16 16
  | _ => y.share = x.share + n

/-- What a take of a kind from 1 to 5 changes: the child's holdings, and the issuer's binding entries (R232, R448). -/
def Withdrawn (s t : State) (c d w : Nat) : Prop :=
  let x := s.ctx d
  let y := t.ctx d
  let cl := gfield w 48 7
  let n := gfield w 0 9
  match gfield w 60 4 with
  | 1 => y.windows = x.windows.erase (namedWindow w)
  | 2 => y.qmem = x.qmem - gfield w 0 32 * 65536
  | 3 => y.bindCount = x.bindCount - n ∧ (t.ctx c).bindCount = (s.ctx c).bindCount + n
  | 4 => y.energy.getD cl 0 = x.energy.getD cl 0 - gfield w 0 16 ∧ y.ipeak.getD cl 0 = x.ipeak.getD cl 0 - gfield w 16 16
  | _ => y.share = x.share - n

/-- The word of CTXSTAT (R233). -/
def statWord (s : State) (c sel : Nat) : DWord :=
  let x := s.ctx c
  match sel with
  | 0 => BitVec.ofNat 64 ((if s.liveWork c then 1 else 0) + (if ∃ p ∈ x.cores, s.holdsTurn c p.1 = true then 2 else 0) + (if x.hung then 4 else 0) +
      2 ^ 8 * ((s.children c).length % 256))
  | 1 => BitVec.ofNat 64 x.spills
  | 2 => BitVec.ofNat 64 x.overruns
  | 3 => x.shortfall
  | 4 => BitVec.ofNat 64 (x.abandoned + ((s.launches.vals.filter fun l => l.ctx == c && !l.ended).map fun l =>
      (l.nodes.vals.map (·.abandoned)).foldr (· + ·) 0).foldr (· + ·) 0)
  | _ => BitVec.ofNat 64 (s.openTickets c)
/-- The context that the ID in a scalar names: the issuer, or a child. -/
def named (s : State) (id : Nat) : Option Nat :=
  if id = 0xFFFF then some s.g.ctx else if s.childOf s.g.ctx id then some id else none
end Sys2Proof.Claims

/-- R229, R389, R391, R392, R448: CTXGRANT, whichever of its rows its word is read as, gives a child what the issuer holds unused
and answers OK; more is answered QUOTA, another context NOT_CHILD, and then nothing changes. A word that R391 does not admit is
refused with code 0x60. ROOT starts the launch of its entry; RESUME gives a verdict on a ticket of the issuer's ring.

The model's choice: a ROOT for a context that is no child answers NOT_CHILD, and its entry is not read (log 58). -/
def Obligations.ContextGrants : Prop :=
  ∀ (d a b : Nat) (i : Instr) (s : State), Claims.grants d a b i → d < 32 → a < 32 → b < 32 →
    Ready s 4 [{ field := 0, kind := .s, reg := d, dst := true }, { field := 1, kind := .s, reg := a },
      { field := 2, kind := .s, reg := b }] none → Issues s →
    let c := s.g.ctx
    let w := (s.sreg b).toNat
    let kind := Claims.gfield w 60 4
    let child := (s.sreg a).toNat % 2 ^ 16
    (¬Claims.legal w → Claims.Refused s i 0x60 2 b) ∧
    (Claims.legal w →
      (kind ≠ 7 → s.childOf c child = false → Claims.Answered s i d 4 fun t => t.ctxs = s.ctxs) ∧
      (kind < 6 → s.childOf c child = true → child ≠ c →
        (¬Claims.unused s c child w → Claims.Answered s i d 5 fun t => t.ctxs = s.ctxs) ∧
        (Claims.unused s c child w → Claims.Answered s i d 0 fun t => Claims.Granted s t c child w)) ∧
      (kind = 6 → s.childOf c child = true → ∀ s1 e, s.loadRun (w % 2 ^ 48) 64 = (s1, .ok e) →
        let none' := fun (code : Nat) => Claims.Answered s i d code fun t => t.launches = s.launches
        (Claims.EntryBad s1 child e → none' 7) ∧ (∀ f, Claims.EntryFaults s1 child e f → none' 7) ∧
        (¬Claims.EntryBad s1 child e → (∀ f, ¬Claims.EntryFaults s1 child e f) → (s.ctx child).qbase % 65536 = 0 →
          ((∀ bs, ¬Claims.QueuesAt s1 child e [] bs) → none' 5) ∧
          ((∀ bs, ¬Claims.QueuesAt s1 child e (Claims.runningQueues s child) bs) → none' 5) ∧
          ∀ b0 bs, Claims.QueuesAt s1 child e [] b0 → Claims.QueuesAt s1 child e (Claims.runningQueues s child) bs →
            (∀ f, s1.globWrites child (Claims.rootParts s1 child e bs) = .error f → none' 7) ∧
            ∀ s2, s1.globWrites child (Claims.rootParts s1 child e bs) = .ok s2 → Claims.Answered s i d 0 fun t =>
              (t.ctx child).roots = (s.ctx child).roots + 1 ∧
                Claims.StartedLaunch t s.nextLaunch child e (s.ctx child).roots bs)) ∧
      (kind = 7 → ∀ tk, s.ticketWave (w % 2 ^ 32) = some tk → tk.wave ≠ s.cur → tk.frontEnd = false → tk.ring = c →
        (s.group (s.wave tk.wave).group).phase = .resident → (s.group (s.wave tk.wave).group).forced = none →
        (s.wave tk.wave).group ≠ s.w.group → (∀ k ∈ s.wavesOf (s.wave tk.wave).group, (s.wave k).group = (s.wave tk.wave).group) →
        Claims.Answered s i d 0 fun t =>
          t.ticketWave (w % 2 ^ 32) = none ∧
          (Claims.gfield w 32 2 = 0 → (t.wave tk.wave).phase = .run ∧ (t.wave tk.wave).duct = (s.wave tk.wave).duct) ∧
          (Claims.gfield w 32 2 = 1 → (t.wave tk.wave).phase = .run ∧ ∀ l, l < 32 → lane (t.wave tk.wave).duct l =
            if (lane (s.wave tk.wave).duct l).toNat = tk.tepc ∧ bit (s.wave tk.wave).eligible l = true then
              BitVec.ofNat 32 (tk.tepc + tk.skip)
            else lane (s.wave tk.wave).duct l) ∧
          (Claims.gfield w 32 2 = 2 → ∀ k ∈ s.wavesOf (s.wave tk.wave).group, (t.wave k).phase = .ended)) ∧
      (kind = 7 → (∀ tk, s.ticketWave (w % 2 ^ 32) = some tk → tk.frontEnd = true ∨ tk.ring ≠ c) →
        Claims.Answered s i d 6 fun t => t.tickets = s.tickets))

/-- R232, R389, R393, R448: CTXTAKE, whichever of its rows its word is read as, and CTXFREE wait for a free handle. Another
context than a child makes it full with NOT_CHILD, a take of more than the child holds with QUOTA. A take of cores, and a CTXFREE,
first ask the child's groups to stop; the other kinds are withdrawn at once. Memory and queue memory, and a freed tree, complete
one lease horizon later; the handle is then full with OK, and a freed tree is erased. -/
def Obligations.ContextRevocations : Prop :=
  (∀ (h a b : Nat) (i : Instr) (s : State), (Claims.takes h a b i ∧ b < 32 ∨ i = .ctxfree h a) → h < 64 → a < 32 →
    Ready s 4 (if i = .ctxfree h a then Claims.scalar1 a else Claims.scalars a b) none → Issues s →
    let g := s.w.group
    let c := s.g.ctx
    let w := (s.sreg b).toNat
    let kind := Claims.gfield w 60 4
    let child := (s.sreg a).toNat % 2 ^ 16
    let due := s.now + 2000 * leaseHorizon s c
    (i ≠ .ctxfree h a → (¬Claims.legal w ∨ 6 ≤ kind) → Claims.Refused s i 0x60 2 b) ∧
    ((i ≠ .ctxfree h a → Claims.legal w ∧ kind < 6) → (Claims.handle s h).poison = none →
      (s.canBind g h = false → ∃ t, exec i s = .next t ∧ Waits s t) ∧
      (s.canBind g h = true → s.w.storeQ = [] →
        (s.childOf c child = false → Claims.Taken s i fun t => Claims.Full t g h 1 4) ∧
        (s.childOf c child = true → c ∉ s.descendants child → child ≠ c → 0 < leaseHorizon s c →
          (i ≠ .ctxfree h a → ¬Claims.covered s c child w → Claims.Taken s i fun t => Claims.Full t g h 1 5) ∧
          (i ≠ .ctxfree h a → Claims.covered s c child w → kind = 0 → Claims.namedCores w ≠ [] → Claims.Taken s i fun t =>
            (t.handle g h).st.state = 1 ∧ Claims.Due t (.revocationComplete g h) ∧
            ∀ k ∈ Claims.namedCores w, ∀ x ∈ s.stillOn child k false, (s.group x).phase = .resident →
              (t.group x).stopReq ≠ none) ∧
          (i ≠ .ctxfree h a → Claims.covered s c child w → kind ≠ 0 → Claims.Taken s i fun t =>
            Claims.Withdrawn s t c child w ∧
            if kind < 3 then (t.handle g h).st.state = 1 ∧ (due, .revocationComplete g h) ∈ t.agenda
            else Claims.Full t g h 0 0) ∧
          (i = .ctxfree h a → s.cur / 16 = g → s.groups.keys.Nodup → Claims.Taken s i fun t => (t.handle g h).st.state = 1 ∧ Claims.Due t (.revocationComplete g h) ∧
            ∀ d ∈ s.descendants child, (t.ctx d).freeing = true))))) ∧
  ∀ (c g h : Nat) (r : Revoke) (s : State), r.group = g → r.handle = h → (∃ p ∈ s.ctxs.rows, p.1 = c ∧ r ∈ p.2.revokes) →
    (∀ p ∈ s.ctxs.rows, ∀ q ∈ p.2.revokes, q.group = g → q.handle = h → p.1 = c ∧ q = r) → c ∉ s.descendants r.child →
    r.child ≠ c →
    ∃ t, exec (.revocationComplete g h) s = .next t ∧
      (∀ d, r.due = some d → s.now < d → t.ctxs = s.ctxs ∧ Claims.Due t (.revocationComplete g h)) ∧
      (∀ d, r.due = some d → d ≤ s.now → Claims.Full t g h 0 0 ∧ r ∉ (t.ctx c).revokes ∧
        (r.kind = none → ∀ e ∈ s.descendants r.child, t.ctxs.get? e = none)) ∧
      (r.due = none → s.revokeStopped r = false → t.ctxs = s.ctxs ∧ Claims.Due t (.revocationComplete g h)) ∧
      (r.due = none → s.revokeStopped r = true → r.kind = some 0 → Claims.gfield r.word.toNat 60 4 = 0 →
        0 < leaseHorizon s c → (∀ k, t.granted r.child k = true ↔ s.granted r.child k = true ∧ k ∉ r.cores) ∧
          (s.now + 2000 * leaseHorizon s c, .revocationComplete g h) ∈ t.agenda)

/-- R227, R228, R390: CTXNEW takes the first fault of the loads of its descriptor; else it reads it and creates a child one
level down, under a free ID from 16 on; the child has the descriptor's fields, and holds no cores, windows, queue memory,
binding entries or shares. At depth 8, without a free ID, or with a bad descriptor no child is created, and the status says why.
R233, R394: CTXSTAT reads the word of its select for the issuer or a child, and all ones for another ID; reading select 3
re-arms the shortfall event. The selects from 6 on are refused with code 0x5F.

The model's choices: code 0x5F comes with field 2 and the select as register (log 27), and the count of open tickets takes those
whose entries are in the ring (log 62). -/
def Obligations.ContextsAreCreated : Prop :=
  (∀ (d a : Nat) (s : State), (Instr.ctxnew d a).wellFormed = true → Ready s 4 (Claims.opsDA d a) none → IssuesPlainly s →
     let addr := (s.sreg a).toNat
     let k := if addr % 8 = 0 then 8 else 1
     let u := (locateAll { stack := false, s := false, a := false, c := false } {} k s ((List.range (128 / k)).map fun j =>
       { lane := 0, lanes := 0, addr := (addr + k * j) % 2 ^ 64 })).2
     ∀ pre y post f, u = pre ++ y :: post → Claims.allOk pre → y.2 = .error f →
       ∃ t, exec (.ctxnew d a) s = .next t ∧ SameMemory s t s.g.core ∧
         (∀ id ∈ t.ctxs.keys, id ∈ s.ctxs.keys ∨ id = s.g.ctx) ∧ Claims.Takes s t (Claims.faultOf f {} 0)) ∧
  (∀ (d a : Nat) (s s1 : State) (b : List Byte), (Instr.ctxnew d a).wellFormed = true → Ready s 4 (Claims.opsDA d a) none →
     Issues s → s.loadRun (s.sreg a).toNat 128 = (s1, .ok b) →
     let c := s.g.ctx
     let x := s.ctx c
     let field := fun (o lo n : Nat) => Claims.gfield (leNat ((b.drop o).take 8)) lo n
     (8 ≤ x.depth → Claims.Answered s (.ctxnew d a) d 1 fun t => t.ctxs = s1.ctxs) ∧
     (x.depth < 8 → (∀ id, 16 ≤ id → id ≤ 0xFFFE → (s.ctxs.get? id).isSome = true) →
       Claims.Answered s (.ctxnew d a) d 2 fun t => t.ctxs = s1.ctxs) ∧
     ∀ id, 16 ≤ id → id ≤ 0xFFFE → s.ctxs.get? id = none → x.depth < 8 →
       (Claims.badDescriptor b (some x.wdog) → Claims.Answered s (.ctxnew d a) d 3 fun t => t.ctxs = s1.ctxs) ∧
       (¬Claims.badDescriptor b (some x.wdog) → ∃ i, 16 ≤ i ∧ i ≤ id ∧ s.ctxs.get? i = none ∧
         Claims.Answered s (.ctxnew d a) d (2 ^ 16 * i) fun t =>
           let y := t.ctx i
           t.ctxs = s1.ctxs.set i y ∧ y.parent = some c ∧ y.depth = x.depth + 1 ∧ y.cores = [] ∧ y.windows = [] ∧ y.qmem = 0 ∧
             y.bindCount = 0 ∧ y.share = 0 ∧ y.energy = ⟨[]⟩ ∧ y.root = 4096 * field 0x00 12 38 ∧
             y.stackBase = 65536 * field 0x08 16 32 ∧ y.stkSlots = field 0x10 0 14 ∧ y.saveBase = field 0x20 0 48 ∧
             y.fltBase = field 0x28 0 48 ∧ y.qbase = field 0x30 0 48 ∧ y.saveSlots = field 0x38 16 16 ∧
             (y.fltEn = true ↔ field 0x38 12 1 = 1) ∧ (field 0x10 32 10 ≠ 0 → y.lease = field 0x10 32 10) ∧
             (y.wdog = if field 0x38 32 32 = 0 then min 500 x.wdog else field 0x38 32 32) ∧
             (y.slice = if field 0x40 32 32 = 0 then 1000 else field 0x40 32 32))) ∧
  (∀ (d a n : Nat) (s : State), (Instr.ctxstat d a n).wellFormed = true → Ready s 4 (Claims.opsDA d a) none → Issues s →
     let id := (s.sreg a).toNat % 2 ^ 16
     (6 ≤ n → Claims.Refused s (.ctxstat d a n) 0x5F 2 n) ∧
     (n < 6 → ∃ t, exec (.ctxstat d a n) s = .next t ∧ Done s t [] [d] [] false ∧
       match Claims.named s id with
       | none => t.w.sreg d = BitVec.allOnes 64 ∧ t.ctxs = s.ctxs
       | some c => t.w.sreg d = Claims.statWord s c n ∧ (n ≠ 3 → t.ctxs = s.ctxs) ∧
           (n = 3 → t.ctxs = s.ctxs.set c { s.ctx c with shortArmed := true })))

namespace Sys2Proof.Claims

/-! ### Special registers and traps -/

/-- A special register that CSRR reads (R398). -/
def special (s : State) (n : Nat) : Option DWord :=
  let c := s.ctx s.g.ctx
  match n with
  | 0x00 => some (if s.g.ep.gen < 3 then 0 else s.w.jord)
  | 0x01 => some s.w.jsr
  | 0x02 => some s.w.fpctl
  | 0x03 => some s.w.ppoint
  | 0x08 => some s.w.tvec
  | 0x09 => some s.w.tcause
  | 0x0A => some s.w.tepc
  | 0x0B => some s.w.taddr
  | 0x0C => some s.w.tinfo
  | 0x10 => some (BitVec.ofNat 64 s.g.ctx)
  | 0x11 => some (BitVec.ofNat 64 c.depth)
  | 0x12 => some (BitVec.ofNat 64 c.lease)
  | 0x14 => some (BitVec.ofNat 64 s.g.gid)
  | 0x15 => some (BitVec.ofNat 64 s.w.wid)
  | 0x16 => some (BitVec.ofNat 64 s.g.node)
  | n => if 0x20 ≤ n ∧ n < 0x30 then some (c.pmc.getD (n - 0x20) 0) else none
/-- What a write of `x` to a register must meet (R70, R168, R235, R314, R315). -/
def accepts (s : State) (n : Nat) (x : DWord) : Prop :=
  match n with
  | 0x00 => 3 ≤ s.g.ep.gen ∧ x.toNat < 8
  | 0x01 => ∀ i, i < 64 → x.getLsbD i = true → i % 8 < 5
  | 0x02 => x.toNat / 512 = 0 ∧ x.getLsbD 3 = false
  | 0x03 => x.toNat < 2 ^ 18 ∧ x.getLsbD 17 = s.w.ppoint.getLsbD 17 ∧ 256 ≤ x.toNat % 2 ^ 17 ∧ x.toNat % 2 ^ 17 ≤ 65536
  | 0x08 => x.toNat < 2 ^ 33 ∧ x.getLsbD 32 = s.w.tvec.getLsbD 32 ∧ x.getLsbD 0 = false
  | 0x12 => 1 ≤ x.toNat ∧ x.toNat < 1024
  | n => 0x20 ≤ n ∧ n < 0x30
/-- The registers that hold values are as they were. -/
def SameValues (s t : State) : Prop :=
  ∀ r, t.w.vreg r = s.w.vreg r ∧ t.w.isEmpty r = s.w.isEmpty r ∧ t.w.sreg r = s.w.sreg r ∧ t.w.mreg r = s.w.mreg r
/-- An element that CSRW DX may not write in lane `l` (R166). -/
def badPc (s : State) (x : Lanes) (l : Nat) : Prop :=
  ((lane x l).toNat % 2 = 1 ∧ lane x l ≠ 0xFFFFFFFF) ∨ (lane s.w.dx l = 0xFFFFFFFF ∧ lane x l ≠ 0xFFFFFFFF)
/-- The operands of a binary lane instruction. -/
def lane2 (d a b : Nat) : List Opnd := opsBin d a b
/-- The PIN_VIOLATION of a vector register: the lowest entry that pins it (R189, R195). -/
def pinInfo (s : State) (r : Nat) : Nat := r + 2 ^ 8 * lowestEntry (s.w.recipes.filter fun x => x.vins.contains r)
end Sys2Proof.Claims

/-- R397 to R399, R26, R70, R168, R235, R252, R314, R315: CSRR reads a special register and PMCR a performance count. CSRW writes
a register that its rules let it write, which then reads as the value written, and no other; another write is refused with code
0x63 and the number of the register. R166, R237: CSRR DX reads every lane of the interrupted Ductus. CSRW DX sets the active
lanes' PCs of the interrupted Ductus: outside handler mode in place of the next offset. It is refused with code 0x63, and changes
nothing, if an active lane would get an odd PC other than all ones, or a retired lane a PC.

The model's choice: that refusal names the lowest lane it concerns in TINFO[28:24], as R401 asks of the checks that it lists
(log 67). -/
def Obligations.SpecialRegisterAccess : Prop :=
  ((∀ (d n : Nat) (s : State) (x : DWord), (Instr.csrr d n).wellFormed = true →
     Ready s 4 [{ field := 0, kind := .s, reg := d, dst := true }] none → Issues s → Claims.special s n = some x →
     ∃ t, exec (.csrr d n) s = .next t ∧ Executed s t 4 [] [d] [] false ∧ t.w.sreg d = x) ∧
   (∀ (n a : Nat) (s : State), (Instr.csrw n a).wellFormed = true → Ready s 4 [{ field := 1, kind := .s, reg := a }] none →
     Issues s →
     (Claims.accepts s n (s.sreg a) → ∃ t, exec (.csrw n a) s = .next t ∧ MovedOn s t 4 ∧ SameMemory s t s.g.core ∧
       Claims.SameValues s t ∧ Claims.special t n = some (s.sreg a) ∧ ∀ m, m ≠ n → Claims.special t m = Claims.special s m) ∧
     (¬Claims.accepts s n (s.sreg a) → Claims.Refused s (.csrw n a) 0x63 0 n)) ∧
   ∀ (d n : Nat) (s : State), (Instr.pmcr d n).wellFormed = true →
     Ready s 4 [{ field := 0, kind := .s, reg := d, dst := true }] none → Issues s →
     ∃ t, exec (.pmcr d n) s = .next t ∧ Executed s t 4 [] [d] [] false ∧
       t.w.sreg d = BitVec.ofNat 64 (((s.ctx s.g.ctx).pmc.getD n 0).toNat % 2 ^ 56)) ∧
  ((∀ (d : Nat) (s : State), d < 128 → Ready s 4 [{ field := 0, kind := .v, reg := d, dst := true }] none → Issues s →
     ∃ t p, exec (.csrrDx d) s = .next t ∧ Done s t [d] [] [] false ∧ t.w.isEmpty d = true ∧
       t.w.pending = s.w.pending ++ [p] ∧ p.vregs = [(d, s.w.dx)] ∧ p.lanes = 0xFFFFFFFF ∧
       Claims.Due t (.loadResultReturn s.cur p.tag)) ∧
   ∀ (a : Nat) (s : State), a < 128 → Ready s 4 [{ field := 1, kind := .v, reg := a, src := some 0 }] none → IssuesPlainly s →
     let x := s.vaReg a
     ((∀ l, bit s.w.active l = true → ¬Claims.badPc s x l) →
       (s.w.handler = false → ∃ t, exec (.csrwDx a) s = .next t ∧ Claims.SameValues s t ∧ SameMemory s t s.g.core ∧
         ∀ l, l < 32 → lane t.w.dx l =
           if bit s.w.active l then lane x l else if bit s.w.here l then s.w.nextPc 4 else lane s.w.dx l) ∧
       (s.w.handler = true → ∃ t, exec (.csrwDx a) s = .next t ∧ Done s t [] [] [] false ∧
         ∀ l, l < 32 → lane t.w.dx l = if bit s.w.active l then lane x l else lane s.w.dx l)) ∧
     (s.toHandler s.cur { cause := 0x02 } = true → ∀ l, l < 32 → bit s.w.active l = true → Claims.badPc s x l →
       (∀ j, j < l → bit s.w.active j = true → ¬Claims.badPc s x j) →
       ∃ t, exec (.csrwDx a) s = .next t ∧ SameMemory s t s.g.core ∧ EnteredHandler s t s.cur s.w.ipc
         { cause := 0x02, info := BitVec.ofNat 64 (0x63 + 2 ^ 16 * 4 + 2 ^ 24 * l) }))

/-- R236 to R239, R395: TRAP outside handler mode enters the handler, if the group has one that takes USER, with its lanes already
at the next instruction; else, in handler mode too, it is reflected to the ring of the parent. R274: a word that is no instruction
raises ILLEGAL_INSTR with that word, and a failed fetch its fault; they are reflected likewise. R237, R246, R396: TRET ends
handler mode: the handler Ductus is discarded and the interrupted one, with every register, stays as it is. PREDONE, in handler
mode entered by PREEMPT and with an index of the liveness table, parks the wave with that entry and moves on. Outside handler mode
both are refused; in handler mode that PREEMPT did not enter, or with another index, PREDONE is refused, and reflected.

The model's choices: the handler Ductus reads as all ones when it is discarded (log 8); a reflected TRAP leaves its lanes at the
TRAP (log 15); a failed fetch names the lowest lane that issues (log 56); PREDONE outside its mode is refused with field 7 and
register 0 (log 73). -/
def Obligations.TrapsAndReturns : Prop :=
  (∀ (s : State), IssuesPlainly s →
     (∀ n, n < 2 ^ 18 → Ready s 4 [] none →
       let x : Trap := { cause := 0x0D, info := BitVec.ofNat 64 n }
       (s.toHandler s.cur x = true → ∃ t, exec (.trap n) s = .next t ∧ t.w.handler = true ∧ t.w.tcause = 0x0D ∧
         t.w.tepc = BitVec.ofNat 64 s.w.ipc ∧ t.w.taddr = 0 ∧ t.w.tinfo = x.info ∧ t.w.file = s.w.file ∧
         SameMemory s t s.g.core ∧
         ∀ l, l < 32 → lane t.w.hdx l = s.w.tvec.setWidth 32 ∧
           lane t.w.dx l = if bit s.w.here l then s.w.nextPc 4 else lane s.w.dx l) ∧
       (s.toHandler s.cur x = false → ∃ t, exec (.trap n) s = .next t ∧ Claims.Reflected s t x)) ∧
     (∀ info,
       let x : Trap := { cause := 0x01, info := info }
       (s.toHandler s.cur x = true → ∃ t, exec (.illegalInstr info) s = .next t ∧ SameMemory s t s.g.core ∧
         EnteredHandler s t s.cur s.w.ipc x) ∧
       (s.toHandler s.cur x = false → ∃ t, exec (.illegalInstr info) s = .next t ∧ Claims.Reflected s t x)) ∧
     ∀ f,
       let x := memTrap f { fetch := true } ((lowestLane s.w.here).getD 0)
       (s.toHandler s.cur x = true → ∃ t, exec (.fetchFault f) s = .next t ∧ EnteredHandler s t s.cur s.w.ipc x) ∧
       (s.toHandler s.cur x = false → (∀ o, f.owner = some o → o = s.g.ctx) → ∃ t, exec (.fetchFault f) s = .next t ∧
         Claims.Reflected s t x)) ∧
  (∀ (s : State), IssuesPlainly s →
     (Ready s 4 [] none →
       (s.w.handler = true → ∃ t, exec .tret s = .next t ∧ t.w.handler = false ∧ t.w.dx = s.w.dx ∧ t.w.file = s.w.file ∧
         SameMemory s t s.g.core ∧ ∀ l, l < 32 → lane t.w.hdx l = 0xFFFFFFFF) ∧
       (s.w.handler = false → Claims.Refused s .tret 0x61 7 0)) ∧
     ∀ a, a < 32 → Ready s 4 (Claims.scalar1 a) none →
       let i := (s.sreg a).toNat
       let n := (s.node s.g.launch s.g.node).live.length
       (s.w.handler = true → s.w.preempted = true → i < 65536 → i < n →
         ∃ t, exec (.predone a) s = .next t ∧ Done s t [] [] [] false ∧ t.w.phase = .predone i) ∧
       (s.w.handler = false → Claims.Refused s (.predone a) 0x62 7 0) ∧
       (s.w.handler = true → s.w.preempted = false →
         ∃ t, exec (.predone a) s = .next t ∧
           Claims.Reflected s t { cause := 0x02, info := BitVec.ofNat 64 (0x62 + 2 ^ 8 * 7) }) ∧
       (s.w.handler = true → s.w.preempted = true → 65536 ≤ i ∨ n ≤ i →
         ∃ t, exec (.predone a) s = .next t ∧
           Claims.Reflected s t { cause := 0x02, info := BitVec.ofNat 64 (0x62 + 2 ^ 8 + 2 ^ 16 * a) }))

/-- R177, R178, R189, R195, R273, R275, R281, R282, said of IADD: before its effect stand a register that the wave does not hold
(code 0x01, of the first such field), a pinned destination (PIN_VIOLATION), and an empty source, at which the wave waits, or traps
with EMPTY_READ where its prefix says so.

The model's choice: the pin check stands after the operand checks and before an empty source (log 16). -/
def Obligations.WhatStandsBeforeAnEffect : Prop :=
  ∀ (d a b : Nat) (s : State), d < 128 → a < 128 → b < 128 → IssuesPlainly s →
    let n := 8 * s.w.granules
    let pins := fun r => s.w.recipes.any fun x => x.vins.contains r
    (s.toHandler s.cur { cause := 0x02 } = true → ∀ f r, ((f, r) = (0, d) ∨ d < n ∧ (f, r) = (1, a) ∨ d < n ∧ a < n ∧ (f, r) = (2, b)) →
      n ≤ r → ∃ t, exec (.iadd d a b) s = .next t ∧ SameMemory s t s.g.core ∧ EnteredHandler s t s.cur s.w.ipc
        { cause := 0x02, info := BitVec.ofNat 64 (0x01 + 2 ^ 8 * f + 2 ^ 16 * r) }) ∧
    (d < n → a < n → b < n → s.w.pre = none → pins d = true → s.toHandler s.cur { cause := 0x06 } = true →
      ∃ t, exec (.iadd d a b) s = .next t ∧ SameMemory s t s.g.core ∧ EnteredHandler s t s.cur s.w.ipc
        { cause := 0x06, info := BitVec.ofNat 64 (Claims.pinInfo s d) }) ∧
    (d < n → a < n → b < n → s.w.pre = none → pins d = false → (∀ x ∈ s.w.recipes, x.demoted = false) →
      s.w.deferred.rows = [] → s.w.bad.rows = [] → (s.w.isEmpty a = true ∨ s.w.isEmpty b = true) →
      ∃ t, exec (.iadd d a b) s = .next t ∧ Waits s t) ∧
    (d < n → a < n → b < n → ∀ x, s.w.pre = some x → s.w.mbusy.getLsbD x.pm = false → pins d = false → x.ea = true →
      (∀ y ∈ s.w.recipes, y.demoted = false) → s.w.deferred.rows = [] → s.w.isEmpty a = true →
      s.toHandler s.cur { cause := 0x05 } = true →
      ∃ t, exec (.iadd d a b) s = .next t ∧ SameMemory s t s.g.core ∧ EnteredHandler s t s.cur s.w.ipc
        { cause := 0x05, info := BitVec.ofNat 64 a })

/-- R266 to R269, R274: an XMOD issues as a pair with the instruction after it, fetched with it: that instruction then executes
under the prefix. A pair that is none raises ILLEGAL_INSTR with both words, XMOD in the low 32 bits, at the XMOD. -/
def Obligations.PrefixPairs : Prop :=
  ∀ (x : Xmod) (s s1 : State) (b : List Byte), (Instr.xmod x).wellFormed = true → IssuesPlainly s →
    s.fetchBytes s.w.group (s.w.ipc + 4) = (s1, .ok b) →
    (∀ j n, decode s.g.ep.gen b = some (j, n) → x.pairs j = true →
      ∃ t, exec (.xmod x) s = .next t ∧ t.w.pre = some x ∧ t.w.dx = s.w.dx ∧ t.w.hdx = s.w.hdx ∧ t.w.file = s.w.file ∧
        SameMemory s t s.g.core) ∧
    ((∀ j n, decode s.g.ep.gen b = some (j, n) → x.pairs j = false) →
      s.toHandler s.cur { cause := 0x01 } = true →
      ∃ t, exec (.xmod x) s = .next t ∧ SameMemory s t s.g.core ∧ EnteredHandler s t s.cur s.w.ipc
        { cause := 0x01, info := BitVec.ofNat 64 (leNat (encode (.xmod x)) + 2 ^ 32 * leNat b) })

namespace Sys2Proof.Claims

/-! ### Power -/

/-- The instructions whose words PWRREQ has (R209). -/
def powers (d a : Nat) (i : Instr) : Prop :=
  i = .pwrreqGate d a ∨ i = .pwrreqWake d a ∨ i = .pwrreqPoint d a ∨ i = .pwrreqMode d a ∨ i = .pwrreqHold d a ∨
    i = .pwrreqQuery d a
/-- The status word of a domain (R210). -/
def powerWord (s : State) (d code : Nat) : Nat :=
  let x := s.domain d
  let one := fun (b : Bool) (k : Nat) => if b then 2 ^ k else 0
  code + one (x.gatePending && s.domainResident d) 4 + one (x.gatePending && s.domainSpine d) 5 + x.point * 2 ^ 8 +
    one x.gated 16 + one x.auto 17 + x.underv * 2 ^ 20
/-- A request is answered with a code; `p` says what it changed, and the other domains stay. -/
def PowerAnswer (s : State) (i : Instr) (d dom code : Nat) (p : State → Prop) : Prop :=
  ∃ t, exec i s = .next t ∧ Done s t [] [d] [] false ∧ t.w.sreg d = BitVec.ofNat 64 (powerWord t dom code) ∧
    (∀ e, e ≠ dom → t.domain e = s.domain e) ∧ p t
/-- An argument in the ranges of its kind (R209). -/
def powerArg (kind a : Nat) : Prop :=
  match kind with
  | 2 => a % 2 ^ 5 ≤ 24 ∧ a / 2 ^ 8 % 2 ^ 4 ≤ 10 ∧ a / 2 ^ 5 % 2 ^ 3 = 0 ∧ a / 2 ^ 12 = 0
  | 3 => a / 2 ^ 8 % 2 ^ 5 ≤ a / 2 ^ 16 % 2 ^ 5 ∧ a / 2 ^ 16 % 2 ^ 5 ≤ 24 ∧ a / 2 % 2 ^ 7 = 0 ∧ a / 2 ^ 13 % 2 ^ 3 = 0 ∧
      a / 2 ^ 21 = 0
  | 4 => 1 ≤ a ∧ a ≤ 64
  | _ => a = 0
/-- The voltage of a point at an undervolt, in tenths of a millivolt: 0.55 V at index 0, 12.5 mV an index, 5 mV an undervolt
step (R212). -/
def volts (p n : Nat) : Nat := 5500 + 125 * p - 50 * n
/-- It is below the point's floor, which the largest guard band of the domain's clusters raises (R212). -/
def below (s : State) (dom p n : Nat) : Prop :=
  volts p n < 10 * (s.config.floors.getD p 0 + ((domainClusters dom).map fun c => (s.cluster c).guard).foldr max 0)
/-- Cycles of a slew at 10 mV per us, of 2,000 cycles each. -/
def slew (a b : Nat) : Nat := if a ≤ b then 20 * (b - a) else 20 * (a - b)
/-- A change to a point and an undervolt has begun (R213): a raise with the slew of its voltage, a lowering with the switch of
its frequency a microsecond later. Point and undervolt in force stay. -/
def Changing (s t : State) (dom p n : Nat) : Prop :=
  let x := s.domain dom
  let y := t.domain dom
  y.step = some (p, n) ∧ y.slewed = false ∧ y.switched = false ∧ y.point = x.point ∧ y.underv = x.underv ∧
    if x.point < p ∨ (x.point = p ∧ n < x.underv) then
      (s.now + slew (volts x.point x.underv) (volts p n), .voltageSlewComplete dom) ∈ t.agenda
    else (s.now + 2000, .frequencySwitch dom) ∈ t.agenda
/-- The energy budget of a cluster: the partition's that holds energy there, else the configuration block's (R204). -/
def budgetIs (s : State) (cl b : Nat) : Prop :=
  (∃ p ∈ s.ctxs.rows, p.2.depth = 1 ∧ p.2.energy.get? cl = some b ∧
      ∀ q ∈ s.ctxs.rows, q.2.depth = 1 → (q.2.energy.get? cl).isSome = true → q = p) ∨
    (b = s.config.budgetE ∧ ∀ q ∈ s.ctxs.rows, q.2.depth = 1 → q.2.energy.get? cl = none)
/-- The energy metered of a cluster's groups in the interval so far (R205). -/
def metered (s : State) (cl : Nat) : Nat :=
  ((s.groups.rows.filter fun p => p.2.phase.holds && p.2.core / 4 == cl).map fun p => Config.meteredEnergy p.1 s.now).foldr (· + ·) 0
/-- The bytes of an interval that a stack delivers in a thermal state (R220). -/
def delivers : Nat → Nat
  | 0 => 3276800
  | 1 => 3276800 * 92 / 100
  | _ => 3276800 * 60 / 100
/-- The thermal state after one of a temperature, with 3 degrees of hysteresis on the way down (R220). -/
def thermal (old temp : Nat) : Nat :=
  if 95 < temp then 2
  else if old = 2 ∧ 92 < temp then 2
  else if 85 < temp then 1
  else if old ≠ 0 ∧ 82 < temp then 1
  else 0
/-- The demand of a context on a stack in an interval, with what the last one left (R219). -/
def demand (s : State) (demands : List (Nat × Nat)) (stack c : Nat) : Nat :=
  ((demands.filter fun d => d.1 == c).map (·.2)).foldr (· + ·) 0 + (s.ctx c).carry.getD stack 0
/-- Bytes of an interval that delivers `base` in all are divided among parties, each with its share, what it wants and what of
that is left unserved: each is served its want up to its share, then up to `e` bytes more, the same for all; where some want is
left, fewer bytes remain than parties that want more (R219). -/
def Divided (base bytes : Nat) (l : List (Nat × Nat × Nat)) : Prop :=
  let given := (l.map fun p => p.2.1 - p.2.2).foldr (· + ·) 0
  ∃ e, (∀ p ∈ l, p.2.2 = p.2.1 - p.1 * base / 256 - e) ∧ given ≤ bytes ∧
    ((∃ p ∈ l, p.2.2 ≠ 0) → bytes < given + (l.filter fun p => p.2.2 != 0).length)
end Sys2Proof.Claims

/-- R65, R208 to R213, R215, R400: PWRREQ, whichever of its rows its word is read as, answers the domain's status word. Only the
owner's requests are performed, and only with an argument in range. GATE is granted at once where nothing is resident and no
Spine entry bound for the domain, else left pending; WAKE takes 10 us; POINT and MODE begin a change, or replace the target of
the one in progress; a voltage below the floor is denied, and while the thermal clamp holds a raise is performed up to the
clamped point.

The model's choices: WAKE withdraws a pending gate, and a GATE of a domain that is waking stays pending; POINT discards a MODE
that has not taken effect; of equal points the one of more voltage is the higher (log 63). -/
def Obligations.PowerRequests : Prop :=
  ∀ (d a : Nat) (i : Instr) (s : State), Claims.powers d a i → d < 32 → a < 32 → Ready s 4 (Claims.opsDA d a) none → Issues s →
    let w := (s.sreg a).toNat
    let dom := w % 8
    let kind := w / 2 ^ 8 % 8
    let arg := w / 2 ^ 32
    let x := s.domain dom
    let p := arg % 32
    let n := arg / 2 ^ 8 % 16
    let lo := arg / 2 ^ 8 % 32
    let hi := arg / 2 ^ 16 % 32
    let same := fun t : State => t.domain dom = x
    let answers := Claims.PowerAnswer s i d dom
    let illegal := w / 2 ^ 3 % 2 ^ 5 ≠ 0 ∨ w / 2 ^ 11 % 2 ^ 21 ≠ 0 ∨ 6 ≤ kind
    (illegal → Claims.Refused s i 0x64 1 a) ∧
    (¬illegal → s.domainOwner dom ≠ some s.g.ctx → answers 2 same) ∧
    (¬illegal → s.domainOwner dom = some s.g.ctx → ¬Claims.powerArg kind arg → answers 4 same) ∧
    (¬illegal → s.domainOwner dom = some s.g.ctx → Claims.powerArg kind arg →
      (kind = 0 →
        (x.gated = true → x.waking = false → answers 0 same) ∧
        (x.waking = true ∨ (x.gated = false ∧ (s.domainResident dom = true ∨ s.domainSpine dom = true)) →
          answers 1 fun t => t.domain dom = { x with gatePending := true }) ∧
        (x.gated = false → x.waking = false → s.domainResident dom = false → s.domainSpine dom = false →
          answers 0 fun t => t.domain dom = { x with gatePending := false, gated := true } ∧
            (∀ c ∈ domainClusters dom, (t.cluster c).gated = true) ∧ ∀ c ∈ domainCores dom, (t.core c).spine.entries = [])) ∧
      (kind = 1 →
        (x.gated = false → answers 0 fun t => t.domain dom = { x with gatePending := false }) ∧
        (x.gated = true → x.waking = true → answers 1 fun t => t.domain dom = { x with gatePending := false }) ∧
        (x.gated = true → x.waking = false → answers 1 fun t => t.domain dom = { x with waking := true } ∧
          (s.now + 20000, .domainWakeComplete dom) ∈ t.agenda)) ∧
      (kind = 2 → x.clamped = false ∨ p ≤ x.clampedPoint →
        (Claims.below s dom p n → answers 3 same) ∧
        (¬Claims.below s dom p n →
          (x.step = none → x.point = p → x.underv = n → answers 0 fun t => t.domain dom = { x with mode := none }) ∧
          (x.step = none → (x.point ≠ p ∨ x.underv ≠ n) → answers 1 fun t => Claims.Changing s t dom p n) ∧
          (x.step ≠ none → answers 1 fun t => t.domain dom = { x with mode := none, target := some (p, n) }))) ∧
      (kind = 2 → x.clamped = true → x.clampedPoint < p →
        let q := x.clampedPoint
        (Claims.below s dom p n ∨ Claims.below s dom q n → answers 3 same) ∧
        (¬Claims.below s dom p n → ¬Claims.below s dom q n →
          (x.step = none → x.point = q → x.underv = n → answers 5 fun t => t.domain dom = { x with mode := none }) ∧
          (x.step = none → (x.point ≠ q ∨ x.underv ≠ n) → answers 5 fun t => Claims.Changing s t dom q n) ∧
          (x.step ≠ none → answers 5 fun t => t.domain dom = { x with mode := none, target := some (q, n) }))) ∧
      (kind = 3 →
        let from' := x.step.getD (x.point, x.underv)
        let goal := if from'.1 < lo then lo else if hi < from'.1 then hi else from'.1
        let q := if x.clamped then min goal x.clampedPoint else goal
        let m := (decide (arg % 2 = 1), lo, hi)
        (goal ≠ from'.1 → Claims.below s dom goal from'.2 → answers 3 same) ∧
        (goal = from'.1 ∨ ¬Claims.below s dom goal from'.2 →
          (x.step = none → q = x.point → answers (if q = goal then 0 else 5) fun t =>
            t.domain dom = { x with auto := decide (arg % 2 = 1), lo := lo, hi := hi, mode := none }) ∧
          (x.step = none → q ≠ x.point → answers (if q = goal then 1 else 5) fun t =>
            Claims.Changing s t dom q x.underv ∧ (t.domain dom).mode = some m) ∧
          (x.step ≠ none → answers (if q = goal then 1 else 5) fun t =>
            t.domain dom = { x with mode := some m, target := some (q, from'.2) }))) ∧
      (kind = 4 → answers 0 fun t => t.domain dom = { x with hold := arg }) ∧
      (kind = 5 → (answers (if x.gatePending || x.waking || x.step.isSome then 1 else 0) same)))

/-- R65, R212 to R215: a pending gate is granted once its conditions hold; a woken domain starts with empty FIFOs and its
clusters' start events. A raise reaches its voltage and switches its frequency a microsecond later; a lowering switches its
frequency and slews down; then the step is over and the target that came meanwhile follows. The governor moves the point by one
index within its range and above the floor, by the share of the 20,000 cycles of 10 us that were stalled: 0.60 and more lower it,
0.25 and less raise it; the thermal clamp, which takes hold above 105 degrees and until 100, lowers it by one at each sample.

The model's choices: the point in force changes with the frequency and the undervolt with the voltage, and while the clamp holds
the governor raises nothing (log 63). -/
def Obligations.OperatingPoints : Prop :=
  ∀ (d : Nat) (s : State),
    let x := s.domain d
    (x.gatePending = true → x.gated = false → s.domainResident d = false → s.domainSpine d = false →
      ∃ t, exec (.gateGrant d) s = .next t ∧ t.domain d = { x with gatePending := false, gated := true } ∧
        (∀ c ∈ domainClusters d, (t.cluster c).gated = true) ∧ ∀ c ∈ domainCores d, (t.core c).spine.entries = []) ∧
    ((x.gatePending = false ∨ s.domainResident d = true ∨ s.domainSpine d = true) → exec (.gateGrant d) s = .next s) ∧
    (x.gated = true → x.waking = true → ∃ t, exec (.domainWakeComplete d) s = .next t ∧
      t.domain d = { x with gated := false, waking := false } ∧ (∀ c ∈ domainCores d, (t.core c).spine.entries = []) ∧
      t.starts = s.starts ++ (domainClusters d).map (fun c => { cluster := c }) ∧ Claims.Due t .startEventAdmission) ∧
    (∀ p n, x.step = some (p, n) →
      (x.slewed = false → x.switched = false →
        (∃ t, exec (.voltageSlewComplete d) s = .next t ∧ t.domain d = { x with slewed := true, underv := n } ∧
          (s.now + 2000, .frequencySwitch d) ∈ t.agenda) ∧
        ∃ t, exec (.frequencySwitch d) s = .next t ∧ t.domain d = { x with switched := true, point := p } ∧
          (s.now + Claims.slew (Claims.volts x.point x.underv) (Claims.volts p n), .voltageSlewComplete d) ∈ t.agenda) ∧
      (x.mode = none → x.target = none →
        (x.slewed = true → x.switched = false → ∃ t, exec (.frequencySwitch d) s = .next t ∧
          (t.domain d).step = none ∧ (t.domain d).point = p) ∧
        (x.slewed = false → x.switched = true → ∃ t, exec (.voltageSlewComplete d) s = .next t ∧
          (t.domain d).step = none ∧ (t.domain d).underv = n)) ∧
      (x.slewed = true → x.switched = false → ∀ q m, x.target = some (q, m) → (q ≠ p ∨ m ≠ x.underv) →
        ∃ t, exec (.frequencySwitch d) s = .next t ∧ (t.domain d).point = p ∧ (t.domain d).step = some (q, m) ∧
          (t.domain d).target = none)) ∧
    (∀ stalled,
      let still := exec (.governorSample d stalled) s = .next s
      let high := 60 * 20000 ≤ 100 * stalled
      let low := 100 * stalled ≤ 25 * 20000
      ((x.auto = false ∨ x.step ≠ none ∨ (¬high ∧ ¬low)) → still) ∧
      (x.auto = true → x.step = none → x.lo ≤ x.point → x.point ≤ x.hi →
        (high → x.point = x.lo → still) ∧
        (high → x.lo < x.point → Claims.below s d (x.point - 1) x.underv → still) ∧
        (high → x.lo < x.point → ¬Claims.below s d (x.point - 1) x.underv →
          ∃ t, exec (.governorSample d stalled) s = .next t ∧ Claims.Changing s t d (x.point - 1) x.underv) ∧
        (low → x.point = x.hi → still) ∧
        (low → x.point < x.hi → x.clamped = false → ¬Claims.below s d (x.point + 1) x.underv →
          ∃ t, exec (.governorSample d stalled) s = .next t ∧ Claims.Changing s t d (x.point + 1) x.underv))) ∧
    ∀ temp, ∃ t, exec (.thermalClampStep d temp) s = .next t ∧
      (105 < temp ∨ (100 < temp ∧ x.clamped = true) →
        (t.domain d).clamped = true ∧ (t.domain d).clampedPoint = (x.step.getD (x.point, x.underv)).1 - 1 ∧
        (x.step = none → x.target = none → 0 < x.point → Claims.Changing s t d (x.point - 1) x.underv) ∧
        ∀ p n, x.step = some (p, n) → 0 < p → (∀ q, x.target = some q → p - 1 < q.1) → (t.domain d).target = some (p - 1, n)) ∧
      (temp ≤ 100 ∨ (temp ≤ 105 ∧ x.clamped = false) → t = s.setDomain d { x with clamped := false })

/-- R204 to R206, R211, R216, R217: a cluster whose metered energy (an input, log 13) reaches its budget issues nothing until
the interval's end, where each group's run of overruns is counted: at 16 its context's overrun count rises, at 256 its next
barrier arrival is to fault. A droop halves the clock until its hold time has passed and a start event is admitted. A cluster's
clock is gated 64 cycles after it was last busy. Of the start events, in order, one is admitted at a time, and fewer than 8
within 100 ns. -/
def Obligations.ClustersAndStarts : Prop :=
  ∀ (cl : Nat) (s : State),
    let x := s.cluster cl
    (∀ b, Claims.budgetIs s cl b →
      (b ≤ Claims.metered s cl → ∃ t, exec (.energyBudgetExhausted cl) s = .next t ∧ (∀ k, t.wave k = s.wave k) ∧
        ∀ k, (s.group (s.wave k).group).core / 4 = cl → t.ready k = false) ∧
      (Claims.metered s cl < b → exec (.energyBudgetExhausted cl) s = .next s)) ∧
    (∀ metered, s.groups.keys.Nodup → ∃ t, exec (.controlIntervalBoundary cl metered) s = .next t ∧
      (t.cluster cl).stopped = false ∧ ∀ p ∈ s.groups.rows, p.2.phase.holds = true → p.2.core / 4 = cl →
        let used := ((metered.filter fun m => m.1 == p.1).map (·.2)).foldr (· + ·) 0
        (8 * used ≤ 9 * p.2.ep.energy → (t.group p.1).overruns = 0 ∧ (t.group p.1).admission = p.2.admission) ∧
        (9 * p.2.ep.energy < 8 * used → p.2.overruns + 1 ≠ 256 →
          (t.group p.1).overruns = p.2.overruns + 1 ∧ (t.group p.1).admission = p.2.admission) ∧
        (9 * p.2.ep.energy < 8 * used → p.2.overruns + 1 = 256 →
          (t.group p.1).overruns = 0 ∧ (t.group p.1).admission = true) ∧
        (9 * p.2.ep.energy < 8 * used → p.2.overruns = 15 → (s.ctx p.2.ctx).overruns < (t.ctx p.2.ctx).overruns)) ∧
    (∃ t, exec (.droopTrip cl) s = .next t ∧ (t.cluster cl).halved = true ∧ (t.cluster cl).slowed = true ∧
      (∀ e, e ∈ t.starts ↔ e ∈ s.starts ∧ ¬(e.cluster = cl ∧ e.droop = true)) ∧
      (s.now + 500 * (s.domain (domainOf cl)).hold, .droopHoldExpiry cl) ∈ t.agenda ∧
      ∀ q ∈ t.agenda, q.2 = .droopHoldExpiry cl → q.1 = s.now + 500 * (s.domain (domainOf cl)).hold) ∧
    (∃ t, exec (.droopHoldExpiry cl) s = .next t ∧ (x.halved = false → t = s) ∧
      (x.halved = true → t.starts = s.starts ++ [{ cluster := cl, droop := true }] ∧ t.clusters = s.clusters ∧
        Claims.Due t .startEventAdmission)) ∧
    (s.enginesBusy cl = false → x.gated = false → x.busyAt + 64 ≤ s.now →
      exec (.clusterClockGate cl) s = .next (s.setCluster cl { x with gated := true })) ∧
    ((s.enginesBusy cl = true ∨ x.gated = true ∨ s.now < x.busyAt + 64) → exec (.clusterClockGate cl) s = .next s) ∧
    ∀ e rest, s.starts = e :: rest →
      let recent := s.admitted.filter fun t => decide (s.now < t + 200)
      ∃ t, exec .startEventAdmission s = .next t ∧
        ((s.now ∈ recent ∨ 8 ≤ recent.length) → t.starts = s.starts ∧ t.clusters = s.clusters ∧ t.waves = s.waves ∧
          Claims.Due t .startEventAdmission) ∧
        (s.now ∉ recent → recent.length < 8 → t.starts = rest ∧ t.admitted = recent ++ [s.now] ∧
          (t.cluster e.cluster).gated = false ∧ (e.droop = true → (t.cluster e.cluster).halved = false) ∧
          (e.barrier = none → e.group = none → t.waves = s.waves) ∧ (rest ≠ [] → Claims.Due t .startEventAdmission))

/-- R219 to R221: of what a stack delivers in its thermal state, each depth-1 context is served its demand up to its share, what
remains is split equally among those that still have demand, and the rest passes to the next interval: the context counts as
throttled, and what it missed of its nominal share is its shortfall. A context's bytes are divided in the same way between its own
requests and its children, by the parts of its share. The stack's next state follows its temperature. Stated for contexts whose
children have no children; the demands and the temperature are inputs.

The model's choices: what remains is divided in whole bytes, a context's bytes are divided between its own requests and its
children's, and a context that is not served in full counts as throttled, at whatever depth (log 65). -/
def Obligations.BandwidthShares : Prop :=
  ∀ (stack temp : Nat) (demands : List (Nat × Nat)) (s : State), s.ctxs.keys.Nodup →
    let bytes := Claims.delivers (s.hbmStacks.getD stack 0)
    let ones := (s.ctxs.rows.filter fun p => p.2.depth == 1).map (·.1)
    let sum := fun (l : List Nat) => l.foldr (· + ·) 0
    sum (ones.map fun c => (s.ctx c).share) ≤ 256 →
    (∀ c ∈ ones, (∀ d ∈ s.children c, s.children d = [] ∧ (s.ctx d).depth ≠ 1) ∧ Claims.children s c (·.share) ≤ (s.ctx c).share) →
    let want := Claims.demand s demands stack
    let wants := fun (c : Nat) => want c + sum ((s.children c).map want)
    ∃ t, ∃ served : Nat → Nat, exec (.bandwidthInterval stack temp demands) s = .next t ∧
      t.hbmStacks.getD stack 0 = Claims.thermal (s.hbmStacks.getD stack 0) temp ∧
      Claims.Divided bytes bytes (ones.map fun c => ((s.ctx c).share, wants c, wants c - served c)) ∧
      let left := fun (c : Nat) => (t.ctx c).carry.getD stack 0
      ∀ c ∈ ones, served c ≤ wants c ∧
        Claims.Divided bytes (served c)
          (((s.ctx c).share - Claims.children s c (·.share), want c, left c) ::
            (s.children c).map fun d => ((s.ctx d).share, want d, left d)) ∧
        (t.ctx c).throttled = ((s.ctx c).throttled || served c != wants c) ∧
        (∀ d ∈ s.children c, (t.ctx d).throttled = ((s.ctx d).throttled || left d != 0)) ∧
        (t.ctx c).shortfall = (s.ctx c).shortfall +
          BitVec.ofNat 64 (min (wants c) ((s.ctx c).share * 3276800 / 256) - served c)

namespace Sys2Proof.Claims

/-! ### Launches, stops, front ends and health -/

/-- Class `a` is served before class `b` (R185). -/
def precedes (a b : Cand) : Prop :=
  let x := fun (c : Cand) => (if c.first then 1 else 0 : Nat)
  x b < x a ∨ (x a = x b ∧ (b.depth < a.depth ∨ (a.depth = b.depth ∧ (b.prio < a.prio ∨ (a.prio = b.prio ∧
    (a.time < b.time ∨ (a.time = b.time ∧ (a.start < b.start ∨ (a.start = b.start ∧ a.node < b.node)))))))))
/-- An entry went to the ring of a context, of its nearest ancestor with a ring, or of the partition's front end (R238). -/
def Rang (s t : State) (c : Nat) (chain : List Nat) (e : RingEntry) : Prop :=
  match chain.find? fun c => (s.ctx c).fltEn with
  | some r => e ∈ (t.ctx r).ringQ
  | none => (t.frontEnd (s.partition c)).event = e
/-- The wave of a new group in its launch state (R168, R184): `recs` are its lanes' record offsets. -/
def Launched (x : Group) (i : Nat) (recs : List Nat) (w : Wave) : Prop :=
  w.wid = i ∧ w.phase = .run ∧ w.handler = false ∧ w.granules = x.ep.gran ∧ w.empty = 0 ∧
    (∀ l, l < 32 → lane w.dx l = if l < recs.length then 0 else 0xFFFFFFFF) ∧
    (∀ l, l < 32 → lane (w.vreg 0) l = BitVec.ofNat 32 (recs.getD l 0)) ∧ (∀ r, r ≠ 0 → w.vreg r = zeroLanes) ∧
    w.sreg 0 = BitVec.ofNat 64 x.records.length ∧ w.sreg 1 = BitVec.ofNat 64 x.node ∧ w.sreg 2 = BitVec.ofNat 64 x.depth ∧
    w.sreg 3 = BitVec.ofNat 64 x.launchBase ∧ (∀ r, 4 ≤ r → w.sreg r = 0) ∧ (∀ m, m ≠ 0 → w.mreg m = 0) ∧
    w.jord = 0 ∧ w.jsr = 0 ∧ w.fpctl = 0 ∧ w.ppoint = BitVec.ofNat 64 (4096 + if x.ep.promise then 2 ^ 17 else 0) ∧
    w.tvec = BitVec.ofNat 64 (x.ep.hoff + if x.ep.handler then 2 ^ 32 else 0)
/-- The number in eight bytes of the host's memory. -/
def hostWord (s : State) (a n : Nat) : Nat := number (memRead s.host) a n
/-- Every wave of a group stands still: parked, waiting for a verdict, or ended (R244). -/
def AllStill (s : State) (g : Nat) : Prop := ∀ k ∈ s.wavesOf g, (s.wave k).phase.still = true
end Sys2Proof.Claims

/-- R163, R181, R184, R185, R196, R197, R207, R414: of the launchable classes and returning groups that find a cluster, the one
that R185 puts first passes to the launch queue: a class becomes a group with the next GID, of its oldest records. The head of a
launch queue is placed on the core with the most free wave slots that meets every condition, its waves in their launch state,
once its node has passed the launch checks; a node that fails them loses its records, and its fault is delivered. What could not
be read is read again every microsecond.

The model's choices: the entry of a failed check has the GID and the NODE of the group that met it (logs 50 and 78); the queue
of a node that could not be read at the start of its launch is placed once it can be (log 102). -/
def Obligations.GroupsAreLaunched : Prop :=
  (∀ (l n d : Nat) (s : State), ∃ t, exec (.gathererTimerExpiry l n d) s = .next t ∧ t.launches = s.launches ∧
    t.groups = s.groups ∧ Claims.Due t .gathererDispatch) ∧
  (∀ (a : Cand) (cl : Nat) (s : State), a ∈ s.classes → a.group = none →
    (∀ b ∈ s.classes, s.neverAdmits b.ctx (s.node b.launch b.node).ep = false) → s.clusterFor a.ctx = some cl →
    (∀ b ∈ s.returning ++ s.classes, b ≠ a → (s.clusterFor b.ctx).isSome = true → Claims.precedes a b) →
    let n := s.node a.launch a.node
    let g := s.nextGroup
    let rs := ((n.cls a.depth).take n.target).map (·.slot)
    ∃ t, exec .gathererDispatch s = .next t ∧ t.nextGroup = g + 1 ∧ (t.group g).phase = .queued ∧ (t.group g).ctx = a.ctx ∧
      (t.group g).launch = a.launch ∧ (t.group g).node = a.node ∧ (t.group g).depth = a.depth ∧ (t.group g).records = rs ∧
      (t.group g).gid = (s.launch a.launch).nextGid ∧ (t.launch a.launch).nextGid = (s.launch a.launch).nextGid + 1 ∧
      (t.cluster cl).queue = (s.cluster cl).queue ++ [g] ∧
      (∀ i ∈ rs, (t.node a.launch a.node).slots.get? i = some (.assigned g)) ∧
      (t.node a.launch a.node).ready = n.ready.filter fun r => !rs.contains r.slot) ∧
  (∀ (cl g : Nat) (rest : List Nat) (s : State), (s.cluster cl).queue = g :: rest → (s.group g).phase = .queued → g ∉ rest →
    let x := s.group g
    let n := s.node x.launch x.node
    n.check = 1 →
    let s1 := s.setGroup g { x with ep := n.ep }
    let cores := (List.range 4).map (4 * cl + ·)
    (∀ k ∈ cores, s1.placeFail g k ≠ some 3) →
    ((∀ k ∈ cores, s1.placeFail g k ≠ none) → ∃ t, exec (.groupPlacement cl) s = .next t ∧
      (t.cluster cl).queue = g :: rest ∧ (t.group g).phase = .queued) ∧
    ((∃ k ∈ cores, s1.placeFail g k = none) → x.records ≠ [] → 0 < x.waves → ∃ t core, exec (.groupPlacement cl) s = .next t ∧
      core ∈ cores ∧ s1.placeFail g core = none ∧
      (∀ k ∈ cores, s1.placeFail g k = none → s1.slotsFree k ≤ s1.slotsFree core) ∧
      (t.group g).phase = .resident ∧ (t.group g).core = core ∧ (t.cluster cl).queue = rest ∧
      ∀ i, i < x.waves → let recs := ((x.records.map (· * n.z)).drop (32 * i)).take 32
        (t.wave (16 * g + i)).group = g ∧ (recs ≠ [] → Claims.Launched { x with ep := n.ep } i recs (t.wave (16 * g + i))) ∧
          (recs = [] → (t.wave (16 * g + i)).phase = .ended))) ∧
  (∀ (l node : Nat) (s : State), (s.node l node).check = 0 → (s.launch l).ended = false → (s.node l node).entry ≠ [] →
    (∀ g ∈ s.inQueues, ¬((s.group g).launch = l ∧ (s.group g).node = node)) →
    ∃ t, exec (.launchStructureReread l node) s = .next t ∧ t.launches = s.launches ∧ t.groups = s.groups ∧
      Claims.Due t (.launchStructureReread l node)) ∧
  (∀ (l node : Nat) (s : State), (s.node l node).check = 0 → (s.launch l).ended = false → (s.node l node).entry = [] →
    let x := s.launch l
    let c := s.ctx x.ctx
    let again := fun (p : State → Prop) => ∃ t, exec (.launchStructureReread l node) s = .next t ∧
      Claims.Due t (.launchStructureReread l node) ∧ p t
    (∀ f, Claims.nodePage s x.ctx x.table node = .error f → again fun t => t.launches = s.launches) ∧
    ∀ p b, Claims.nodePage s x.ctx x.table node = .ok p → c.qbase % 65536 = 0 →
      Claims.LowestBase c.qbase (c.qbase + (c.qmem - Claims.children s x.ctx (·.qmem))) (Claims.runningQueues s x.ctx)
        (leNat ((p.1.drop 8).take 4) * (32 * Claims.recsz p)) b →
      again fun t => (t.node l node).base = b ∧ (t.node l node).cap = leNat ((p.1.drop 8).take 4) ∧
        (t.node l node).entry = p.1 ∧ (t.node l node).page = p.2) ∧
  ∀ (l node g : Nat) (s : State), (s.inQueues.find? fun g => (s.group g).launch == l && (s.group g).node == node) = some g →
    ((s.node l node).check ≠ 0 ∨ (s.launch l).ended = true → exec (.launchStructureReread l node) s = .next s) ∧
    ((s.node l node).check = 0 → (s.launch l).ended = false → (s.node l node).entry ≠ [] →
      (∀ r, s.launchCheck l node = .ok r → ∃ t, exec (.launchStructureReread l node) s = .next t ∧
        (t.node l node).check = 1 ∧ (t.node l node).live = r.2.1 ∧ (t.node l node).slices = r.2.2) ∧
      (∀ code i, s.launchCheck l node = .error (.inr (code, i)) → ∃ t, exec (.launchStructureReread l node) s = .next t ∧
        (t.node l node).check = 2 ∧ (t.node l node).ready = [] ∧
        Claims.Rang s t (s.group g).ctx (s.chain (s.group g).ctx).tail
          { ctx := (s.group g).ctx, tcause := 0x11 + 2 ^ 9
            taddr := BitVec.ofNat 64 (if code = 0x0D then (s.launch l).table else (s.group g).ep.addr)
            tinfo := BitVec.ofNat 64 (code + 2 ^ 16 * i), gid := (s.group g).gid
            word2c := 2 ^ 8 * node + 2 ^ 16 * (s.ctx (s.group g).ctx).depth }))

/-- R43, R118, R142, R181, R186, R439: a group whose operations are complete ends: its records' slots are free, those it had
allocated count as abandoned, its waves are gone and its reservations are zeroed. A launch whose groups and records are gone
ends with the write-back of its cores and its completion word; the interrupt follows the word. In a front end with a ring error
(R438) the word is owed and nothing is written. -/
def Obligations.GroupsAndLaunchesEnd : Prop :=
  (∀ (g : Nat) (s : State),
    let x := s.group g
    (x.phase ≠ .ending → exec (.groupTeardown g) s = .next s) ∧
    (x.phase = .ending → x.frozen = [] → (∀ k ∈ s.wavesOf g, (s.wave k).storeQ = []) →
      (s.workDone g = false → ∃ t, exec (.groupTeardown g) s = .next t ∧ t.groups = s.groups ∧ Claims.Due t (.groupTeardown g)) ∧
      (s.workDone g = true → ∃ t, exec (.groupTeardown g) s = .next t ∧ (t.group g).phase = .ended ∧
        (∀ i, i < 16 → t.waves.get? (16 * g + i) = none) ∧ x.folio ∉ (t.ctx x.ctx).folioUsed ∧
        (∀ m ∈ (s.launch x.launch).nodes.keys,
          (∀ p ∈ (t.node x.launch m).slots.rows, p.2 ≠ .allocated g ∧ p.2 ≠ .assigned g) ∧
          (t.node x.launch m).abandoned = (s.node x.launch m).abandoned +
            ((s.node x.launch m).slots.rows.filter fun p => p.2 == .allocated g).length) ∧
        (∀ b, (x.range b).size ≠ 0 → (g, b, x.range b) ∈ (t.core x.core).zeroing) ∧
        Claims.Due t (.reservationZeroingDone x.core g)))) ∧
  (∀ (core g : Nat) (s : State), s.memWf = true →
    let mine := (s.core core).zeroing.filter fun z => z.1 == g
    ∃ t, exec (.reservationZeroingDone core g) s = .next t ∧
      (t.core core).zeroing = (s.core core).zeroing.filter (fun z => z.1 != g) ∧
      (∀ b a, (∃ z ∈ mine, z.2.1 = b ∧ z.2.2.base ≤ a ∧ a < z.2.2.base + z.2.2.size) → memRead ((t.core core).buf b) a = 0) ∧
      (∀ b a, (∀ z ∈ mine, z.2.1 = b → ¬(z.2.2.base ≤ a ∧ a < z.2.2.base + z.2.2.size)) →
        memRead ((t.core core).buf b) a = memRead ((s.core core).buf b) a) ∧
      ∀ n, (∃ z ∈ mine, z.2.1 = .c ∧ z.2.2.base ≤ 16384 * n ∧ 16384 * n < z.2.2.base + z.2.2.size) → Claims.metaOf t core n = 0) ∧
  (∀ (l f : Nat) (s : State),
    let x := s.launch l
    let a := x.completion
    (s.launchOver l = false → exec (.launchCompletion l) s = .next s) ∧
    (s.launchOver l = true → x.ended = false → (s.launches.get? l).isSome = true → x.frontEnd = some f → a ≠ 0 → s.memWf = true →
      (s.frontEnd f).status ≠ 3 →
      ∃ t, exec (.launchCompletion l) s = .next t ∧ (t.launch l).ended = true ∧
        (∀ k ∈ x.ranOn, ∀ y ∈ (t.core k).l1, y.dirty = 0) ∧
        Claims.hostWord t a 8 = (if x.hung then 2 else if x.killed then 1 else 0) +
          2 ^ 8 * ((x.nodes.vals.map (·.abandoned)).foldr (· + ·) 0 % 2 ^ 32) + 2 ^ 40 * (x.seq % 2 ^ 24) ∧
        (∀ y, y < a ∨ a + 8 ≤ y → memRead t.host y = memRead s.host y) ∧
        (x.vector ≠ 0xFFFFFFFF → (t.launch l).interrupt = true ∧ Claims.Due t (.completionInterrupt l))) ∧
    (s.launchOver l = true → x.ended = false → (s.launches.get? l).isSome = true → x.frontEnd = some f →
      (s.frontEnd f).status = 3 → ∃ t, exec (.launchCompletion l) s = .next t ∧ (t.launch l).ended = true ∧ t.host = s.host ∧
        (t.launch l).interrupt = x.interrupt ∧ (t.launch l).owed = some ((if x.hung then 2 else if x.killed then 1 else 0) +
          2 ^ 8 * ((x.nodes.vals.map (·.abandoned)).foldr (· + ·) 0 % 2 ^ 32) + 2 ^ 40 * (x.seq % 2 ^ 24)))) ∧
  ∀ (l f : Nat) (s : State),
    let x := s.launch l
    let a := (s.frontEnd f).interrupt.toNat
    x.frontEnd = some f →
    (x.interrupt = false → exec (.completionInterrupt l) s = .next s) ∧
    (x.interrupt = true → s.memWf = true → ∃ t, exec (.completionInterrupt l) s = .next t ∧ (t.launch l).interrupt = false ∧
      Claims.hostWord t a 4 = x.vector.toNat ∧ t.sent = (a, x.vector.toNat) :: s.sent ∧
      ∀ y, y < a ∨ a + 4 ≤ y → memRead t.host y = memRead s.host y)

/-- R53, R202, R224, R231, R239, R244, R246, R247, R250: a group that is asked to stop comes to its stop when its waves stand
still and its work is done; its lock bits are released and its reservations are to be zeroed. After 100 us its waves take
PREEMPT, or it is saved in full without a handler; after 200 us it is, and PREDONE_TIMEOUT is delivered. A wave that waits at a
barrier, and cannot be parked there, has its arrival withdrawn and takes PREEMPT at the barrier; a wave in its handler takes it
later. A placed group resumes when its resources are there. A hang stops a context and its descendants, and its fault is
delivered when their groups have stopped. A turn on a shared core lasts for its slice, and passes on after the stops, of a lone
sharer to itself. A waiting entry goes into its ring, or, where that cannot be written, to the next ring up.

The model's choices: a stop that is asked for while a group is being restored ends the restore, and the group keeps its folio
(log 57); a wave that waits at a live barrier of a group with a lock bit is treated like one at any other barrier, and a wave
held by an access to another package takes PREEMPT when that has ended (log 53). -/
def Obligations.GroupsStopAndResume : Prop :=
  (∀ (g : Nat) (s : State),
    let x := s.group g
    let stopped := fun (kind : Nat) => ∃ t, exec (.groupStop g) s = .next t ∧ (t.group g).phase = .stopped kind ∧
      (t.group g).stopReq = none ∧ (t.group g).forced = none ∧ (∀ p ∈ (t.core x.core).locks.rows, p.2 / 16 ≠ g) ∧
      ∀ b, (x.range b).size ≠ 0 → (g, b, x.range b) ∈ (t.core x.core).zeroing
    (x.stopReq = none → x.forced = none → exec (.groupStop g) s = .next s) ∧
    (x.phase = .resident → x.stopReq ≠ none → x.forced = none →
      ((∃ k ∈ s.wavesOf g, (s.wave k).phase = .run) → ∃ t, exec (.groupStop g) s = .next t ∧ t.groups = s.groups ∧
        ∀ k, (t.wave k).dx = (s.wave k).dx ∧ (t.wave k).file = (s.wave k).file) ∧
      (Claims.AllStill s g →
        ((((s.parkWaiting g).settleWaves g).drainGroup g).releaseHeads g).groupQuiet g = true → stopped 0)) ∧
    (x.phase = .resident → ∀ kind, x.forced = some kind →
      ((((s.settleWaves g).saveLocks g).drainGroup g).releaseHeads g).groupQuiet g = true → stopped kind) ∧
    (∀ kind, x.phase = .restoring kind →
      ((x.stopReq ≠ none ∨ x.forced ≠ none) →
        (∃ t, exec (.groupStop g) s = .next t ∧ (t.group g).phase = .stopped kind ∧ (t.group g).images = x.images) ∧
        ∃ t, exec (.groupRestore g) s = .next t ∧ (t.group g).phase = .stopped kind ∧ (t.group g).images = x.images) ∧
      (x.stopReq = none → x.forced = none → s.canRestore g = false → ∃ t, exec (.groupRestore g) s = .next t ∧
        t.groups = s.groups ∧ Claims.Due t (.groupRestore g)) ∧
      (x.stopReq = none → x.forced = none → s.canRestore g = true → (∀ k ∈ s.wavesOf g, ∀ n, (s.wave k).phase ≠ .verdict n) →
        ∃ t, exec (.groupRestore g) s = .next t ∧ (t.group g).phase = .resident ∧
          (t.group g).savedLocks = [] ∧ (t.group g).withdrawn = [] ∧
          ∀ k ∈ s.wavesOf g, ∀ e, (s.wave k).phase = .predone e → (t.wave k).phase = .run)) ∧
    (∀ t0, x.stopReq = some t0 → x.phase = .resident → x.forced = none →
      (s.now < t0 + 200000 → exec (.preemptTimeout g) s = .next s) ∧
      (t0 + 200000 ≤ s.now → x.ep.handler = false → (∃ k ∈ s.wavesOf g, (s.wave k).phase = .run) →
        ∃ t, exec (.preemptTimeout g) s = .next t ∧ (t.group g).forced = some 1) ∧
      (t0 + 200000 ≤ s.now → x.ep.handler = true → (∃ k ∈ s.wavesOf g, (s.wave k).phase = .run) →
        ∃ t, exec (.preemptTimeout g) s = .next t ∧ ∀ k ∈ s.wavesOf g, (s.wave k).group = g →
          let w := s.wave k
          let waits := ∃ n j, w.phase = .bar n j none ∧ (x.set n).k = j ∧ (s.parkWaiting g).wave k = w
          ((w.phase = .run ∨ waits) → w.handler = false → w.remoteHold = false → s.toHandler k { cause := 0x0C } = true →
            (t.wave k).preempted = true ∧ (t.wave k).phase = .run ∧ EnteredHandler s t k w.ipc { cause := 0x0C } ∧
            ∀ n j, w.phase = .bar n j none → ((t.group g).set n).arrived.getLsbD w.wid = false) ∧
          (w.phase = .run → (w.handler = true ∨ w.remoteHold = true) → (t.wave k).preemptDue = true ∧
            (t.wave k).duct = w.duct ∧ (t.wave k).file = w.file)) ∧
      (s.now < t0 + 400000 → exec (.predoneTimeout g) s = .next s) ∧
      (t0 + 400000 ≤ s.now → ∃ t, exec (.predoneTimeout g) s = .next t ∧ (t.group g).forced = some 1 ∧
        Claims.Rang s t x.ctx (s.chain x.ctx).tail
          { ctx := x.ctx, tcause := 0x10, tinfo := BitVec.ofNat 64 x.gid, gid := x.gid
            word2c := 2 ^ 8 * x.node + 2 ^ 16 * (s.ctx x.ctx).depth }))) ∧
  (∀ (c : Nat) (s : State), (s.ctxs.get? c).isSome = true → s.groups.keys.Nodup →
    let runs := ∃ p ∈ s.groups.rows, p.2.ctx ∈ s.descendants c ∧ (p.2.phase = .resident ∨ ∃ n, p.2.phase = .restoring n)
    let fault : RingEntry := { ctx := c, tcause := 0x0F, word2c := 2 ^ 16 * (s.ctx c).depth }
    ((s.ctx c).hung = false → ∃ t, exec (.hangWatchdogExpiry c) s = .next t ∧ (∀ d ∈ s.descendants c, (t.ctx d).hung = true) ∧
      (∀ p ∈ s.groups.rows, p.2.ctx ∈ s.descendants c → p.2.phase = .resident → (t.group p.1).forced = some 1) ∧
      (runs → (t.ctx c).hangDue = true ∧ Claims.Due t (.hangWatchdogExpiry c)) ∧
      (¬runs → (t.ctx c).hangDue = false ∧ Claims.Rang s t c (s.chain c).tail fault)) ∧
    ((s.ctx c).hung = true → (s.ctx c).hangDue = true →
      (runs → ∃ t, exec (.hangWatchdogExpiry c) s = .next t ∧ t.ctxs = s.ctxs ∧ t.frontEnds = s.frontEnds ∧
        Claims.Due t (.hangWatchdogExpiry c)) ∧
      (¬runs → ∃ t, exec (.hangWatchdogExpiry c) s = .next t ∧ (t.ctx c).hangDue = false ∧
        Claims.Rang s t c (s.chain c).tail fault)) ∧
    ((s.ctx c).hung = true → (s.ctx c).hangDue = false → exec (.hangWatchdogExpiry c) s = .next s)) ∧
  (∀ (core u h : Nat) (s : State),
    let k := s.core core
    k.turns.rows = [(u, h)] →
    (k.leaving = [] → s.now < k.turnEnds.getD u 0 → ∃ t, exec (.sliceExpiry core) s = .next t ∧
      (t.core core).turns = k.turns ∧ (t.core core).leaving = [] ∧ t.groups = s.groups) ∧
    (k.leaving = [] → k.turnEnds.getD u 0 ≤ s.now → s.stillOn h core true ≠ [] →
      ∃ t, exec (.sliceExpiry core) s = .next t ∧ (t.core core).turns = k.turns ∧ (t.core core).leaving = [(h, true)] ∧
        ∀ g ∈ s.stillOn h core true, (s.group g).phase = .resident → (t.group g).stopReq ≠ none) ∧
    (∀ next, (k.leaving = [] ∨ k.leaving = [(h, true)]) → k.turnEnds.getD u 0 ≤ s.now → s.stillOn h core true = [] →
      s.spineOwner h core true = none → (s.ctx h).parent = some u → nextAfter h (s.sharers u core) = some next →
      ∃ t, exec (.sliceExpiry core) s = .next t ∧ (t.core core).turns.get? u = some next ∧ (t.core core).leaving = [] ∧
        (t.core core).turnEnds.getD u 0 = s.now + 2000 * (s.ctx next).slice)) ∧
  ∀ (c : Nat) (e : RingEntry) (rest : List RingEntry) (s : State), (s.ctx c).ringQ = e :: rest →
    match s.ringWrite c (s.ctx c).fltBase (16 * 2 ^ (s.ctx c).fltSize) e.bytes with
    | .done s' => ∃ t, exec (.faultRingWrite c) s = .next t ∧ (t.ctx c).ringQ = rest ∧ t.hbm = s'.hbm ∧ t.host = s'.host
    | .full => ∃ t, exec (.faultRingWrite c) s = .next t ∧ (t.ctx c).ringQ = (s.ctx c).ringQ ∧ t.hbm = s.hbm ∧ t.host = s.host ∧ Claims.Due t (.faultRingWrite c)
    | .failed _ => ∃ t, exec (.faultRingWrite c) s = .next t ∧ Claims.Rang s t c (s.chain c).tail e

namespace Sys2Proof.Claims
/-- Enabling front end `f` fails (R225): its cluster range is none, or overlaps an enabled front end's, the shares exceed 256, or
its descriptor breaks R228. -/
def Unenabled (s : State) (f : Nat) : Prop :=
  let first := fun (x : FrontEnd) => x.range.toNat % 2 ^ 8
  let last := fun (x : FrontEnd) => x.range.toNat / 2 ^ 8 % 2 ^ 8
  let share := fun (x : FrontEnd) => x.range.toNat / 2 ^ 32 % 2 ^ 9
  let x := s.frontEnd f
  let others := (s.frontEnds.rows.filter fun p => p.1 != f && p.2.enable).map (·.2)
  last x < first x ∨ 95 < last x ∨ (∃ y ∈ others, first x ≤ last y ∧ first y ≤ last x) ∨
    256 < share x + (others.map share).foldr (· + ·) 0 ∨
    badDescriptor ((List.range 128).map fun i => memRead x.settings i) none
/-- The bits of the settings that are no reserved fields, by words (R18, R228). -/
def settings : List DWord :=
  [0x0003FFFFFFFFF000, 0x0000FFFFFFFF000F, 0x000003FF00003FFF, 0x0000FFFFFFFFFF01, 0x0000FFFFFFFFFFFF, 0x0000FFFFFFFFFFFF,
    0x0000FFFFFFFFFFFF, 0xFFFFFFFFFFFF1F00, 0xFFFFFFFF00000000]
end Sys2Proof.Claims

/-- R225, R226, R436 to R440: the host's writes reach the settings of a front end that is disabled, and the ring words of any;
the producer count sets the front end to its entries. Enabling it makes its partition's context, of depth 1, with the cores of
its range that are not retired, unless the settings are refused; disabling it ends every launch and group of the partition, and
then its contexts. An entry starts a launch, or completes at once with BAD_ENTRY. A verdict of the host applies to the tickets
of its ring.

The model's choices: a host write's reserved bits are not kept, and those of the settings are kept for the checks of the enable
but read as zero; the words owed while a ring error lasts are written at the disable, in the order in which the launches ended
(log 66); a verdict for a group that is stopped, or being stopped, is recorded (log 57); a node that cannot be read has no queue
yet (log 102). -/
def Obligations.FrontEnds : Prop :=
  ∀ (f : Nat) (s : State), f < 16 → s.up = true →
    let x := s.frontEnd f
    (∀ off (w : DWord),
      let wrote := fun (y : FrontEnd) => exec (.feSettingsWrite f off w) s = .next (s.setFrontEnd f y)
      (off = 0xA0 → wrote { x with ringBase := w }) ∧
      (off = 0xA8 → wrote { x with ringSize := BitVec.ofNat 64 (w.toNat % 16) }) ∧
      (off = 0xC0 → wrote { x with interrupt := w }) ∧
      (x.enable = false → off = 0x80 → wrote { x with range := BitVec.ofNat 64 (w.toNat % 2 ^ 41) }) ∧
      (x.enable = false → off = 0x88 → wrote { x with budgets := BitVec.ofNat 64 (w.toNat % 2 ^ 32) }) ∧
      (x.enable = false → off = 0xC8 → wrote { x with quota := BitVec.ofNat 64 (w.toNat % 2 ^ 32) }) ∧
      (x.enable = false → off < 0x80 → off % 8 = 0 → memWf x.settings = true → ∃ m, wrote { x with settings := m } ∧
        ∀ a, memRead m a = Claims.stored (memRead x.settings) off 8 w.toNat a) ∧
      (x.enable = true → off ≠ 0xA0 → off ≠ 0xA8 → off ≠ 0xC0 → exec (.feSettingsWrite f off w) s = .next s)) ∧
    (∀ n, ∃ t, exec (.feProducerCountWrite f n) s = .next t ∧ t.frontEnd f = { x with produced := n } ∧
      (x.enable = true → Claims.Due t (.feSubmissionEntry f))) ∧
    (∀ w : DWord,
      let v := w.toNat / 2 ^ 32 % 4
      let n := w.toNat % 2 ^ 32
      let tells := fun (st : Nat) => ∃ t, exec (.feVerdictWrite f w) s = .next t ∧ (t.frontEnd f).verdict = st
      ((w.toNat / 2 ^ 34 ≠ 0 ∨ v = 3) → tells 0x60) ∧
      (w.toNat / 2 ^ 34 = 0 → v ≠ 3 → (∀ k, s.ticketWave n = some k → k.frontEnd = false ∨ k.ring ≠ f) → tells 6) ∧
      (w.toNat / 2 ^ 34 = 0 → v ≠ 3 → ∀ k, s.ticketWave n = some k → k.frontEnd = true → k.ring = f →
        (s.group (s.wave k.wave).group).phase = .resident → (s.group (s.wave k.wave).group).forced = none →
        ∃ t, exec (.feVerdictWrite f w) s = .next t ∧ (t.frontEnd f).verdict = 0 ∧ t.ticketWave n = none ∧
          (v = 0 → (t.wave k.wave).phase = .run ∧ (t.wave k.wave).duct = (s.wave k.wave).duct)) ∧
      (w.toNat / 2 ^ 34 = 0 → v ≠ 3 → ∀ k, s.ticketWave n = some k → k.frontEnd = true → k.ring = f →
        ((s.group (s.wave k.wave).group).phase ≠ .resident ∨ (s.group (s.wave k.wave).group).forced ≠ none) →
        ∃ t, exec (.feVerdictWrite f w) s = .next t ∧ (t.frontEnd f).verdict = 0 ∧ (t.wave k.wave).recorded = some v ∧
          (t.wave k.wave).phase = (s.wave k.wave).phase)) ∧
    (x.enable = false → (s.ctxs.get? f).isNone = true →
      (Claims.Unenabled s f → exec (.feEnable f) s = .next (s.setFrontEnd f { x with status := 2 })) ∧
      (¬Claims.Unenabled s f → ∃ t, exec (.feEnable f) s = .next t ∧ (t.frontEnd f).enable = true ∧ (t.frontEnd f).status = 1 ∧
        (t.ctxs.get? f).isSome = true ∧ (t.ctx f).depth = 1 ∧ (t.ctx f).parent = none ∧ (t.ctx f).bindCount = 256 ∧
        (t.ctx f).share = x.range.toNat / 2 ^ 32 % 2 ^ 9 ∧ (t.ctx f).qmem = 65536 * (x.quota.toNat % 2 ^ 32) ∧
        ∀ k, t.granted f k = true ↔ x.range.toNat % 2 ^ 8 ≤ k / 4 ∧ k / 4 ≤ x.range.toNat / 2 ^ 8 % 2 ^ 8 ∧
          (s.core k).retired = false)) ∧
    ((s.ctxs.get? f).isSome = true → ∃ t, exec (.feDisable f) s = .next t ∧ (t.frontEnd f).enable = false ∧
      (t.frontEnd f).status = 0 ∧
      ((∀ p ∈ s.groups.rows, p.2.ctx ∈ s.descendants f → p.2.phase = .ended) →
        (∀ p ∈ s.launches.rows, p.2.ctx ∈ s.descendants f → p.2.ended = true) →
        ∀ d ∈ s.descendants f, t.ctxs.get? d = none) ∧
      ((s.launches.rows.map (·.1)).Nodup → s.memWf = true → (∀ j ∈ x.owes, (s.launch j).frontEnd = some f) → ∀ pre l post w,
        x.owes = pre ++ l :: post → l ∉ pre → (s.launch l).owed = some w →
        let a := (s.launch l).completion
        a ≠ 0 → (∀ j ∈ post, let b := (s.launch j).completion
          (s.launch j).owed = none ∨ b = 0 ∨ j = l ∨ b + 8 ≤ a ∨ a + 8 ≤ b) → Claims.hostWord t a 8 = w % 2 ^ 64) ∧
      (∀ p ∈ s.launches.rows, p.2.ctx ∈ s.descendants f → p.2.ended = false → (t.launch p.1).killed = true)) ∧
    (let ahead := x.produced.toNat - x.consumed.toNat
     let cap := 16 * 2 ^ (x.ringSize.toNat % 16)
     let e := memReadN s.host (x.ringBase.toNat + 64 * (x.consumed.toNat % cap)) 64
     let a := leNat ((e.drop 8).take 8)
     x.enable = true → x.status = 1 → ahead ≠ 0 → s.memWf = true →
     (cap < ahead → exec (.feSubmissionEntry f) s = .next (s.setFrontEnd f { x with status := 3 })) ∧
     (ahead ≤ cap →
       let ends := fun (p : State → Prop) => ∃ t, exec (.feSubmissionEntry f) s = .next t ∧ (t.frontEnd f).consumed = x.consumed + 1 ∧
         (a ≠ 0 → Claims.hostWord t a 8 = 3 + 2 ^ 40 * (x.consumed.toNat % 2 ^ 24)) ∧ p t
       let faults := fun (m : MemFault) => ends fun t =>
         s.chain f = [f] → (∀ o, m.owner = some o → o = f) → (t.frontEnd f).events = x.events + 1 ∧
           (t.frontEnd f).event.ctx = f ∧ (t.frontEnd f).event.tcause = m.cause + 2 ^ 9 ∧
           (t.frontEnd f).event.taddr = BitVec.ofNat 64 m.addr ∧ (t.frontEnd f).event.ticket = 0
       (Claims.EntryBad s f e → ends fun _ => True) ∧ (∀ m, Claims.EntryFaults s f e m → faults m) ∧
       (¬Claims.EntryBad s f e → (∀ m, ¬Claims.EntryFaults s f e m) → (s.ctx f).qbase % 65536 = 0 →
         ((∀ bs, ¬Claims.QueuesAt s f e [] bs) → ends fun _ => True) ∧
         ∀ b0, Claims.QueuesAt s f e [] b0 →
           ((∀ bs, ¬Claims.QueuesAt s f e (Claims.runningQueues s f) bs) →
             exec (.feSubmissionEntry f) s = .next (s.setFrontEnd f { x with stalled := true })) ∧
           ∀ bs, Claims.QueuesAt s f e (Claims.runningQueues s f) bs →
             (∀ m, s.globWrites f (Claims.rootParts s f e bs) = .error m → faults m) ∧
             ∀ s2, s.globWrites f (Claims.rootParts s f e bs) = .ok s2 →
               ∃ t, exec (.feSubmissionEntry f) s = .next t ∧ (t.frontEnd f).consumed = x.consumed + 1 ∧
                 Claims.StartedLaunch t s.nextLaunch f e x.consumed.toNat bs))) ∧
    let reads := fun (off : Nat) (w : DWord) => s.hostRead (0x10000 + 0x1000 * f + off) = some w
    reads 0x80 x.range ∧ reads 0x88 x.budgets ∧ reads 0x90 (if x.enable then 1 else 0) ∧ reads 0x98 (BitVec.ofNat 64 x.status) ∧
      reads 0xA0 x.ringBase ∧ reads 0xA8 x.ringSize ∧ reads 0xB0 x.produced ∧ reads 0xB8 x.consumed ∧ reads 0xC0 x.interrupt ∧
      reads 0xC8 x.quota ∧ reads 0xD8 (BitVec.ofNat 64 x.verdict) ∧ reads 0x140 (BitVec.ofNat 64 x.events) ∧
      reads 0x100 (BitVec.ofNat 64 x.event.ctx) ∧ reads 0x108 (BitVec.ofNat 64 x.event.tcause) ∧
      reads 0x110 (BitVec.ofNat 64 x.event.tepc) ∧ reads 0x118 x.event.taddr ∧ reads 0x120 x.event.tinfo ∧
      reads 0x130 (BitVec.ofNat 64 x.event.ticket) ∧
      ∀ i, i < 16 → reads (8 * i) (BitVec.ofNat 64 (Claims.number (memRead x.settings) (8 * i) 8) &&& Claims.settings.getD i 0)

namespace Sys2Proof.Claims
/-- A self-test took these cores out of use: the groups on them are asked to stop, and the test's end is due (R444). -/
def TestsCores (s t : State) (unit loc : Nat) (cores : List Nat) : Prop :=
  (∃ pass, Due t (.selfTestComplete unit loc pass)) ∧
    ∀ k ∈ cores, (t.core k).testing = true ∧ ∀ g ∈ s.resident k, (s.group g).phase = .resident → (t.group g).stopReq ≠ none
/-- A self-test of cores has ended (R444, R445): it waits for their groups to stop; the cores return to use, and their cluster
counts a transient error; or they leave every grant, which is reported to every context that held one. -/
def TestEnds (s : State) (unit loc code : Nat) (cores : List Nat) : Prop :=
  ((∃ k ∈ cores, s.resident k ≠ [] ∨ (s.core k).leaving ≠ []) → ∀ pass, ∃ t,
    exec (.selfTestComplete unit loc pass) s = .next t ∧ t.cores = s.cores ∧ Due t (.selfTestComplete unit loc pass)) ∧
  ((∀ k ∈ cores, s.resident k = [] ∧ (s.core k).leaving = []) →
    (∃ t, exec (.selfTestComplete unit loc true) s = .next t ∧
      (∀ k ∈ cores, (t.core k).testing = false ∧ (t.core k).retired = (s.core k).retired) ∧
      (t.cluster (cores.headD 0 / 4)).trans = min 255 ((s.cluster (cores.headD 0 / 4)).trans + 1)) ∧
    ∃ t, exec (.selfTestComplete unit loc false) s = .next t ∧
      (∀ k ∈ cores, (t.core k).testing = false ∧ (t.core k).retired = true ∧ ∀ c ∈ s.ctxs.keys, t.granted c k = false) ∧
      ∀ c ∈ s.ctxs.keys, (∃ k ∈ cores, s.granted c k = true) → (s.ctx c).fltEn = true →
        ∃ e ∈ (t.ctx c).ringQ, e.ctx = c ∧ e.tcause = 0x0B ∧ e.ticket = 0 ∧ e.tinfo = BitVec.ofNat 64 (2 ^ 32 + 2 ^ 24 * code))
/-- A copy of the configuration block that bring-up may use (R441). -/
def usable (s : State) (x : FlashCopy) : Prop := x.valid = true ∧ s.firmware.minVersion ≤ x.block.version
end Sys2Proof.Claims

/-- R61, R169, R441 to R445: bring-up stops where the firmware or both copies of the configuration block are invalid; else it
uses the valid copy of higher version, sets the domains' points that it fixes (R208), retires the clusters that fail their
tests, and makes the front ends accessible; a report carries the nonce, the package and the digests of the firmware and of the
whole block. A monitor sets a cluster's guard band, and the health page shows each cluster's word. A unit under self-test is out
of use: a slice does not allocate, an HBM row is remapped, a core's groups stop. A unit that passes returns and counts a
transient error, a unit that fails is retired: a slice is bypassed, a row is replaced, a core leaves every grant. A drowsy bank
keeps its registers. A quantum's lanes are those at the lowest waiting PC.

The model's choices: which tests pass and how long they last, and the digests (log 19); that a test of cores ends only when the
stops that it asked for have ended (log 68); that a row's data stays where it is and that a slice or a row counts its error in
the cluster that met it (log 90); that name r lies in bank r mod 16 (log 81); and what a drowsy bank is (log 10). -/
def Obligations.DeviceHealth : Prop :=
  ∀ (s : State),
    ((s.firmware.valid = false ∨ ∀ x ∈ s.flash, ¬Claims.usable s x) → exec .powerOnBringup s = .next s) ∧
    (s.firmware.valid = true → ∀ x ∈ s.flash, Claims.usable s x →
      (∀ y ∈ s.flash, Claims.usable s y → y.block.version < x.block.version ∨ y = x) →
      ∃ t, exec .powerOnBringup s = .next t ∧ t.up = true ∧ t.config = x.block ∧ t.ctxs = s.ctxs ∧
        (x.block.fixed.keys.Nodup → ∀ d, d < 8 → t.domain d = match x.block.fixed.get? d with
          | some p => { s.domain d with point := p.1, underv := p.2 }
          | none => s.domain d) ∧
        ∀ k, (t.core k).retired = ((s.core k).retired || (decide (k < 384) && !Config.bootTestPasses (k / 4)))) ∧
    (∀ nonce, s.up = true → ∃ t r, exec (.attestationRequest nonce) s = .next t ∧ t = { s with report := some r } ∧
      r.nonce = nonce ∧ r.package = s.config.package ∧ r.boot = Config.bootDigest 0 ∧ r.firmware = Config.bootDigest 1 ∧
      r.config = Config.configDigest s.config.fields ∧
      r.signature = Config.attestSignature nonce r.package [r.boot, r.firmware, r.config]) ∧
    (∀ cl hours guard, exec (.ageingMonitorUpdate cl hours guard) s = .next (s.setCluster cl { s.cluster cl with
      eol := BitVec.ofNat 32 (min hours (2 ^ 32 - 1)), guard := min guard 255 })) ∧
    (∀ c, c < 96 → s.up = true → (s.cluster c).guard < 256 → (s.cluster c).trans < 256 →
      ∃ w, s.hostRead (8 * c) = some w ∧ (∀ k, k < 4 → w.getLsbD (52 + k) = (s.core (4 * c + k)).retired) ∧
        w.toNat / 2 ^ 56 = 0 ∧ w.toNat / 2 ^ 48 % 16 = 0 ∧ w.toNat / 2 ^ 40 % 256 = (s.cluster c).guard ∧
        w.toNat / 2 ^ 32 % 256 = (s.cluster c).trans ∧ w.toNat % 2 ^ 32 = (s.cluster c).eol.toNat) ∧
    (∀ loc, (s.slices.getD loc 0 = 0 → ∃ t pass, exec (.selfTestStart 7 loc) s = .next t ∧ t.slices.getD loc 0 = 1 ∧
        (∀ p ∈ t.msc.rows, p.1 / 2048 ≠ loc) ∧ Claims.Due t (.selfTestComplete 7 loc pass)) ∧
      (s.slices.getD loc 0 ≠ 0 → exec (.selfTestStart 7 loc) s = .next s) ∧
      (s.rows.getD loc 0 % 2 = 0 → ∃ t pass, exec (.selfTestStart 8 loc) s = .next t ∧
        t.rows.getD loc 0 = s.rows.getD loc 0 + 1 ∧ t.hbm = s.hbm ∧ Claims.Due t (.selfTestComplete 8 loc pass)) ∧
      (s.rows.getD loc 0 % 2 = 1 → exec (.selfTestStart 8 loc) s = .next s)) ∧
    (∀ unit core, unit ≠ 7 → unit ≠ 8 → unit ≠ 11 →
      ((s.core core).testing = false → (s.core core).retired = false →
        ∃ t, exec (.selfTestStart unit core) s = .next t ∧ Claims.TestsCores s t unit core [core]) ∧
      ((s.core core).testing = true ∨ (s.core core).retired = true → exec (.selfTestStart unit core) s = .next s) ∧
      ((s.core core).testing = true → Claims.TestEnds s unit core 12 [core])) ∧
    (∀ cl,
      let cores := [4 * cl, 4 * cl + 1, 4 * cl + 2, 4 * cl + 3]
      ((∀ k ∈ cores, (s.core k).testing = false ∧ (s.core k).retired = false) →
        ∃ t, exec (.selfTestStart 11 cl) s = .next t ∧ Claims.TestsCores s t 11 cl cores) ∧
      ((∀ k ∈ cores, (s.core k).testing = true) → Claims.TestEnds s 11 cl 11 cores)) ∧
    (∀ loc pass,
      let counts := fun (t : State) (c : Nat) => if pass then (t.cluster c).trans = min 255 ((s.cluster c).trans + 1)
        else t.clusters = s.clusters
      (s.slices.getD loc 0 = 1 → ∃ t, exec (.selfTestComplete 7 loc pass) s = .next t ∧
        t.slices.getD loc 0 = (if pass then 0 else 2) ∧ counts t (s.metIn.getD (2 * loc) 0)) ∧
      (s.rows.getD loc 0 % 2 = 1 → ∃ t, exec (.selfTestComplete 8 loc pass) s = .next t ∧
        t.rows.getD loc 0 = (if pass then s.rows.getD loc 0 - 1 else 2) ∧ counts t (s.metIn.getD (2 * loc + 1) 0))) ∧
    (∀ core bank, bank < 16 →
      let held := fun k => (s.wave k).waiting = true ∧ (s.wave k).loading = true
      let backs := fun k => ∃ r, r < 8 * (s.wave k).granules ∧ r % 16 = bank ∧ (s.wave k).isDemoted r = false
      (∃ t, exec (.bankDrowsyEntry core bank) s = .next t ∧ t.waves = s.waves ∧
        ((∀ k ∈ s.wavesOn core, backs k → held k) → (t.core core).drowsy.getLsbD bank = true) ∧
        ((∃ k ∈ s.wavesOn core, backs k ∧ ¬held k) → t = s)) ∧
      ∃ t, exec (.bankWake core bank) s = .next t ∧ t.waves = s.waves ∧ (t.core core).drowsy.getLsbD bank = false) ∧
    ∀ k,
      let w := s.wave k
      let waits := fun l => bit w.eligible l = true ∧ w.ipc < (lane w.duct l).toNat
      let ripe := w.ppoint.getLsbD 17 = true ∧ w.backBranch = true ∧ w.ppoint.toNat % 2 ^ 17 ≤ w.timer
      (w.quantumDue = false → ¬ripe → exec (.quantumStart k) s = .next s) ∧
      (w.regen = [] → w.stay = none → w.quantum = none → (∃ l, l < 32 ∧ waits l) → (w.quantumDue = true ∨ ripe) →
        ∃ t q, exec (.quantumStart k) s = .next t ∧ (t.wave k).quantum = some (q, 0) ∧ (t.wave k).timer = 0 ∧
          (t.wave k).dx = w.dx ∧ (t.wave k).file = w.file ∧
          ∀ l, l < 32 → (bit q l = true ↔ waits l ∧ ∀ j, j < 32 → waits j → (lane w.duct l).toNat ≤ (lane w.duct j).toNat))

namespace Sys2Proof.Claims

/-! ### Steps, encodings and the memories -/

/-- The parcel at a generic address, through a core's translation: the two bytes that physical memory holds. -/
def Parcel (s s1 : State) (core c va : Nat) (b : List Byte) : Prop :=
  va < Config.stackBase ∧ ∃ pa x t, translate s core c va { fetch := true } = (t, .ok (pa, x)) ∧ isHostPa pa = false ∧
    t.badCode pa = none ∧ (∀ old, (t.core core).icache.get? pa = some old → old = leNat (memReadN t.hbm pa 2)) ∧
    b = memReadN t.hbm pa 2 ∧ s.fetchParcel core c va = (s1, .parcel b)
/-- The bytes of an instruction at a generic address, of one parcel or two (R255). -/
def Bytes (s s1 : State) (core c va : Nat) (b : List Byte) : Prop :=
  (Parcel s s1 core c va b ∧ (b.headD 0).getLsbD 0 = false) ∨
    ∃ t b1 b2, Parcel s t core c va b1 ∧ (b1.headD 0).getLsbD 0 = true ∧ Parcel t s1 core c (va + 2) b2 ∧ b = b1 ++ b2
/-- What time and the selector change leaves the waves' registers and PCs, and the memories, as they were. -/
def Aside (s t : State) : Prop :=
  (∀ j, (t.wave j).file = (s.wave j).file ∧ (t.wave j).dx = (s.wave j).dx ∧ (t.wave j).hdx = (s.wave j).hdx ∧
    (t.wave j).control = (s.wave j).control ∧ (t.wave j).storeQ = (s.wave j).storeQ) ∧
    t.hbm = s.hbm ∧ t.host = s.host ∧ t.groups = s.groups ∧ t.launches = s.launches ∧
    ∀ k b, (t.core k).buf b = (s.core k).buf b ∧ (t.core k).l1 = (s.core k).l1
/-- The time of a state after an issue: the cycle goes on while another wave may issue in it, else it has ended (R199). -/
def CycleGoesOn (s t : State) : Prop := (t.now = s.now ∧ t.choose ≠ none) ∨ (t.now = s.now + 1 ∧ t.issuedNow = [])
end Sys2Proof.Claims

/-- R165, R199, R255, R269: a move that is due is the execution of its row. Otherwise the wave that the selector takes issues:
where nothing is due before its instruction and the bytes at its issue PC decode to a well-formed instruction, the step is the
execution of that instruction, in which the wave moves past it; an XMOD and the instruction after it execute as a pair. Other
waves may issue in the same cycle, one a step, until no slot and wave fit; then a cycle passes. The selector takes the oldest
ready wave with a free slot, one that was passed over for 32 cycles first. With no wave ready, time passes to the next move or
the end of the microsecond. That the waves of a cycle issue one after another, and each instruction in its one cycle, is the
model's choice (logs 3 and 4). -/
def Obligations.StepRunsDecodedInstruction : Prop :=
  (∀ (t0 : Nat) (e : Event) (rest : List (Nat × Event)) (s : State) (i : Instr), s.agenda = (t0, e) :: rest → t0 ≤ s.now →
    e.isRow i →
    match exec i { s with agenda := rest } with
    | .next t => ∃ t', step s = .next t' ∧ Claims.Aside t t' ∧ t'.now = t.now ∧ t'.agenda = t.agenda
    | .fault f => step s = .fault f
    | .refused r => step s = .refused r) ∧
  (∀ (k : Nat) (s : State), (∀ p ∈ s.agenda, s.now < p.1) → s.choose = some k → (s.waves.get? k).isSome = true →
    (s.cluster (clusterOf (s.group (s.wave k).group).core)).gated = false →
    let s0 := s.take k
    s0.cur = k ∧ s0.waves = s.waves ∧ Claims.Aside s s0 ∧
    (s0.beforeIssue = none → s0.w.regen = [] → ∀ s1 b i n, Claims.Bytes s0 s1 s0.g.core s0.g.ctx (s0.g.ep.addr + 64 + s0.w.ipc) b →
      decode s0.g.ep.gen b = some (i, n) → WellFormed i →
      s1.cur = k ∧ s1.waves = s.waves ∧ Claims.Aside s s1 ∧
      ((∀ x, i ≠ .xmod x) →
        match exec i s1 with
        | .next t => ∃ t', step s = .next t' ∧ Claims.Aside t t' ∧ Claims.CycleGoesOn t t'
        | .fault f => step s = .fault f
        | .refused r => step s = .refused r) ∧
      (∀ x t t1 b2 j m, i = .xmod x → exec (.xmod x) s1 = .next t → t.w.pre.isSome = true → t.w.regen = [] → t.cur = k →
        Claims.Bytes t t1 t.g.core t.g.ctx (t.g.ep.addr + 64 + (t.w.ipc + 4)) b2 → decode t1.g.ep.gen b2 = some (j, m) →
        match exec j t1 with
        | .next u => ∃ u', step s = .next u' ∧ Claims.Aside u u' ∧ Claims.CycleGoesOn u u'
        | .fault f => step s = .fault f
        | .refused r => step s = .refused r))) ∧
  (∀ (s : State) (k : Nat), s.turn = [] → s.choose = some k →
    (s.waves.get? k).isSome = true ∧ s.ready k = true ∧ s.slotFree k = true ∧
      ∀ j, (s.waves.get? j).isSome = true → s.ready j = true → s.slotFree j = true →
        let late := fun i => 32 ≤ s.passed.getD i 0
        (late j → late k) ∧ ((late k → late j) → (s.wave k).placed < (s.wave j).placed ∨
          ((s.wave k).placed = (s.wave j).placed ∧ (s.wave k).slot ≤ (s.wave j).slot))) ∧
  ∀ (s : State), (∀ p ∈ s.agenda, s.now < p.1) → s.choose = none →
    ∃ t, step s = .next t ∧ Claims.Aside s t ∧ s.now < t.now ∧ t.now / 2000 ≤ s.now / 2000 + 1

/-- R255 to R271: words of the families, written out from the encoding tables, decode to the instructions for which they stand. -/
def Obligations.WordsOfTheFamilies : Prop :=
  (∀ q ∈ ([
      (0x2AF3428D, .movi 5 0xABCD), (0x000A4191, .sadd 3 4 5), (0x6002021D, .reduceAddF32 4 8), (0x22030431, .fmulF32 8 12 16),
      (0x00010435, .fexpF32 8 4), (0x100002BD, .jsrr 5), (0x000001BD, .setjord 3), (0x28110441, .ld 8 4 2 2 2 0),
      (0x08188349, .atom 6 2 3 0 0), (0x00082053, .bind 2 4), (0x30008055, .grow 2), (0x26004261, .cpy 4 1 0 6 1 0),
      (0x00040067, .spush 16), (0x00C14269, .mmaPtBf16 4 5 6 false), (0x00E5006B, .mgather 20 7), (0x00A1046D, .rqalloc 8 4 5),
      (0x0001826F, .ctxnew 4 6), (0x200042F1, .csrr 5 1), (0x500102F1, .pwrreqGate 5 4), (0x00014073, .trap 5)] : List (Nat × Instr)),
    decode 3 (leBytes 4 q.1) = some (q.2, 4)) ∧
  (∀ q ∈ ([(0x1920, .iaddC16 9 3), (0x1936, .imaxC16 9 3)] : List (Nat × Instr)), decode 3 (leBytes 2 q.1) = some (q.2, 2)) ∧
  decode 3 (leBytes 2 0) = none

/-- R255 to R271, R279, R280: the decoder reads from the word of a well-formed instruction that instruction, with every operand at
every value that its encoding admits, and its length.

The model's choice: of the rows of the opcode table that share an encoding the decoder answers the first (log 12). -/
def Obligations.DecodeOfEncode : Prop :=
  ∀ (i : Instr) (x n : Nat) (rest : List Byte), WellFormed i → encodeWord i = some (x, n) →
    encode i = leBytes n x ∧ decode i.gen (encode i ++ rest) = some (i.row, n)

/-- R256, R273, R274: what the Roltik-3 decoder reads is a well-formed instruction, and the bytes are the encoding of it: no bit
of a word is ignored, and no word stands for two instructions. -/
def Obligations.EncodeOfDecode : Prop :=
  ∀ (bs : List Byte) (i : Instr) (n : Nat), decode 3 bs = some (i, n) → WellFormed i ∧ encode i = bs.take n

/-- Log 1, log 2: every step keeps the canonical form of the memories, in which equal memories are equal data. -/
def Obligations.StepKeepsMemoriesCanonical : Prop :=
  ∀ (s t : State), s.memWf = true → step s = .next t → t.memWf = true

/-- R208, R210, R211, R436, R443: at power-on the memories list nothing, no context, launch, group or wave exists, every front end
is disabled, every domain is ungated at point 24 with undervolt 0 and a droop hold of 2 us, no core is retired, and the health
words read their reset values.

The model's choices: the memories list nothing, so that HBM and the host's memory read as zero where nothing has been written
(logs 1 and 2; the spec gives no contents), and the point of a domain is that of the default configuration block (log 7). -/
def Obligations.ResetState : Prop :=
  let s := State.reset
  s.memWf = true ∧ s.hbm = [] ∧ s.host = [] ∧ s.up = false ∧ s.now = 0 ∧
    (∀ k, s.waves.get? k = none ∧ s.groups.get? k = none ∧ s.launches.get? k = none ∧ s.ctxs.get? k = none) ∧
    (∀ f, (s.frontEnd f).enable = false ∧ (s.frontEnd f).status = 0 ∧ (s.frontEnd f).consumed = 0 ∧ (s.frontEnd f).events = 0) ∧
    (∀ d, (s.domain d).point = 24 ∧ (s.domain d).underv = 0 ∧ (s.domain d).gated = false ∧ (s.domain d).auto = false ∧
      (s.domain d).hold = 8) ∧
    (∀ c, (s.cluster c).guard = 0 ∧ (s.cluster c).trans = 0 ∧ (s.cluster c).eol = 0xFFFFFFFF) ∧
    ∀ k, (s.core k).retired = false ∧ (s.core k).tlb = [] ∧ (s.core k).l1 = []
end

