-- ==== Sys2Proof/Laws/Tab.lean ====
section
/-!
SUPPORT. Laws of the containers: tables, lanes, masks and byte memories.
-/

namespace Sys2Proof.Machine

/-! ### Tables -/

theorem rowsGet_rowsSet_same {α : Type} (d : α) (l : List (Nat × α)) (k : Nat) (v : α) :
    rowsGet d (rowsSet l k v) k = v := by
  induction l with
  | nil => simp [rowsSet, rowsGet]
  | cons p t ih =>
    obtain ⟨j, u⟩ := p
    simp only [rowsSet]
    split_ifs with h1 h2
    · simp [rowsGet]
    · simp [rowsGet]
    · simp only [rowsGet]
      rw [if_neg (fun h => h2 h.symm)]
      exact ih

theorem rowsGet_rowsSet_other {α : Type} (d : α) (l : List (Nat × α)) {k j : Nat} (h : j ≠ k) (v : α) :
    rowsGet d (rowsSet l k v) j = rowsGet d l j := by
  induction l with
  | nil => simp [rowsSet, rowsGet, h.symm]
  | cons p t ih =>
    obtain ⟨i, u⟩ := p
    simp only [rowsSet]
    split_ifs with h1 h2
    · simp [rowsGet, h.symm]
    · subst h2
      simp [rowsGet, h.symm]
    · simp only [rowsGet]
      rw [ih]

/-- Reading the key that was set. -/
@[simp] theorem Tab.getD_set_same {α : Type} (t : Tab α) (k : Nat) (v d : α) : (t.set k v).getD k d = v :=
  rowsGet_rowsSet_same d t.rows k v

/-- Reading another key. -/
theorem Tab.getD_set_other {α : Type} (t : Tab α) {k j : Nat} (h : j ≠ k) (v d : α) : (t.set k v).getD j d = t.getD j d :=
  rowsGet_rowsSet_other d t.rows h v

/-- Reading any key after a set. -/
theorem Tab.getD_set {α : Type} (t : Tab α) (k j : Nat) (v d : α) :
    (t.set k v).getD j d = if j = k then v else t.getD j d := by
  split_ifs with h
  · subst h; simp
  · exact Tab.getD_set_other t h v d

/-- Another row after a row was removed. -/
theorem Tab.get?_erase_other {α : Type} (t : Tab α) {k j : Nat} (h : j ≠ k) : (t.erase k).get? j = t.get? j := by
  unfold Tab.get? Tab.erase
  simp only
  induction t.rows with
  | nil => rfl
  | cons p l ih =>
    simp only [rowsErase, List.map_cons, rowsGet]
    by_cases e : k = p.1
    · rw [if_pos e, if_neg (by omega)]
      exact ih
    · rw [if_neg e, List.map_cons, rowsGet]
      split_ifs
      · rfl
      · exact ih

/-- The later of two writes to one key stays. -/
@[simp] theorem Tab.set_set {α : Type} (t : Tab α) (k : Nat) (u v : α) : (t.set k u).set k v = t.set k v := by
  obtain ⟨l⟩ := t
  simp only [Tab.set, Tab.mk.injEq]
  induction l with
  | nil => simp [rowsSet]
  | cons p t ih =>
    obtain ⟨j, x⟩ := p
    simp only [rowsSet]
    split_ifs with h1 h2
    · simp [rowsSet]
    · simp [rowsSet]
    · simp only [rowsSet]
      rw [if_neg h1, if_neg h2, ih]

/-! ### Lanes and masks -/

/-- Lane `l` of the vector built from `f`. -/
@[simp] theorem lane_lanesOf (f : Nat → Word) {l : Nat} (h : l < 32) : lane (lanesOf f) l = f l := by
  interval_cases l <;> rfl

/-- Two vectors with the same lanes are equal. -/
theorem lanes_ext {x y : Lanes} (h : ∀ l, l < 32 → lane x l = lane y l) : x = y := by
  apply Vector.ext
  intro i hi
  have := h i hi
  simpa [lane, List.getD_eq_getElem?_getD, hi] using this

/-- A write by the lanes of a mask, lane by lane. -/
theorem lane_blend (m : Word) (n v : Lanes) {l : Nat} (h : l < 32) :
    lane (blend m n v) l = if bit m l then lane n l else lane v l := by
  simp [blend, h]

/-- The sum of powers that a mask is made of: its bits. -/
theorem testBit_powers (p : Nat → Bool) (m k : Nat) :
    ∃ q, (List.range' k m).foldr (fun l n => (if p l then 2 ^ l else 0) + n) 0 = 2 ^ k * q ∧
      ∀ i, q.testBit i = (decide (i < m) && p (k + i)) := by
  induction m generalizing k with
  | zero => exact ⟨0, by simp, by simp⟩
  | succ m ih =>
    obtain ⟨q, h1, h2⟩ := ih (k + 1)
    refine ⟨2 * q + (p k).toNat, ?_, ?_⟩
    · rw [List.range'_succ, List.foldr_cons, h1]
      cases p k <;> simp <;> ring
    · intro i
      cases i with
      | zero => cases h : p k <;> simp [Nat.testBit_zero]
      | succ i =>
        rw [Nat.testBit_succ]
        have : (2 * q + (p k).toNat) / 2 = q := by cases p k <;> (simp; try omega)
        rw [this, h2]
        simp [Nat.add_assoc, Nat.add_comm 1 i]

/-- Bit `l` of the mask built from `p`. -/
@[simp] theorem bit_maskOf (p : Nat → Bool) {l : Nat} (h : l < 32) : bit (maskOf p) l = p l := by
  obtain ⟨q, h1, h2⟩ := testBit_powers p 32 0
  have e : laneList = List.range' 0 32 := rfl
  rw [bit, maskOf, e, h1, BitVec.getLsbD_ofNat, Nat.pow_zero, Nat.one_mul, h2]
  simp [h]

/-- Two masks with the same bits are equal. -/
theorem mask_ext {x y : Word} (h : ∀ l, l < 32 → bit x l = bit y l) : x = y := by
  apply BitVec.eq_of_getLsbD_eq
  intro i hi
  exact h i hi

/-- A mask with a bit set is not zero. -/
theorem mask_ne_zero {x : Word} {l : Nat} (h : bit x l = true) : x ≠ 0 := by
  intro e
  rw [e] at h
  simp [bit] at h

/-- A mask that is not zero has a bit set. -/
theorem mask_exists {x : Word} (h : x ≠ 0) : ∃ l, l < 32 ∧ bit x l = true := by
  by_contra c
  apply h
  apply mask_ext
  intro l hl
  have : bit x l = false := by
    by_contra e
    exact c ⟨l, hl, by simpa using e⟩
  rw [this]
  simp [bit]

/-- The lanes of a mask. -/
theorem mem_lanesIn {m : Word} {l : Nat} : l ∈ lanesIn m ↔ l < 32 ∧ bit m l = true := by
  have e : laneList = List.range 32 := rfl
  rw [lanesIn, List.mem_filter, e, List.mem_range]

/-! ### Memories -/

theorem memRead_memWrite_same (m : Memory) (a : Nat) (b : Byte) (h : memWf m = true) :
    memRead (memWrite m a b) a = b := by
  induction m with
  | nil =>
    simp only [memWrite]
    split_ifs with hb <;> simp [memRead, hb]
  | cons p t ih =>
    obtain ⟨j, c⟩ := p
    have ht : memWf t = true := by
      cases t with
      | nil => rfl
      | cons q r =>
        obtain ⟨k, d⟩ := q
        simp [memWf] at h
        exact h.2
    simp only [memWrite]
    split_ifs with h1 h2 h3 h4
    · subst h2
      rw [memRead, if_neg (by omega), if_pos h1]
    · simp [memRead]
    · subst h3
      subst h4
      cases t with
      | nil => rfl
      | cons q r =>
        obtain ⟨k, d⟩ := q
        simp [memWf] at h
        simp only [memRead]
        rw [if_neg (by omega), if_pos (by omega)]
    · simp [memRead]
    · simp only [memRead]
      rw [if_neg (by omega), if_neg (by omega)]
      exact ih ht

theorem memRead_below (m : Memory) {a : Nat} (h : ∀ c ∈ m, a < c.1) : memRead m a = 0 := by
  cases m with
  | nil => rfl
  | cons p t =>
    obtain ⟨j, b⟩ := p
    have := h (j, b) (by simp)
    simp only at this
    rw [memRead, if_neg (by omega), if_pos this]

/-- The canonical form, entry by entry. -/
theorem memWf_cons (j : Nat) (b : Byte) (t : Memory) :
    memWf ((j, b) :: t) = true ↔ b ≠ 0 ∧ (∀ c ∈ t, j < c.1) ∧ memWf t = true := by
  induction t generalizing j b with
  | nil => simp [memWf]
  | cons q r ih =>
    obtain ⟨k, d⟩ := q
    simp only [memWf, Bool.and_eq_true, bne_iff_ne, ne_eq, decide_eq_true_eq]
    rw [ih k d]
    constructor
    · rintro ⟨⟨h1, h2⟩, h3, h4, h5⟩
      refine ⟨h1, ?_, h3, h4, h5⟩
      intro c hc
      rcases List.mem_cons.mp hc with rfl | hc
      · exact h2
      · exact lt_trans h2 (h4 c hc)
    · rintro ⟨h1, h2, h3, h4, h5⟩
      exact ⟨⟨h1, h2 (k, d) (by simp)⟩, h3, h4, h5⟩

theorem mem_memWrite (m : Memory) (a : Nat) (b : Byte) {c : Host.Cell} (h : c ∈ memWrite m a b) : c = (a, b) ∨ c ∈ m := by
  induction m with
  | nil =>
    simp only [memWrite] at h
    split_ifs at h
    · simp at h
    · simpa using h
  | cons p t ih =>
    obtain ⟨j, d⟩ := p
    simp only [memWrite] at h
    split_ifs at h
    · exact .inr h
    · simpa using h
    · exact .inr (by simp [h])
    · rcases List.mem_cons.mp h with h | h
      · exact .inl h
      · exact .inr (by simp [h])
    · rcases List.mem_cons.mp h with h | h
      · exact .inr (by simp [h])
      · rcases ih h with h | h
        · exact .inl h
        · exact .inr (by simp [h])

/-- A write keeps the canonical form. -/
theorem memWf_memWrite (m : Memory) (a : Nat) (b : Byte) (h : memWf m = true) : memWf (memWrite m a b) = true := by
  induction m with
  | nil =>
    simp only [memWrite]
    split_ifs with hb
    · rfl
    · simpa [memWf] using hb
  | cons p t ih =>
    obtain ⟨j, d⟩ := p
    obtain ⟨h1, h2, h3⟩ := (memWf_cons j d t).mp h
    simp only [memWrite]
    split_ifs with c1 c2 c3 c4
    · exact h
    · rw [memWf_cons]
      refine ⟨c2, ?_, h⟩
      intro c hc
      rcases List.mem_cons.mp hc with rfl | hc
      · exact c1
      · exact lt_trans c1 (h2 c hc)
    · exact h3
    · subst c3
      rw [memWf_cons]
      exact ⟨c4, h2, h3⟩
    · rw [memWf_cons]
      refine ⟨h1, ?_, ih h3⟩
      intro c hc
      rcases mem_memWrite t a b hc with rfl | hc
      · simp only; omega
      · exact h2 c hc

/-- A write leaves every other address alone. -/
theorem memRead_memWrite_other (m : Memory) {a x : Nat} (hx : x ≠ a) (b : Byte) (h : memWf m = true) :
    memRead (memWrite m a b) x = memRead m x := by
  induction m with
  | nil =>
    simp only [memWrite]
    split_ifs <;> simp [memRead, hx.symm]
  | cons p t ih =>
    obtain ⟨j, d⟩ := p
    obtain ⟨_, h2, h3⟩ := (memWf_cons j d t).mp h
    simp only [memWrite]
    split_ifs with c1 c2 c3 c4
    · rfl
    · rw [memRead, if_neg (by omega)]
      split_ifs with c5
      · rw [memRead, if_neg (by omega), if_pos (by omega)]
      · rfl
    · subst c3
      rw [memRead, if_neg (by omega)]
      split_ifs with c5
      · exact memRead_below t fun c hc => lt_trans c5 (h2 c hc)
      · rfl
    · subst c3
      simp [memRead, hx.symm]
    · simp only [memRead]
      rw [ih h3]

/-- A write of several bytes keeps the canonical form. -/
theorem memWf_memWriteN (m : Memory) (a : Nat) (x : List Byte) (h : memWf m = true) : memWf (memWriteN m a x) = true := by
  induction x generalizing m a with
  | nil => exact h
  | cons b t ih => exact ih _ _ (memWf_memWrite m a b h)

/-- A write of several bytes leaves every address outside them alone. -/
theorem memRead_memWriteN_other (m : Memory) (a : Nat) (x : List Byte) {y : Nat} (hy : y < a ∨ a + x.length ≤ y)
    (h : memWf m = true) : memRead (memWriteN m a x) y = memRead m y := by
  induction x generalizing m a with
  | nil => rfl
  | cons b t ih =>
    simp only [List.length_cons] at hy
    simp only [memWriteN]
    rw [ih _ _ (by omega) (memWf_memWrite m a b h), memRead_memWrite_other m (by omega) b h]

/-- A write of several bytes, read back. -/
theorem memRead_memWriteN_in (m : Memory) (a : Nat) (x : List Byte) {i : Nat} (hi : i < x.length)
    (h : memWf m = true) : memRead (memWriteN m a x) (a + i) = x[i] := by
  induction x generalizing m a i with
  | nil => simp at hi
  | cons b t ih =>
    simp only [memWriteN]
    cases i with
    | zero =>
      rw [memRead_memWriteN_other _ _ _ (by omega) (memWf_memWrite m a b h)]
      simpa using memRead_memWrite_same m a b h
    | succ i =>
      have := ih (memWrite m a b) (a + 1) (i := i) (by simpa using hi) (memWf_memWrite m a b h)
      rw [show a + (i + 1) = a + 1 + i by omega, this]
      simp

/-- Zeroing keeps the canonical form. -/
theorem memWf_filter (m : Memory) (p : Host.Cell → Bool) (h : memWf m = true) : memWf (m.filter p) = true := by
  induction m with
  | nil => rfl
  | cons q t ih =>
    obtain ⟨j, d⟩ := q
    obtain ⟨h1, h2, h3⟩ := (memWf_cons j d t).mp h
    rw [List.filter_cons]
    split_ifs
    · rw [memWf_cons]
      exact ⟨h1, fun c hc => h2 c (List.mem_of_mem_filter hc), ih h3⟩
    · exact ih h3

/-- Zeroing a range keeps the canonical form. -/
theorem memWf_memClear (m : Memory) (lo hi : Nat) (h : memWf m = true) : memWf (memClear m lo hi) = true :=
  memWf_filter m _ h

end Sys2Proof.Machine
end

