-- ==== Sys2Proof/Laws/State.lean ====
section
/-!
SUPPORT. Laws of the state's rows: what is read after a row was set.
-/

namespace Sys2Proof.Machine

@[simp] theorem State.setWave_cur (s : State) (k : Nat) (w : Wave) : (s.setWave k w).cur = s.cur := rfl
@[simp] theorem State.setW_cur (s : State) (w : Wave) : (s.setW w).cur = s.cur := rfl
@[simp] theorem State.setW_now (s : State) (w : Wave) : (s.setW w).now = s.now := rfl
@[simp] theorem State.setW_groups (s : State) (w : Wave) : (s.setW w).groups = s.groups := rfl
@[simp] theorem State.setW_cores (s : State) (w : Wave) : (s.setW w).cores = s.cores := rfl
@[simp] theorem State.setW_ctxs (s : State) (w : Wave) : (s.setW w).ctxs = s.ctxs := rfl
@[simp] theorem State.setW_launches (s : State) (w : Wave) : (s.setW w).launches = s.launches := rfl
@[simp] theorem State.setW_hbm (s : State) (w : Wave) : (s.setW w).hbm = s.hbm := rfl
@[simp] theorem State.setW_host (s : State) (w : Wave) : (s.setW w).host = s.host := rfl
@[simp] theorem State.setW_agenda (s : State) (w : Wave) : (s.setW w).agenda = s.agenda := rfl
@[simp] theorem State.setW_turn (s : State) (w : Wave) : (s.setW w).turn = s.turn := rfl
@[simp] theorem State.setW_passed (s : State) (w : Wave) : (s.setW w).passed = s.passed := rfl
@[simp] theorem State.setW_issuedNow (s : State) (w : Wave) : (s.setW w).issuedNow = s.issuedNow := rfl
@[simp] theorem State.setW_flash (s : State) (w : Wave) : (s.setW w).flash = s.flash := rfl
@[simp] theorem State.setW_firmware (s : State) (w : Wave) : (s.setW w).firmware = s.firmware := rfl
@[simp] theorem State.setW_config (s : State) (w : Wave) : (s.setW w).config = s.config := rfl
@[simp] theorem State.setW_up (s : State) (w : Wave) : (s.setW w).up = s.up := rfl
@[simp] theorem State.setW_msc (s : State) (w : Wave) : (s.setW w).msc = s.msc := rfl
@[simp] theorem State.setW_walkers (s : State) (w : Wave) : (s.setW w).walkers = s.walkers := rfl
@[simp] theorem State.setW_slices (s : State) (w : Wave) : (s.setW w).slices = s.slices := rfl
@[simp] theorem State.setW_rows (s : State) (w : Wave) : (s.setW w).rows = s.rows := rfl
@[simp] theorem State.setW_metIn (s : State) (w : Wave) : (s.setW w).metIn = s.metIn := rfl
@[simp] theorem State.setW_uncorr (s : State) (w : Wave) : (s.setW w).uncorr = s.uncorr := rfl
@[simp] theorem State.setW_clusters (s : State) (w : Wave) : (s.setW w).clusters = s.clusters := rfl
@[simp] theorem State.setW_domains (s : State) (w : Wave) : (s.setW w).domains = s.domains := rfl
@[simp] theorem State.setW_hbmStacks (s : State) (w : Wave) : (s.setW w).hbmStacks = s.hbmStacks := rfl
@[simp] theorem State.setW_frontEnds (s : State) (w : Wave) : (s.setW w).frontEnds = s.frontEnds := rfl
@[simp] theorem State.setW_tickets (s : State) (w : Wave) : (s.setW w).tickets = s.tickets := rfl
@[simp] theorem State.setW_starts (s : State) (w : Wave) : (s.setW w).starts = s.starts := rfl
@[simp] theorem State.setW_admitted (s : State) (w : Wave) : (s.setW w).admitted = s.admitted := rfl
@[simp] theorem State.setW_report (s : State) (w : Wave) : (s.setW w).report = s.report := rfl
@[simp] theorem State.setW_sent (s : State) (w : Wave) : (s.setW w).sent = s.sent := rfl
@[simp] theorem State.setW_nextGroup (s : State) (w : Wave) : (s.setW w).nextGroup = s.nextGroup := rfl
@[simp] theorem State.setW_nextLaunch (s : State) (w : Wave) : (s.setW w).nextLaunch = s.nextLaunch := rfl
@[simp] theorem State.setW_nextTicket (s : State) (w : Wave) : (s.setW w).nextTicket = s.nextTicket := rfl
@[simp] theorem State.setW_placements (s : State) (w : Wave) : (s.setW w).placements = s.placements := rfl
@[simp] theorem State.setW_group (s : State) (w : Wave) (g : Nat) : (s.setW w).group g = s.group g := rfl
@[simp] theorem State.setW_core (s : State) (w : Wave) (c : Nat) : (s.setW w).core c = s.core c := rfl
@[simp] theorem State.setW_ctx (s : State) (w : Wave) (c : Nat) : (s.setW w).ctx c = s.ctx c := rfl
@[simp] theorem State.setW_launch (s : State) (w : Wave) (l : Nat) : (s.setW w).launch l = s.launch l := rfl
@[simp] theorem State.setW_cluster (s : State) (w : Wave) (c : Nat) : (s.setW w).cluster c = s.cluster c := rfl
@[simp] theorem State.setW_domain (s : State) (w : Wave) (d : Nat) : (s.setW w).domain d = s.domain d := rfl
@[simp] theorem State.setW_frontEnd (s : State) (w : Wave) (f : Nat) : (s.setW w).frontEnd f = s.frontEnd f := rfl

/-- The issuing wave after it was set. -/
@[simp] theorem State.setW_w (s : State) (w : Wave) : (s.setW w).w = w := by
  simp [State.w, State.setW, State.setWave, State.wave]
/-- The later of two settings of the issuing wave stays. -/
@[simp] theorem State.setW_setW (s : State) (u w : Wave) : (s.setW u).setW w = s.setW w := by
  simp [State.setW, State.setWave]
/-- A wave after a wave was set. -/
theorem State.wave_setWave (s : State) (k j : Nat) (w : Wave) :
    (s.setWave k w).wave j = if j = k then w else s.wave j := by
  simp [State.setWave, State.wave, Tab.getD_set]
/-- Another wave after the issuing wave was set. -/
theorem State.wave_setW (s : State) (w : Wave) (j : Nat) : (s.setW w).wave j = if j = s.cur then w else s.wave j :=
  State.wave_setWave s s.cur j w
/-- A group after a group was set. -/
theorem State.group_setGroup (s : State) (k j : Nat) (x : Group) :
    (s.setGroup k x).group j = if j = k then x else s.group j := by
  simp [State.setGroup, State.group, Tab.getD_set]
/-- A core after a core was set. -/
theorem State.core_setCore (s : State) (k j : Nat) (x : Core) :
    (s.setCore k x).core j = if j = k then x else s.core j := by
  simp [State.setCore, State.core, Tab.getD_set]
/-- A cluster after a cluster was set. -/
theorem State.cluster_setCluster (s : State) (k j : Nat) (x : Cluster) :
    (s.setCluster k x).cluster j = if j = k then x else s.cluster j := by
  simp [State.setCluster, State.cluster, Tab.getD_set]
/-- A domain after a domain was set. -/
theorem State.domain_setDomain (s : State) (k j : Nat) (x : Domain) :
    (s.setDomain k x).domain j = if j = k then x else s.domain j := by
  simp [State.setDomain, State.domain, Tab.getD_set]
/-- A context after a context was set. -/
theorem State.ctx_setCtx (s : State) (k j : Nat) (x : Context) :
    (s.setCtx k x).ctx j = if j = k then x else s.ctx j := by
  simp [State.setCtx, State.ctx, Tab.getD_set]
/-- A launch after a launch was set. -/
theorem State.launch_setLaunch (s : State) (k j : Nat) (x : Launch) :
    (s.setLaunch k x).launch j = if j = k then x else s.launch j := by
  simp [State.setLaunch, State.launch, Tab.getD_set]
/-- A front end after a front end was set. -/
theorem State.frontEnd_setFrontEnd (s : State) (k j : Nat) (x : FrontEnd) :
    (s.setFrontEnd k x).frontEnd j = if j = k then x else s.frontEnd j := by
  simp [State.setFrontEnd, State.frontEnd, Tab.getD_set]

@[simp] theorem State.setGroup_waves (s : State) (k : Nat) (x : Group) : (s.setGroup k x).waves = s.waves := rfl
@[simp] theorem State.setCore_waves (s : State) (k : Nat) (x : Core) : (s.setCore k x).waves = s.waves := rfl
@[simp] theorem State.setCtx_waves (s : State) (k : Nat) (x : Context) : (s.setCtx k x).waves = s.waves := rfl
@[simp] theorem State.setLaunch_waves (s : State) (k : Nat) (x : Launch) : (s.setLaunch k x).waves = s.waves := rfl
@[simp] theorem State.setGroup_cur (s : State) (k : Nat) (x : Group) : (s.setGroup k x).cur = s.cur := rfl
@[simp] theorem State.setCore_cur (s : State) (k : Nat) (x : Core) : (s.setCore k x).cur = s.cur := rfl
@[simp] theorem State.setCtx_cur (s : State) (k : Nat) (x : Context) : (s.setCtx k x).cur = s.cur := rfl
@[simp] theorem State.setLaunch_cur (s : State) (k : Nat) (x : Launch) : (s.setLaunch k x).cur = s.cur := rfl
@[simp] theorem State.setGroup_w (s : State) (k : Nat) (x : Group) : (s.setGroup k x).w = s.w := rfl
@[simp] theorem State.setCore_w (s : State) (k : Nat) (x : Core) : (s.setCore k x).w = s.w := rfl
@[simp] theorem State.setCtx_w (s : State) (k : Nat) (x : Context) : (s.setCtx k x).w = s.w := rfl
@[simp] theorem State.setLaunch_w (s : State) (k : Nat) (x : Launch) : (s.setLaunch k x).w = s.w := rfl
@[simp] theorem State.setGroup_core (s : State) (k : Nat) (x : Group) (n : Nat) : (s.setGroup k x).core n = s.core n := rfl
@[simp] theorem State.setCore_group (s : State) (k : Nat) (x : Core) (n : Nat) : (s.setCore k x).group n = s.group n := rfl

/-! ### Registers -/

/-- A register of the bits of a vector after one bit was set. -/
@[simp] theorem getLsbD_setBit {n : Nat} (x : BitVec n) (i : Nat) (b : Bool) (j : Nat) :
    (setBit x i b).getLsbD j = if j = i ∧ j < n then b else x.getLsbD j := by
  unfold setBit
  by_cases hj : j < n
  · by_cases h : j = i
    · subst h
      cases b <;> simp [hj]
    · have : ¬ (i = j) := fun e => h e.symm
      cases b
      · simp [hj, h]
      · simp [h, this]
  · have : x.getLsbD j = false := BitVec.getLsbD_of_ge x j (by omega)
    cases b
    · simpa [hj] using this
    · simp only [if_true, BitVec.getLsbD_or, this, BitVec.getLsbD_twoPow, Bool.false_or, hj, and_false, if_false]
      simp only [Bool.and_eq_false_imp, decide_eq_true_eq, decide_eq_false_iff_not]
      omega

/-- Vector registers after the lanes `m` of one were written. -/
theorem Wave.vreg_writeV (w : Wave) (m : Word) (r : Nat) (x : Lanes) (q : Nat) :
    (w.writeV m r x).vreg q = if q = r then blend m x (w.vreg r) else w.vreg q := by
  have : (w.writeV m r x).v = w.v.set r (blend m x (w.vreg r)) := by
    unfold Wave.writeV Wave.ordinary
    by_cases h : w.regen.isEmpty <;> simp [h, Wave.vreg]
  rw [Wave.vreg, this, Tab.getD_set]
  rfl

/-- The full/empty bits after a register was written. -/
theorem Wave.isEmpty_writeV (w : Wave) (m : Word) (r : Nat) (x : Lanes) (q : Nat) :
    (w.writeV m r x).isEmpty q = if q = r ∧ q < 128 then w.dem else w.isEmpty q := by
  have : (w.writeV m r x).empty = setBit w.empty r w.dem := by
    unfold Wave.writeV Wave.ordinary
    by_cases h : w.regen.isEmpty <;> simp [h, Wave.dem]
  rw [Wave.isEmpty, this, getLsbD_setBit]
  rfl

end Sys2Proof.Machine
end

