-- ==== Sys2Proof/Laws/Move.lean ====
section
/-!
SUPPORT. What stands before an instruction's effect, and what moving past an instruction does.
-/

namespace Sys2Proof.Machine

/-! ### Before the effect -/

/-- Nothing stands before the effect exactly when the instruction is ready. -/
theorem prepare_eq_none (s : State) (n : Nat) (os : List Opnd) (chk : Option Trap) :
    prepare s n os chk = none ↔ Ready s n os chk := by
  unfold prepare beforeChecks Ready
  cases h1 : operandTrap s.w n os
  · cases h2 : busy s.w os
    · cases h3 : scalarFault s.w n os
      · cases h4 : chk
        · cases h5 : pinned s.w n os
          · cases h6 : askSources s.w n os
            · cases h7 : askDests s.w os <;> simp
            · simp
          · simp
        · simp
      · simp
    · simp
  · simp

/-- The state in which a ready instruction takes effect: its reads are uses of the sets that it reads (R190). -/
def State.touched (s : State) (os : List Opnd) : State := s.setW (s.w.touch s.now os)

/-- A ready instruction takes its effect. -/
theorem withOperands_ready {s : State} {n : Nat} {os : List Opnd} {chk : Option Trap} (h : Ready s n os chk)
    (body : State → Out) : withOperands s n os chk body = body (s.touched os) := by
  rw [withOperands, (prepare_eq_none s n os chk).mpr h]
  rfl

/-- A read changes nothing of a wave but the times of use in its recipes. -/
theorem Wave.touch_eq (w : Wave) (now : Nat) (os : List Opnd) :
    w.touch now os = { w with recipes := (w.touch now os).recipes } := by
  unfold Wave.touch
  split_ifs <;> rfl

theorem find_entry_used (l : List Recipe) (p : Recipe → Bool) (now e : Nat) :
    ((l.map fun x => if p x then { x with used := now } else x).find? fun x => x.entry == e) =
      ((l.find? fun x => x.entry == e).map fun x => if p x then { x with used := now } else x) := by
  induction l with
  | nil => rfl
  | cons x t ih =>
    simp only [List.map_cons, List.find?_cons]
    by_cases hp : p x <;> by_cases h : x.entry == e <;> simp [hp, h, ih]

theorem Wave.touch_recipe (w : Wave) (now : Nat) (os : List Opnd) :
    (w.touch now os).regenRecipe = none ∧ w.regenRecipe = none ∨
      ∃ x t, w.regenRecipe = some x ∧ (w.touch now os).regenRecipe = some { x with used := t } := by
  unfold Wave.touch
  split_ifs with h
  · cases hr : w.regenRecipe with
    | none => exact .inl ⟨rfl, rfl⟩
    | some x => exact .inr ⟨x, x.used, rfl, rfl⟩
  · unfold Wave.regenRecipe
    simp only
    cases w.regen with
    | nil => exact .inl ⟨rfl, rfl⟩
    | cons r rest =>
      simp only [find_entry_used]
      cases hf : w.recipes.find? fun x => x.entry == r.entry with
      | none => exact .inl ⟨rfl, rfl⟩
      | some x =>
        refine .inr ⟨x, if (x.regs.any fun a => ((os.filter (·.src.isSome)).flatMap (·.regs w.order)).contains a)
          then now else x.used, rfl, ?_⟩
        simp only [Option.map_some]
        split_ifs <;> rfl

@[simp] theorem Wave.touch_issuing (w : Wave) (now : Nat) (os : List Opnd) : (w.touch now os).issuing = w.issuing := by
  have e : (w.touch now os).here = w.here := by rw [Wave.touch_eq]; rfl
  unfold Wave.issuing
  rcases w.touch_recipe now os with ⟨h1, h2⟩ | ⟨x, t, h1, h2⟩ <;> rw [h1, h2]
  exact e

@[simp] theorem Wave.touch_active (w : Wave) (now : Nat) (os : List Opnd) : (w.touch now os).active = w.active := by
  have e : (w.touch now os).predicate = w.predicate := by rw [Wave.touch_eq]; rfl
  rw [Wave.active, Wave.active, e, Wave.touch_issuing]

@[simp] theorem Wave.touch_order (w : Wave) (now : Nat) (os : List Opnd) : (w.touch now os).order = w.order := by
  have e : (w.touch now os).jord = w.jord := by rw [Wave.touch_eq]
  unfold Wave.order
  rcases w.touch_recipe now os with ⟨h1, h2⟩ | ⟨x, t, h1, h2⟩ <;> rw [h1, h2]
  simp only [e]

@[simp] theorem Wave.touch_fpctlNow (w : Wave) (now : Nat) (os : List Opnd) : (w.touch now os).fpctlNow = w.fpctlNow := by
  have e : (w.touch now os).fpctl = w.fpctl := by rw [Wave.touch_eq]
  unfold Wave.fpctlNow
  rcases w.touch_recipe now os with ⟨h1, h2⟩ | ⟨x, t, h1, h2⟩ <;> rw [h1, h2]
  exact e

@[simp] theorem Wave.touch_regen (w : Wave) (now : Nat) (os : List Opnd) : (w.touch now os).regen = w.regen := by
  rw [Wave.touch_eq]
@[simp] theorem Wave.touch_pre (w : Wave) (now : Nat) (os : List Opnd) : (w.touch now os).pre = w.pre := by
  rw [Wave.touch_eq]
@[simp] theorem Wave.touch_vreg (w : Wave) (now : Nat) (os : List Opnd) (r : Nat) : (w.touch now os).vreg r = w.vreg r := by
  rw [Wave.touch_eq]; rfl
@[simp] theorem Wave.touch_sreg (w : Wave) (now : Nat) (os : List Opnd) (r : Nat) : (w.touch now os).sreg r = w.sreg r := by
  rw [Wave.touch_eq]; rfl
@[simp] theorem Wave.touch_mreg (w : Wave) (now : Nat) (os : List Opnd) (r : Nat) : (w.touch now os).mreg r = w.mreg r := by
  rw [Wave.touch_eq]; rfl
@[simp] theorem Wave.touch_isEmpty (w : Wave) (now : Nat) (os : List Opnd) (r : Nat) :
    (w.touch now os).isEmpty r = w.isEmpty r := by
  rw [Wave.touch_eq]; rfl
@[simp] theorem Wave.touch_dem (w : Wave) (now : Nat) (os : List Opnd) : (w.touch now os).dem = w.dem := by
  rw [Wave.touch_eq]; rfl
@[simp] theorem Wave.touch_perm (w : Wave) (now : Nat) (os : List Opnd) (x : Lanes) : (w.touch now os).perm x = w.perm x := by
  rw [Wave.touch_eq]; rfl
@[simp] theorem Wave.touch_predicate (w : Wave) (now : Nat) (os : List Opnd) : (w.touch now os).predicate = w.predicate := by
  rw [Wave.touch_eq]; rfl
@[simp] theorem Wave.touch_third (w : Wave) (now : Nat) (os : List Opnd) (d : Nat) : (w.touch now os).third d = w.third d := by
  rw [Wave.touch_eq]; rfl
@[simp] theorem Wave.touch_control (w : Wave) (now : Nat) (os : List Opnd) : (w.touch now os).control = w.control := by
  rw [Wave.touch_eq]; rfl

@[simp] theorem State.touched_w (s : State) (os : List Opnd) : (s.touched os).w = s.w.touch s.now os := by
  simp [State.touched]
@[simp] theorem State.touched_vreg (s : State) (os : List Opnd) (r : Nat) : (s.touched os).vreg r = s.vreg r := by
  simp [State.vreg]
@[simp] theorem State.touched_vaReg (s : State) (os : List Opnd) (r : Nat) : (s.touched os).vaReg r = s.vaReg r := by
  simp [State.vaReg]
@[simp] theorem State.touched_sreg (s : State) (os : List Opnd) (r : Nat) : (s.touched os).sreg r = s.sreg r := by
  simp [State.sreg]
@[simp] theorem State.touched_mreg (s : State) (os : List Opnd) (r : Nat) : (s.touched os).mreg r = s.mreg r := by
  simp [State.mreg]
theorem State.touched_group (s : State) (os : List Opnd) : (s.touched os).w.group = s.w.group := by
  rw [State.touched_w, Wave.touch_eq]
@[simp] theorem State.touched_g (s : State) (os : List Opnd) : (s.touched os).g = s.g := by
  rw [State.g, State.g, State.touched_group]
  rfl
@[simp] theorem State.touched_compat (s : State) (os : List Opnd) (i : Nat) : (s.touched os).compat i = s.compat i := by
  rw [State.compat, State.compat, State.touched_g]
@[simp] theorem State.setW_touched (s : State) (os : List Opnd) (w : Wave) : (s.touched os).setW w = s.setW w := by
  simp [State.touched]

/-! ### Moving on -/

theorem Wave.duct_setDuct (w : Wave) (d : Lanes) : (w.setDuct d).duct = d := by
  unfold Wave.setDuct Wave.duct
  cases w.handler <;> simp

/-- The lanes' PCs after a move. -/
theorem Wave.lane_land (w : Wave) (tgt : Nat → Word) {l : Nat} (h : l < 32) :
    lane (w.land tgt).duct l = if bit w.here l then tgt l else lane w.duct l := by
  rw [Wave.land, Wave.duct_setDuct, lane_lanesOf _ h]

theorem Wave.settle_handler (w w2 : Wave) (back : Bool) : (w.settle w2 back).handler = w2.handler := by
  simp only [Wave.settle]
theorem Wave.settle_dx (w w2 : Wave) (back : Bool) : (w.settle w2 back).dx = w2.dx := by
  simp only [Wave.settle]
theorem Wave.settle_hdx (w w2 : Wave) (back : Bool) : (w.settle w2 back).hdx = w2.hdx := by
  simp only [Wave.settle]
theorem Wave.settle_duct (w w2 : Wave) (back : Bool) : (w.settle w2 back).duct = w2.duct := by
  rw [Wave.duct, Wave.duct, Wave.settle_handler, Wave.settle_dx, Wave.settle_hdx]

theorem Wave.moveTo_duct (w : Wave) (tgt : Nat → Word) (moved branch ends : Bool) :
    (w.moveTo tgt moved branch ends).duct = (w.land tgt).duct := by
  rw [Wave.moveTo, Wave.settle_duct]
  simp only [Wave.duct]

/-- The lanes' PCs after a move. -/
theorem Wave.lane_moveTo (w : Wave) (tgt : Nat → Word) (moved branch ends : Bool) {l : Nat} (h : l < 32) :
    lane (w.moveTo tgt moved branch ends).duct l = if bit w.here l then tgt l else lane w.duct l := by
  rw [Wave.moveTo_duct, Wave.lane_land w tgt h]

theorem Wave.land_eq (w : Wave) (tgt : Nat → Word) : w.land tgt = { w with dx := (w.land tgt).dx, hdx := (w.land tgt).hdx } := by
  unfold Wave.land Wave.setDuct
  cases w.handler <;> rfl

/-- A move changes the Ductus, the issue state of the wave, and nothing else of it. -/
theorem Wave.moveTo_eq (w : Wave) (tgt : Nat → Word) (moved branch ends : Bool) :
    ∃ dx hdx q b t n, w.moveTo tgt moved branch ends = { w with
      dx := dx, hdx := hdx, quantum := q, backBranch := b, timer := t, nib := n
      pre := none, waiting := false, stay := none, scanned := false, checked := false, retryAt := 0, bankWait := none
      needs := [] } := by
  unfold Wave.moveTo Wave.settle
  rw [Wave.land_eq]
  exact ⟨_, _, _, _, _, _, rfl⟩

/-- A lane that is not retired after a move keeps the wave alive. -/
theorem Wave.live_moveTo (w : Wave) (tgt : Nat → Word) (moved branch ends : Bool) {l : Nat} (h : l < 32)
    (hl : (if bit w.here l then tgt l else lane w.duct l) ≠ 0xFFFFFFFF) :
    (w.moveTo tgt moved branch ends).live ≠ 0 := by
  apply mask_ne_zero (l := l)
  rw [Wave.live, bit_maskOf _ h, Wave.lane_moveTo _ _ _ _ _ h]
  simpa using hl

/-- Outside a replay, a wave that keeps a live lane just moves. -/
theorem State.finishAt_plain (s : State) (n : Nat) (tgt : Nat → Word) (moved branch ends : Bool) (hr : s.w.regen = [])
    {l : Nat} (h : l < 32) (hl : (if bit s.w.here l then tgt l else lane s.w.duct l) ≠ 0xFFFFFFFF) :
    s.finishAt n tgt moved branch ends = s.setW (s.w.moveTo tgt moved branch ends) := by
  unfold State.finishAt
  simp only [hr, State.setW_w]
  rw [if_neg]
  intro c
  exact s.w.live_moveTo tgt moved branch ends h hl c.2

/-- In a replay, the slice moves to its next instruction. -/
theorem State.finishAt_replay (s : State) (n : Nat) (tgt : Nat → Word) (moved branch ends : Bool) {r : Regen} {rest : List Regen}
    (hr : s.w.regen = r :: rest) :
    s.finishAt n tgt moved branch ends = s.setW { s.w with
      regen := { r with pc := r.pc + n + (if s.w.pre.isSome then 4 else 0), left := r.left - 1 } :: rest
      pre := none, waiting := false, scanned := false } := by
  unfold State.finishAt
  simp only [hr]

/-- An even issue PC leads to an offset that is not that of a retired lane. -/
theorem Wave.nextPc_live (w : Wave) (n : Nat) (hn : n % 2 = 0) (h : w.ipc % 2 = 0) : w.nextPc n ≠ 0xFFFFFFFF := by
  intro e
  have e2 : (w.nextPc n).toNat % 2 = 1 := by rw [e]; rfl
  rw [Wave.nextPc, BitVec.toNat_ofNat] at e2
  split_ifs at e2 <;> omega

end Sys2Proof.Machine
end

