-- ==== Sys2Proof/Laws/Execute.lean ====
section
/-!
SUPPORT. What an instruction that acts on its wave's registers leaves: the frame, once for every such instruction.
-/

namespace Sys2Proof.Machine

/-- The two waves choose their lanes alike, and stand alike toward memory. -/
structure Wave.SameIssue (w u : Wave) : Prop where
  dx : u.dx = w.dx
  hdx : u.hdx = w.hdx
  handler : u.handler = w.handler
  sleeping : u.sleeping = w.sleeping
  quantum : u.quantum = w.quantum
  regen : u.regen = w.regen
  pre : u.pre = w.pre
  storeQ : u.storeQ = w.storeQ
  group : u.group = w.group
  stay : u.stay = w.stay
  rest : u.rest = w.rest
  nib : u.nib = w.nib
  timer : u.timer = w.timer
  due : u.quantumDue = w.quantumDue

theorem Wave.SameIssue.duct {w u : Wave} (h : w.SameIssue u) : u.duct = w.duct := by
  rw [Wave.duct, Wave.duct, h.dx, h.hdx, h.handler]
theorem Wave.SameIssue.pool {w u : Wave} (h : w.SameIssue u) : u.pool = w.pool := by
  rw [Wave.pool, Wave.pool, Wave.eligible, Wave.eligible, Wave.live, Wave.live, h.duct, h.handler, h.sleeping, h.quantum]
theorem Wave.SameIssue.ipc {w u : Wave} (h : w.SameIssue u) : u.ipc = w.ipc := by
  rw [Wave.ipc, Wave.ipc, h.stay, h.pool, h.duct]
theorem Wave.SameIssue.here {w u : Wave} (h : w.SameIssue u) : u.here = w.here := by
  rw [Wave.here, Wave.here, h.stay, h.pool, h.duct, h.ipc]
theorem Wave.SameIssue.nextPc {w u : Wave} (h : w.SameIssue u) (n : Nat) : u.nextPc n = w.nextPc n := by
  rw [Wave.nextPc, Wave.nextPc, h.ipc, h.pre]

theorem Wave.touch_same (w : Wave) (now : Nat) (os : List Opnd) : w.SameIssue (w.touch now os) := by
  rw [Wave.touch_eq]
  exact ⟨rfl, rfl, rfl, rfl, rfl, rfl, rfl, rfl, rfl, rfl, rfl, rfl, rfl, rfl⟩
theorem Wave.writeV_same (w : Wave) (m : Word) (r : Nat) (x : Lanes) : w.SameIssue (w.writeV m r x) := by
  unfold Wave.writeV Wave.ordinary
  split_ifs <;> exact ⟨rfl, rfl, rfl, rfl, rfl, rfl, rfl, rfl, rfl, rfl, rfl, rfl, rfl, rfl⟩
theorem Wave.writeS_same (w : Wave) (r : Nat) (x : DWord) : w.SameIssue (w.writeS r x) :=
  ⟨rfl, rfl, rfl, rfl, rfl, rfl, rfl, rfl, rfl, rfl, rfl, rfl, rfl, rfl⟩
theorem Wave.writeM_same (w : Wave) (m : Word) (r : Nat) (x : Word) : w.SameIssue (w.writeM m r x) :=
  ⟨rfl, rfl, rfl, rfl, rfl, rfl, rfl, rfl, rfl, rfl, rfl, rfl, rfl, rfl⟩
theorem Wave.SameIssue.trans {w u x : Wave} (h : w.SameIssue u) (k : u.SameIssue x) : w.SameIssue x :=
  ⟨k.dx.trans h.dx, k.hdx.trans h.hdx, k.handler.trans h.handler, k.sleeping.trans h.sleeping, k.quantum.trans h.quantum,
   k.regen.trans h.regen, k.pre.trans h.pre, k.storeQ.trans h.storeQ, k.group.trans h.group,
   k.stay.trans h.stay, k.rest.trans h.rest, k.nib.trans h.nib, k.timer.trans h.timer, k.due.trans h.due⟩

theorem Wave.moveTo_file (w : Wave) (tgt : Nat → Word) (moved branch ends : Bool) :
    (w.moveTo tgt moved branch ends).file = w.file ∧ (w.moveTo tgt moved branch ends).control = w.control ∧
      (w.moveTo tgt moved branch ends).rest = w.rest ∧ (w.moveTo tgt moved branch ends).regen = w.regen ∧
      (w.moveTo tgt moved branch ends).recipes = w.recipes ∧ (w.moveTo tgt moved branch ends).deferred = w.deferred ∧
      (w.moveTo tgt moved branch ends).bad = w.bad ∧ (w.moveTo tgt moved branch ends).sleeping = w.sleeping ∧
      (w.moveTo tgt moved branch ends).quantumDue = w.quantumDue := by
  obtain ⟨dx, hdx, q, b, t, n, e⟩ := w.moveTo_eq tgt moved branch ends
  rw [e]
  exact ⟨rfl, rfl, rfl, rfl, rfl, rfl, rfl, rfl, rfl⟩

theorem Wave.settle_timer (w w2 : Wave) (back : Bool) :
    (w.settle w2 back).timer = if w.timerReset { w2 with stay := none } then 0 else w.timer := by
  simp only [Wave.settle]
theorem Wave.settle_nib (w w2 : Wave) (back : Bool) : (w.settle w2 back).nib = w2.nibAfter := by
  simp only [Wave.settle]
theorem Wave.settle_quantum (w w2 : Wave) (back : Bool) : (w.settle w2 back).quantum = w2.quantum := by
  simp only [Wave.settle]
theorem Wave.land_nib (w : Wave) (tgt : Nat → Word) : (w.land tgt).nib = w.nib := by
  rw [Wave.land_eq]

theorem Wave.moveTo_dx (w : Wave) (tgt : Nat → Word) (moved branch ends : Bool) :
    (w.moveTo tgt moved branch ends).dx = (w.land tgt).dx := by
  rw [Wave.moveTo, Wave.settle_dx]

/-- A move counts an instruction of the quantum under way (R169). -/
theorem Wave.moveTo_quantum (w : Wave) (tgt : Nat → Word) :
    (w.moveTo tgt false false false).quantum = w.quantum.bind fun q =>
      if 64 ≤ q.2 + 1 ∨ (w.moveTo tgt false false false).live &&& q.1 = 0 then none else some (q.1, q.2 + 1) := by
  have e : (w.moveTo tgt false false false).live = (w.land tgt).live := by
    rw [Wave.live, Wave.live, Wave.moveTo_duct]
  rw [e, Wave.moveTo, Wave.settle_quantum]
  unfold Wave.quantumAfter
  cases w.quantum with
  | none => rfl
  | some q => simp

/-- A move keeps the fairness timer, or resets it. -/
theorem Wave.moveTo_timer (w : Wave) (tgt : Nat → Word) (moved branch ends : Bool) :
    (w.moveTo tgt moved branch ends).timer = w.timer ∨ (w.moveTo tgt moved branch ends).timer = 0 := by
  rw [Wave.moveTo, Wave.settle_timer]
  split_ifs
  · exact .inr rfl
  · exact .inl rfl

/-- A move keeps the Nib lane while it does not retire (R174). -/
theorem Wave.moveTo_nib (w : Wave) (tgt : Nat → Word) (moved branch ends : Bool) (h : w.nib < 32)
    (hl : lane (w.land tgt).dx w.nib ≠ 0xFFFFFFFF) : (w.moveTo tgt moved branch ends).nib = w.nib := by
  rw [Wave.moveTo, Wave.settle_nib, Wave.nibAfter]
  simp only [Wave.land_nib]
  rw [if_pos]
  rw [bit_maskOf _ h]
  simpa using hl

/-- Setting the issuing wave with its queue and its group kept leaves every byte as every wave reads it. -/
theorem State.peek_setW (s : State) (w : Wave) (hq : w.storeQ = s.w.storeQ) (hg : w.group = s.w.group) (k : Nat)
    (x : Nat × Nat) : (s.setW w).peek k x = s.peek k x := by
  have e : (s.setW w).byteAt = s.byteAt := rfl
  rw [State.peek, State.peek, State.wave_setW, e]
  split_ifs with h
  · subst h
    rw [hq, hg]
    rfl
  · rfl

/-- What the issue of a ready instruction of `n` bytes leaves, that changes its wave to `u` before it moves on. -/
theorem State.finish_spec (s : State) (u : Wave) (n : Nat) (hn : n % 2 = 0) (h : Issues s) (hu : s.w.SameIssue u) :
    ∃ t, (s.setW u).finish n = t ∧ t = s.setW t.w ∧ MovedOn s t n ∧ t.w.file = u.file ∧ t.w.control = u.control ∧
      t.w.rest = s.w.rest ∧ t.w.recipes = u.recipes ∧ t.w.deferred = u.deferred ∧ t.w.bad = u.bad ∧ Paced s t := by
  refine ⟨_, rfl, ?_⟩
  cases hr : s.w.regen with
  | cons r rest =>
    have hr' : (s.setW u).w.regen = r :: rest := by rw [State.setW_w, hu.regen, hr]
    rw [State.finish, State.finishAt_replay _ _ _ _ _ _ hr']
    simp only [State.setW_w, State.setW_setW]
    refine ⟨trivial, ?_, rfl, rfl, hu.rest, trivial, trivial, trivial, ?_⟩
    · rw [MovedOn, hr]
      simp only [State.setW_w]
      refine ⟨?_, by rw [hu.pre]⟩
      rw [← hu.duct]
      rfl
    · refine ⟨?_, ?_, .inl ?_, fun _ _ => ?_, ?_⟩ <;> simp only [State.setW_w]
      · exact hu.sleeping
      · exact hu.due
      · exact hu.timer
      · exact hu.nib
      · rw [hr, if_neg (by simp)]
        exact hu.quantum
  | nil =>
    rcases h with h | ⟨h1, h2⟩
    · exact absurd hr h
    obtain ⟨l, hl, hb⟩ := mask_exists h1
    have hr' : (s.setW u).w.regen = [] := by rw [State.setW_w, hu.regen, hr]
    have hlive : (if bit (s.setW u).w.here l then (s.setW u).w.nextPc n else lane (s.setW u).w.duct l) ≠ 0xFFFFFFFF := by
      rw [State.setW_w, hu.here, hb, if_pos rfl, hu.nextPc]
      exact s.w.nextPc_live n hn h2
    rw [State.finish, State.finishAt_plain _ _ _ _ _ _ hr' hl hlive]
    simp only [State.setW_w, State.setW_setW]
    obtain ⟨f1, f2, f3, f4, f5, f6, f7, f8, f9⟩ := u.moveTo_file (fun _ => u.nextPc n) false false false
    refine ⟨trivial, ?_, f1, f2, f3.trans hu.rest, f5, f6, f7, ?_⟩
    · rw [MovedOn, hr]
      intro i hi
      simp only [State.setW_w]
      rw [Wave.lane_moveTo _ _ _ _ _ hi, hu.here, hu.nextPc, hu.duct]
    · refine ⟨?_, ?_, ?_, fun i1 i2 => ?_, ?_⟩ <;> simp only [State.setW_w]
      · rw [f8, hu.sleeping]
      · rw [f9, hu.due]
      · rcases u.moveTo_timer (fun _ => u.nextPc n) false false false with e | e
        · exact .inl (e.trans hu.timer)
        · exact .inr ⟨hr, e⟩
      · rw [← hu.nib]
        apply Wave.moveTo_nib
        · rw [hu.nib]; exact i1
        · rw [hu.nib]
          unfold Wave.land Wave.setDuct
          cases hh : u.handler
          · simp only [Bool.false_eq_true, if_false]
            rw [lane_lanesOf _ i1]
            split_ifs
            · rw [hu.nextPc]; exact s.w.nextPc_live n hn h2
            · rw [Wave.duct, hh, hu.dx]; exact i2
          · simp only [if_true]
            rw [hu.dx]; exact i2
      · rw [hr, if_pos rfl, Wave.moveTo_quantum, hu.quantum]

/-- The issue of an instruction that changes registers of its wave alone. -/
theorem State.executed (s : State) (u : Wave) (n : Nat) (vs ss ms : List Nat) (fl : Bool) (hn : n % 2 = 0) (h : Issues s)
    (hu : s.w.SameIssue u) (hr : SameRegs s (s.setW u) vs ss ms fl) (hk : SameRecipes s.w u vs)
    (hd : ∀ r, r ∉ vs → u.deferred.get? r = s.w.deferred.get? r ∧ u.bad.getD r 0 = s.w.bad.getD r 0) :
    ∃ t, (s.setW u).finish n = t ∧ Executed s t n vs ss ms fl ∧ t.w.file = u.file := by
  obtain ⟨t, e, h1, h2, h3, h4, h5, h6, h7, h8, h9⟩ := s.finish_spec u n hn h hu
  refine ⟨t, e, ⟨⟨h1, ?_, h5, ?_, ?_, ?_⟩, h2, h9⟩, h3⟩
  · have g := h3
    simp only [Wave.file, Prod.mk.injEq] at g
    obtain ⟨g1, g2, g3, g4, g5, g6, g7, _⟩ := g
    refine ⟨?_, ?_, ?_, ?_, ?_⟩
    · intro r hr'
      have := hr.vector r hr'
      rw [State.setW_w] at this
      rw [Wave.vreg, Wave.isEmpty, g1, g2]
      exact this
    · intro r hr'
      have := hr.scalar r hr'
      rw [State.setW_w] at this
      rw [Wave.sreg, g3, g4]
      exact this
    · intro r hr'
      have := hr.mask r hr'
      rw [State.setW_w] at this
      rw [Wave.mreg, g5, g6]
      exact this
    · intro hf
      have := hr.flags hf
      rw [State.setW_w] at this
      rw [g7]
      exact this
    · have := hr.control
      rw [State.setW_w] at this
      rw [h4]
      exact this
  · rw [SameRecipes, h6]
    exact hk
  · rw [h7, h8]
    exact hd
  · intro k x
    rw [h1]
    have g := h5
    simp only [Wave.rest, Prod.mk.injEq] at g
    exact s.peek_setW t.w g.2.1.2.1 g.1.1 k x

end Sys2Proof.Machine
end

