-- ==== Sys2Proof/Laws/Lanes.lean ====
section
/-!
SUPPORT. What the shared operations that write one register of the wave leave, once for each of them.
-/

namespace Sys2Proof.Machine


theorem writeV_regs (s : State) (m : Word) (d : Nat) (x : Lanes) (os : List Opnd) :
    SameRegs s (s.setW ((s.w.touch s.now os).writeV m d x)) [d] [] [] false := by
  have key : ∀ w : Wave, (w.writeV m d x).s = w.s ∧ (w.writeV m d x).sbusy = w.sbusy ∧ (w.writeV m d x).m = w.m ∧
      (w.writeV m d x).mbusy = w.mbusy ∧ (w.writeV m d x).jsr = w.jsr ∧ (w.writeV m d x).control = w.control := by
    intro w
    unfold Wave.writeV Wave.ordinary
    split_ifs <;> exact ⟨rfl, rfl, rfl, rfl, rfl, rfl⟩
  obtain ⟨k1, k2, k3, k4, k5, k6⟩ := key (s.w.touch s.now os)
  have e := s.w.touch_eq s.now os
  refine ⟨?_, ?_, ?_, ?_, ?_⟩
  · intro r hr
    simp only [List.mem_singleton] at hr
    rw [State.setW_w, Wave.vreg_writeV, Wave.isEmpty_writeV, if_neg hr, if_neg (fun h => hr h.1)]
    simp
  · intro r _
    rw [State.setW_w, Wave.sreg, k1, k2, e]
    exact ⟨rfl, rfl⟩
  · intro r _
    rw [State.setW_w, Wave.mreg, k3, k4, e]
    exact ⟨rfl, rfl⟩
  · intro _
    rw [State.setW_w, k5, e]
  · rw [State.setW_w, k6]
    simp

/-- A read changes the recipes' times of use alone. -/
theorem touch_recipes (w : Wave) (now : Nat) (os : List Opnd) : SameRecipes w (w.touch now os) [] := by
  refine ⟨fun y hy => ?_, fun x hx _ => ?_, fun _ _ _ r h => by simp at h⟩
  · unfold Wave.touch at hy
    split_ifs at hy with e
    · exact ⟨y, hy, y.used, rfl⟩
    · simp only [List.mem_map] at hy
      obtain ⟨x, hx, rfl⟩ := hy
      refine ⟨x, hx, ?_⟩
      split_ifs
      · exact ⟨now, rfl⟩
      · exact ⟨x.used, rfl⟩
  · unfold Wave.touch
    split_ifs with e
    · exact ⟨x, hx, x.used, rfl⟩
    · refine ⟨_, List.mem_map.mpr ⟨x, hx, rfl⟩, ?_⟩
      split_ifs
      · exact ⟨now, rfl⟩
      · exact ⟨x.used, rfl⟩

theorem mem_regs (x : Recipe) (r : Nat) : r ∈ x.regs ↔ x.dest ≤ r ∧ r < x.dest + x.count := by
  simp only [Recipe.regs, List.mem_map, List.mem_range]
  constructor
  · rintro ⟨a, h, rfl⟩
    omega
  · intro h
    exact ⟨r - x.dest, by omega, by omega⟩

theorem Recipe.alike_regs {x y : Recipe} (h : x.alike y) : y.regs = x.regs := by
  obtain ⟨t, rfl⟩ := h
  rfl

/-- A write makes the set of its register ordinary, outside a replay (R189). -/
theorem writeV_recipes (w : Wave) (now : Nat) (os : List Opnd) (m : Word) (d : Nat) (x : Lanes) :
    SameRecipes w ((w.touch now os).writeV m d x) [d] := by
  obtain ⟨t1, t2, _⟩ := touch_recipes w now os
  have e : ((w.touch now os).writeV m d x).recipes =
      if w.regen.isEmpty then (w.touch now os).recipes.filter fun y => !(decide (y.dest ≤ d) && decide (d < y.dest + y.count))
      else (w.touch now os).recipes := by
    unfold Wave.writeV
    rw [Wave.touch_regen]
    split_ifs <;> rfl
  have keep : ∀ y ∈ ((w.touch now os).writeV m d x).recipes, y ∈ (w.touch now os).recipes := by
    intro y hy
    rw [e] at hy
    split_ifs at hy
    · exact (List.mem_filter.mp hy).1
    · exact hy
  refine ⟨fun y hy => t1 y (keep y hy), fun r hr hd => ?_, fun h0 y hy q hq => ?_⟩
  · obtain ⟨y, hy, ha⟩ := t2 r hr (by simp)
    refine ⟨y, ?_, ha⟩
    rw [e]
    split_ifs
    · refine List.mem_filter.mpr ⟨hy, ?_⟩
      have := hd d (by simp)
      rw [← Recipe.alike_regs ha, mem_regs] at this
      simp only [Bool.not_eq_true', Bool.and_eq_false_iff, decide_eq_false_iff_not]
      omega
    · exact hy
  · rw [e, h0] at hy
    simp only [List.isEmpty_nil, if_true, List.mem_filter] at hy
    simp only [List.mem_singleton] at hq
    rw [hq, mem_regs]
    have := hy.2
    simp only [Bool.not_eq_true', Bool.and_eq_false_iff, decide_eq_false_iff_not] at this
    omega

/-- A write clears the deferred fault and the uncorrectable words of its register alone. -/
theorem writeV_faults (w : Wave) (m : Word) (d : Nat) (x : Lanes) (r : Nat) (h : r ≠ d) :
    (w.writeV m d x).deferred.get? r = w.deferred.get? r ∧ (w.writeV m d x).bad.getD r 0 = w.bad.getD r 0 := by
  have e : (w.writeV m d x).deferred = w.deferred.erase d ∧ (w.writeV m d x).bad = badCure w.bad m d := by
    unfold Wave.writeV Wave.ordinary
    split_ifs <;> exact ⟨rfl, rfl⟩
  rw [e.1, e.2]
  refine ⟨Tab.get?_erase_other _ h, ?_⟩
  unfold badCure
  split_ifs
  · rfl
  · exact Tab.getD_set_other _ h _ _

theorem putV_spec (s : State) (n d : Nat) (x : Lanes) (f : Nat → Word) (os : List Opnd) (hd : d < 128) (hn : n % 2 = 0) (h : Issues s)
    (hx : ∀ l, l < 32 → lane x l = f l) :
    ∃ t, (s.touched os).putV n d x = .next t ∧ Wrote s t d f ∧ Executed s t n [d] [] [] false := by
  have hu : s.w.SameIssue ((s.w.touch s.now os).writeV (s.touched os).w.active d x) :=
    (s.w.touch_same s.now os).trans (Wave.writeV_same _ _ _ _)
  obtain ⟨t, e, h1, h2⟩ := s.executed ((s.w.touch s.now os).writeV (s.touched os).w.active d x) n [d] [] [] false hn h hu
    (writeV_regs s _ d x os) (writeV_recipes _ _ _ _ _ _) fun r hr => by
      rw [List.mem_singleton] at hr
      have e := s.w.touch_eq s.now os
      have := writeV_faults (s.w.touch s.now os) (s.touched os).w.active d x r hr
      rw [this.1, this.2, e]
      exact ⟨rfl, rfl⟩
  refine ⟨t, ?_, ?_, h1⟩
  · rw [State.putV, State.writeV, State.touched_w, State.setW_touched, ← e, State.touched_w]
  · have g : t.w.v = _ ∧ t.w.empty = _ := ⟨congrArg (·.1) h2, congrArg (·.2.1) h2⟩
    constructor
    · intro l hl
      have e1 : t.w.vreg d = (((s.w.touch s.now os).writeV (s.touched os).w.active d x)).vreg d := by
        rw [Wave.vreg, g.1]; rfl
      rw [e1, Wave.vreg_writeV, if_pos rfl, lane_blend _ _ _ hl, State.touched_w, Wave.touch_active, Wave.touch_vreg, hx l hl]
    · have e1 : t.w.isEmpty d = (((s.w.touch s.now os).writeV (s.touched os).w.active d x)).isEmpty d := by
        rw [Wave.isEmpty, g.2]; rfl
      rw [e1, Wave.isEmpty_writeV, if_pos ⟨rfl, hd⟩, Wave.touch_dem]

theorem laneBin_spec (s : State) (d a b : Nat) (f g : Word → Word → Word) (hd : d < 128) (hf : ∀ x y, f x y = g x y)
    (hr : Ready s 4 (opsBin d a b) none) (h : Issues s) :
    ∃ t, laneBin d a b f s = .next t ∧ Wrote s t d (fun l => g (lane (s.vaReg a) l) (lane (s.vreg b) l)) ∧
      Executed s t 4 [d] [] [] false := by
  rw [laneBin, withOperands_ready hr]
  apply putV_spec s 4 d _ _ _ hd rfl h
  intro l hl
  rw [lane_lanesOf _ hl, State.touched_vaReg, State.touched_vreg, hf]

theorem laneUn_spec (s : State) (d a : Nat) (f g : Word → Word) (hd : d < 128) (hf : ∀ x, f x = g x)
    (hr : Ready s 4 (opsUn d a) none) (h : Issues s) :
    ∃ t, laneUn d a f s = .next t ∧ Wrote s t d (fun l => g (lane (s.vaReg a) l)) ∧
      Executed s t 4 [d] [] [] false := by
  rw [laneUn, withOperands_ready hr]
  apply putV_spec s 4 d _ _ _ hd rfl h
  intro l hl
  rw [lane_lanesOf _ hl, State.touched_vaReg, hf]

theorem laneC16_spec (s : State) (d b : Nat) (f g : Word → Word → Word) (hd : d < 128) (hf : ∀ x y, f x y = g x y)
    (hr : Ready s 2 (opsC16 d b) none) (h : Issues s) :
    ∃ t, laneC16 d b f s = .next t ∧ Wrote s t d (fun l => g (lane (s.vaReg d) l) (lane (s.vreg b) l)) ∧
      Executed s t 2 [d] [] [] false := by
  rw [laneC16, withOperands_ready hr]
  apply putV_spec s 2 d _ _ _ hd rfl h
  intro l hl
  rw [lane_lanesOf _ hl, State.touched_vaReg, State.touched_vreg, hf]

theorem laneC16Un_spec (s : State) (d b : Nat) (f g : Word → Word) (hd : d < 128) (hf : ∀ x, f x = g x)
    (hr : Ready s 2 (opsC16Un d b) none) (h : Issues s) :
    ∃ t, laneC16Un d b f s = .next t ∧ Wrote s t d (fun l => g (lane (s.vaReg b) l)) ∧
      Executed s t 2 [d] [] [] false := by
  rw [laneC16Un, withOperands_ready hr]
  apply putV_spec s 2 d _ _ _ hd rfl h
  intro l hl
  rw [lane_lanesOf _ hl, State.touched_vaReg, hf]

theorem writeS_regs (s : State) (d : Nat) (x : DWord) (os : List Opnd) :
    SameRegs s (s.setW ((s.w.touch s.now os).writeS d x)) [] [d] [] false := by
  rw [s.w.touch_eq s.now os]
  refine ⟨?_, ?_, ?_, ?_, ?_⟩
  · intro r _
    rw [State.setW_w]
    exact ⟨rfl, rfl⟩
  · intro r hr
    simp only [List.mem_singleton] at hr
    rw [State.setW_w]
    refine ⟨?_, rfl⟩
    rw [Wave.sreg, Wave.sreg, Wave.writeS]
    exact Tab.getD_set_other _ hr _ _
  · intro r _
    rw [State.setW_w]
    exact ⟨rfl, rfl⟩
  · intro _
    rw [State.setW_w]; rfl
  · rw [State.setW_w]; rfl

theorem putS_spec (s : State) (d : Nat) (x : DWord) (os : List Opnd) (h : Issues s) :
    ∃ t, (s.touched os).putS d x = .next t ∧ t.w.sreg d = x ∧ Executed s t 4 [] [d] [] false := by
  obtain ⟨t, e, h1, h2⟩ := s.executed ((s.w.touch s.now os).writeS d x) 4 [] [d] [] false rfl h
    ((s.w.touch_same s.now os).trans (Wave.writeS_same _ _ _)) (writeS_regs s d x os) (touch_recipes _ _ _) fun r _ => by
      rw [s.w.touch_eq s.now os]
      exact ⟨rfl, rfl⟩
  refine ⟨t, ?_, ?_, h1⟩
  · rw [State.putS, State.writeS, State.touched_w, State.setW_touched, ← e]
  · have g : t.w.s = _ := congrArg (·.2.2.1) h2
    rw [Wave.sreg, g]
    exact Tab.getD_set_same _ _ _ _

theorem scalarBin_spec (s : State) (d a b : Nat) (f : DWord → DWord → DWord) (hr : Ready s 4 (opsS3 d a b) none) (h : Issues s) :
    ∃ t, scalarBin d a b f s = .next t ∧ t.w.sreg d = f (s.sreg a) (s.sreg b) ∧ Executed s t 4 [] [d] [] false := by
  rw [scalarBin, withOperands_ready hr]
  simp only [State.touched_sreg]
  exact putS_spec s d _ _ h

theorem scalarUn_spec (s : State) (d a : Nat) (f : DWord → DWord) (hr : Ready s 4 (opsS2 d a) none) (h : Issues s) :
    ∃ t, scalarUn d a f s = .next t ∧ t.w.sreg d = f (s.sreg a) ∧ Executed s t 4 [] [d] [] false := by
  rw [scalarUn, withOperands_ready hr]
  simp only [State.touched_sreg]
  exact putS_spec s d _ _ h

end Sys2Proof.Machine
end

