-- ==== Sys2Proof/Laws/PerInstr.lean ====
section
/-!
SUPPORT. What holds of every instruction as syntax, one lemma per constructor.
-/

namespace Sys2Proof.Laws.Row

/-- The row that the decoder answers for an instruction has the instruction's words (log 12), and is its own row. -/
def Statement (i : Instr) : Prop := encode i.row = encode i ∧ i.row.row = i.row

theorem iadd x0 x1 x2 : Statement (.iadd x0 x1 x2) := ⟨rfl, rfl⟩
theorem isub x0 x1 x2 : Statement (.isub x0 x1 x2) := ⟨rfl, rfl⟩
theorem imul x0 x1 x2 : Statement (.imul x0 x1 x2) := ⟨rfl, rfl⟩
theorem imulhI32 x0 x1 x2 : Statement (.imulhI32 x0 x1 x2) := ⟨rfl, rfl⟩
theorem imulhN32 x0 x1 x2 : Statement (.imulhN32 x0 x1 x2) := ⟨rfl, rfl⟩
theorem imin x0 x1 x2 : Statement (.imin x0 x1 x2) := ⟨rfl, rfl⟩
theorem imax x0 x1 x2 : Statement (.imax x0 x1 x2) := ⟨rfl, rfl⟩
theorem and x0 x1 x2 : Statement (.and x0 x1 x2) := ⟨rfl, rfl⟩
theorem or x0 x1 x2 : Statement (.or x0 x1 x2) := ⟨rfl, rfl⟩
theorem xor x0 x1 x2 : Statement (.xor x0 x1 x2) := ⟨rfl, rfl⟩
theorem andn x0 x1 x2 : Statement (.andn x0 x1 x2) := ⟨rfl, rfl⟩
theorem shl x0 x1 x2 : Statement (.shl x0 x1 x2) := ⟨rfl, rfl⟩
theorem shr x0 x1 x2 : Statement (.shr x0 x1 x2) := ⟨rfl, rfl⟩
theorem sar x0 x1 x2 : Statement (.sar x0 x1 x2) := ⟨rfl, rfl⟩
theorem rot x0 x1 x2 : Statement (.rot x0 x1 x2) := ⟨rfl, rfl⟩
theorem imad x0 x1 x2 : Statement (.imad x0 x1 x2) := ⟨rfl, rfl⟩
theorem iabs x0 x1 : Statement (.iabs x0 x1) := ⟨rfl, rfl⟩
theorem ineg x0 x1 : Statement (.ineg x0 x1) := ⟨rfl, rfl⟩
theorem not x0 x1 : Statement (.not x0 x1) := ⟨rfl, rfl⟩
theorem clz x0 x1 : Statement (.clz x0 x1) := ⟨rfl, rfl⟩
theorem popc x0 x1 : Statement (.popc x0 x1) := ⟨rfl, rfl⟩
theorem brev x0 x1 : Statement (.brev x0 x1) := ⟨rfl, rfl⟩
theorem mov x0 x1 : Statement (.mov x0 x1) := ⟨rfl, rfl⟩
theorem sel x0 x1 x2 : Statement (.sel x0 x1 x2) := ⟨rfl, rfl⟩
theorem bfxI32 x0 x1 x2 : Statement (.bfxI32 x0 x1 x2) := ⟨rfl, rfl⟩
theorem bfxN32 x0 x1 x2 : Statement (.bfxN32 x0 x1 x2) := ⟨rfl, rfl⟩
theorem bfi x0 x1 x2 : Statement (.bfi x0 x1 x2) := ⟨rfl, rfl⟩
theorem icvtI8 x0 x1 : Statement (.icvtI8 x0 x1) := ⟨rfl, rfl⟩
theorem icvtI16 x0 x1 : Statement (.icvtI16 x0 x1) := ⟨rfl, rfl⟩
theorem icvtI64 x0 x1 : Statement (.icvtI64 x0 x1) := ⟨rfl, rfl⟩
theorem icvtI32 x0 x1 : Statement (.icvtI32 x0 x1) := ⟨rfl, rfl⟩
theorem icmpEq x0 x1 x2 : Statement (.icmpEq x0 x1 x2) := ⟨rfl, rfl⟩
theorem icmpLtI32 x0 x1 x2 : Statement (.icmpLtI32 x0 x1 x2) := ⟨rfl, rfl⟩
theorem icmpLtN32 x0 x1 x2 : Statement (.icmpLtN32 x0 x1 x2) := ⟨rfl, rfl⟩
theorem iaddI64 x0 x1 x2 : Statement (.iaddI64 x0 x1 x2) := ⟨rfl, rfl⟩
theorem isubI64 x0 x1 x2 : Statement (.isubI64 x0 x1 x2) := ⟨rfl, rfl⟩
theorem imulI64 x0 x1 x2 : Statement (.imulI64 x0 x1 x2) := ⟨rfl, rfl⟩
theorem iaddImm x0 x1 x2 : Statement (.iaddImm x0 x1 x2) := ⟨rfl, rfl⟩
theorem shlImm x0 x1 x2 : Statement (.shlImm x0 x1 x2) := ⟨rfl, rfl⟩
theorem movi x0 x1 : Statement (.movi x0 x1) := ⟨rfl, rfl⟩
theorem lih x0 x1 : Statement (.lih x0 x1) := ⟨rfl, rfl⟩
theorem sadd x0 x1 x2 : Statement (.sadd x0 x1 x2) := ⟨rfl, rfl⟩
theorem ssub x0 x1 x2 : Statement (.ssub x0 x1 x2) := ⟨rfl, rfl⟩
theorem smul x0 x1 x2 : Statement (.smul x0 x1 x2) := ⟨rfl, rfl⟩
theorem sand x0 x1 x2 : Statement (.sand x0 x1 x2) := ⟨rfl, rfl⟩
theorem sor x0 x1 x2 : Statement (.sor x0 x1 x2) := ⟨rfl, rfl⟩
theorem sxor x0 x1 x2 : Statement (.sxor x0 x1 x2) := ⟨rfl, rfl⟩
theorem sshl x0 x1 x2 : Statement (.sshl x0 x1 x2) := ⟨rfl, rfl⟩
theorem sshr x0 x1 x2 : Statement (.sshr x0 x1 x2) := ⟨rfl, rfl⟩
theorem smov x0 x1 : Statement (.smov x0 x1) := ⟨rfl, rfl⟩
theorem scmpEq x0 x1 x2 : Statement (.scmpEq x0 x1 x2) := ⟨rfl, rfl⟩
theorem scmpLtI64 x0 x1 x2 : Statement (.scmpLtI64 x0 x1 x2) := ⟨rfl, rfl⟩
theorem scmpLtN64 x0 x1 x2 : Statement (.scmpLtN64 x0 x1 x2) := ⟨rfl, rfl⟩
theorem saddImm x0 x1 x2 : Statement (.saddImm x0 x1 x2) := ⟨rfl, rfl⟩
theorem sandImm x0 x1 x2 : Statement (.sandImm x0 x1 x2) := ⟨rfl, rfl⟩
theorem sshlImm x0 x1 x2 : Statement (.sshlImm x0 x1 x2) := ⟨rfl, rfl⟩
theorem smovi x0 x1 : Statement (.smovi x0 x1) := ⟨rfl, rfl⟩
theorem slih x0 x1 : Statement (.slih x0 x1) := ⟨rfl, rfl⟩
theorem vlid x0 : Statement (.vlid x0) := ⟨rfl, rfl⟩
theorem lperm x0 x1 x2 : Statement (.lperm x0 x1 x2) := ⟨rfl, rfl⟩
theorem vote x0 x1 : Statement (.vote x0 x1) := ⟨rfl, rfl⟩
theorem mpop x0 x1 : Statement (.mpop x0 x1) := ⟨rfl, rfl⟩
theorem reduceAddI32 x0 x1 : Statement (.reduceAddI32 x0 x1) := ⟨rfl, rfl⟩
theorem reduceMaxI32 x0 x1 : Statement (.reduceMaxI32 x0 x1) := ⟨rfl, rfl⟩
theorem reduceAddF32 x0 x1 : Statement (.reduceAddF32 x0 x1) := ⟨rfl, rfl⟩
theorem reduceMaxF32 x0 x1 : Statement (.reduceMaxF32 x0 x1) := ⟨rfl, rfl⟩
theorem reduceAddF64 x0 x1 : Statement (.reduceAddF64 x0 x1) := ⟨rfl, rfl⟩
theorem mand x0 x1 x2 : Statement (.mand x0 x1 x2) := ⟨rfl, rfl⟩
theorem mor x0 x1 x2 : Statement (.mor x0 x1 x2) := ⟨rfl, rfl⟩
theorem mxor x0 x1 x2 : Statement (.mxor x0 x1 x2) := ⟨rfl, rfl⟩
theorem mnot x0 x1 : Statement (.mnot x0 x1) := ⟨rfl, rfl⟩
theorem mmov x0 x1 : Statement (.mmov x0 x1) := ⟨rfl, rfl⟩
theorem br x0 x1 : Statement (.br x0 x1) := ⟨rfl, rfl⟩
theorem call x0 x1 : Statement (.call x0 x1) := ⟨rfl, rfl⟩
theorem brsZ x0 x1 : Statement (.brsZ x0 x1) := ⟨rfl, rfl⟩
theorem brsNz x0 x1 : Statement (.brsNz x0 x1) := ⟨rfl, rfl⟩
theorem jmp x0 : Statement (.jmp x0) := ⟨rfl, rfl⟩
theorem ret x0 : Statement (.ret x0) := ⟨rfl, rfl⟩
theorem wake x0 : Statement (.wake x0) := ⟨rfl, rfl⟩
theorem elect x0 x1 : Statement (.elect x0 x1) := ⟨rfl, rfl⟩
theorem join x0 : Statement (.join x0) := ⟨rfl, rfl⟩
theorem leave x0 : Statement (.leave x0) := ⟨rfl, rfl⟩
theorem bar x0 : Statement (.bar x0) := ⟨rfl, rfl⟩
theorem nopH1 x0 x1 x2 : Statement (.nopH1 x0 x1 x2) := ⟨rfl, rfl⟩
theorem nopH2 x0 x1 x2 : Statement (.nopH2 x0 x1 x2) := ⟨rfl, rfl⟩
theorem faddF32 x0 x1 x2 : Statement (.faddF32 x0 x1 x2) := ⟨rfl, rfl⟩
theorem fsubF32 x0 x1 x2 : Statement (.fsubF32 x0 x1 x2) := ⟨rfl, rfl⟩
theorem fmulF32 x0 x1 x2 : Statement (.fmulF32 x0 x1 x2) := ⟨rfl, rfl⟩
theorem ffmaF32 x0 x1 x2 : Statement (.ffmaF32 x0 x1 x2) := ⟨rfl, rfl⟩
theorem fdivF32 x0 x1 x2 : Statement (.fdivF32 x0 x1 x2) := ⟨rfl, rfl⟩
theorem fminF32 x0 x1 x2 : Statement (.fminF32 x0 x1 x2) := ⟨rfl, rfl⟩
theorem fmaxF32 x0 x1 x2 : Statement (.fmaxF32 x0 x1 x2) := ⟨rfl, rfl⟩
theorem frcpF32 x0 x1 : Statement (.frcpF32 x0 x1) := ⟨rfl, rfl⟩
theorem fsqrtF32 x0 x1 : Statement (.fsqrtF32 x0 x1) := ⟨rfl, rfl⟩
theorem frsqF32 x0 x1 : Statement (.frsqF32 x0 x1) := ⟨rfl, rfl⟩
theorem fabsF32 x0 x1 : Statement (.fabsF32 x0 x1) := ⟨rfl, rfl⟩
theorem fnegF32 x0 x1 : Statement (.fnegF32 x0 x1) := ⟨rfl, rfl⟩
theorem fclassF32 x0 x1 : Statement (.fclassF32 x0 x1) := ⟨rfl, rfl⟩
theorem froundF32 x0 x1 : Statement (.froundF32 x0 x1) := ⟨rfl, rfl⟩
theorem ffmaF32Rn x0 x1 x2 : Statement (.ffmaF32Rn x0 x1 x2) := ⟨rfl, rfl⟩
theorem ffmaF32Rz x0 x1 x2 : Statement (.ffmaF32Rz x0 x1 x2) := ⟨rfl, rfl⟩
theorem faddF64 x0 x1 x2 : Statement (.faddF64 x0 x1 x2) := ⟨rfl, rfl⟩
theorem fsubF64 x0 x1 x2 : Statement (.fsubF64 x0 x1 x2) := ⟨rfl, rfl⟩
theorem fmulF64 x0 x1 x2 : Statement (.fmulF64 x0 x1 x2) := ⟨rfl, rfl⟩
theorem ffmaF64 x0 x1 x2 : Statement (.ffmaF64 x0 x1 x2) := ⟨rfl, rfl⟩
theorem fdivF64 x0 x1 x2 : Statement (.fdivF64 x0 x1 x2) := ⟨rfl, rfl⟩
theorem fminF64 x0 x1 x2 : Statement (.fminF64 x0 x1 x2) := ⟨rfl, rfl⟩
theorem fmaxF64 x0 x1 x2 : Statement (.fmaxF64 x0 x1 x2) := ⟨rfl, rfl⟩
theorem fsqrtF64 x0 x1 : Statement (.fsqrtF64 x0 x1) := ⟨rfl, rfl⟩
theorem fabsF64 x0 x1 : Statement (.fabsF64 x0 x1) := ⟨rfl, rfl⟩
theorem fnegF64 x0 x1 : Statement (.fnegF64 x0 x1) := ⟨rfl, rfl⟩
theorem fexpF32 x0 x1 : Statement (.fexpF32 x0 x1) := ⟨rfl, rfl⟩
theorem flogF32 x0 x1 : Statement (.flogF32 x0 x1) := ⟨rfl, rfl⟩
theorem fsinF32 x0 x1 : Statement (.fsinF32 x0 x1) := ⟨rfl, rfl⟩
theorem fcosF32 x0 x1 : Statement (.fcosF32 x0 x1) := ⟨rfl, rfl⟩
theorem ftanhF32 x0 x1 : Statement (.ftanhF32 x0 x1) := ⟨rfl, rfl⟩
theorem fcmpEqF32 x0 x1 x2 : Statement (.fcmpEqF32 x0 x1 x2) := ⟨rfl, rfl⟩
theorem fcmpLtF32 x0 x1 x2 : Statement (.fcmpLtF32 x0 x1 x2) := ⟨rfl, rfl⟩
theorem fcmpLeF32 x0 x1 x2 : Statement (.fcmpLeF32 x0 x1 x2) := ⟨rfl, rfl⟩
theorem fcmpEqF64 x0 x1 x2 : Statement (.fcmpEqF64 x0 x1 x2) := ⟨rfl, rfl⟩
theorem fcmpLtF64 x0 x1 x2 : Statement (.fcmpLtF64 x0 x1 x2) := ⟨rfl, rfl⟩
theorem fcmpLeF64 x0 x1 x2 : Statement (.fcmpLeF64 x0 x1 x2) := ⟨rfl, rfl⟩
theorem fcvtF64F32 x0 x1 : Statement (.fcvtF64F32 x0 x1) := ⟨rfl, rfl⟩
theorem fcvtF32F64 x0 x1 : Statement (.fcvtF32F64 x0 x1) := ⟨rfl, rfl⟩
theorem fcvtF32I32 x0 x1 : Statement (.fcvtF32I32 x0 x1) := ⟨rfl, rfl⟩
theorem fcvtF32N32 x0 x1 : Statement (.fcvtF32N32 x0 x1) := ⟨rfl, rfl⟩
theorem fcvtI32F32 x0 x1 : Statement (.fcvtI32F32 x0 x1) := ⟨rfl, rfl⟩
theorem fcvtN32F32 x0 x1 : Statement (.fcvtN32F32 x0 x1) := ⟨rfl, rfl⟩
theorem fcvtBf16F32 x0 x1 x2 : Statement (.fcvtBf16F32 x0 x1 x2) := ⟨rfl, rfl⟩
theorem fcvtF16F32 x0 x1 x2 : Statement (.fcvtF16F32 x0 x1 x2) := ⟨rfl, rfl⟩
theorem fcvtF32F16 x0 x1 x2 : Statement (.fcvtF32F16 x0 x1 x2) := ⟨rfl, rfl⟩
theorem hadd2Bf16 x0 x1 x2 : Statement (.hadd2Bf16 x0 x1 x2) := ⟨rfl, rfl⟩
theorem hmul2Bf16 x0 x1 x2 : Statement (.hmul2Bf16 x0 x1 x2) := ⟨rfl, rfl⟩
theorem hfma2Bf16 x0 x1 x2 : Statement (.hfma2Bf16 x0 x1 x2) := ⟨rfl, rfl⟩
theorem hadd2F16 x0 x1 x2 : Statement (.hadd2F16 x0 x1 x2) := ⟨rfl, rfl⟩
theorem hmul2F16 x0 x1 x2 : Statement (.hmul2F16 x0 x1 x2) := ⟨rfl, rfl⟩
theorem hfma2F16 x0 x1 x2 : Statement (.hfma2F16 x0 x1 x2) := ⟨rfl, rfl⟩
theorem jseedF32 x0 x1 : Statement (.jseedF32 x0 x1) := ⟨rfl, rfl⟩
theorem jseedF64 x0 x1 : Statement (.jseedF64 x0 x1) := ⟨rfl, rfl⟩
theorem jextF32 x0 x1 x2 : Statement (.jextF32 x0 x1 x2) := ⟨rfl, rfl⟩
theorem jextF64 x0 x1 x2 : Statement (.jextF64 x0 x1 x2) := ⟨rfl, rfl⟩
theorem jinsF32 x0 x1 x2 : Statement (.jinsF32 x0 x1 x2) := ⟨rfl, rfl⟩
theorem jinsF64 x0 x1 x2 : Statement (.jinsF64 x0 x1 x2) := ⟨rfl, rfl⟩
theorem jdiffF32 x0 x1 : Statement (.jdiffF32 x0 x1) := ⟨rfl, rfl⟩
theorem jdiffF64 x0 x1 : Statement (.jdiffF64 x0 x1) := ⟨rfl, rfl⟩
theorem jintegF32 x0 x1 : Statement (.jintegF32 x0 x1) := ⟨rfl, rfl⟩
theorem jintegF64 x0 x1 : Statement (.jintegF64 x0 x1) := ⟨rfl, rfl⟩
theorem jfactF32 x0 x1 : Statement (.jfactF32 x0 x1) := ⟨rfl, rfl⟩
theorem jfactF64 x0 x1 : Statement (.jfactF64 x0 x1) := ⟨rfl, rfl⟩
theorem setjord x0 : Statement (.setjord x0) := ⟨rfl, rfl⟩
theorem jsrr x0 : Statement (.jsrr x0) := ⟨rfl, rfl⟩
theorem jsrc x0 : Statement (.jsrc x0) := ⟨rfl, rfl⟩
theorem ld x0 x1 x2 x3 x4 x5 : Statement (.ld x0 x1 x2 x3 x4 x5) := ⟨rfl, rfl⟩
theorem st x0 x1 x2 x3 x4 x5 : Statement (.st x0 x1 x2 x3 x4 x5) := ⟨rfl, rfl⟩
theorem stX x0 x1 x2 x3 x4 : Statement (.stX x0 x1 x2 x3 x4) := ⟨rfl, rfl⟩
theorem ldb x0 x1 x2 x3 x4 x5 : Statement (.ldb x0 x1 x2 x3 x4 x5) := ⟨rfl, rfl⟩
theorem ldbX x0 x1 x2 x3 x4 : Statement (.ldbX x0 x1 x2 x3 x4) := ⟨rfl, rfl⟩
theorem ldr x0 x1 x2 x3 x4 : Statement (.ldr x0 x1 x2 x3 x4) := ⟨rfl, rfl⟩
theorem atom x0 x1 x2 x3 x4 : Statement (.atom x0 x1 x2 x3 x4) := ⟨rfl, rfl⟩
theorem spatom x0 x1 x2 x3 : Statement (.spatom x0 x1 x2 x3) := ⟨rfl, rfl⟩
theorem slock x0 x1 x2 x3 : Statement (.slock x0 x1 x2 x3) := ⟨rfl, rfl⟩
theorem sunlk x0 x1 x2 : Statement (.sunlk x0 x1 x2) := ⟨rfl, rfl⟩
theorem pref x0 x1 x2 x3 x4 : Statement (.pref x0 x1 x2 x3 x4) := ⟨rfl, rfl⟩
theorem bind x0 x1 : Statement (.bind x0 x1) := ⟨rfl, rfl⟩
theorem unbind x0 : Statement (.unbind x0) := ⟨rfl, rfl⟩
theorem acq x0 x1 : Statement (.acq x0 x1) := ⟨rfl, rfl⟩
theorem rel x0 x1 : Statement (.rel x0 x1) := ⟨rfl, rfl⟩
theorem lock x0 : Statement (.lock x0) := ⟨rfl, rfl⟩
theorem unlock x0 : Statement (.unlock x0) := ⟨rfl, rfl⟩
theorem signal x0 x1 : Statement (.signal x0 x1) := ⟨rfl, rfl⟩
theorem waitge x0 x1 : Statement (.waitge x0 x1) := ⟨rfl, rfl⟩
theorem qfence x0 : Statement (.qfence x0) := ⟨rfl, rfl⟩
theorem rdrop x0 : Statement (.rdrop x0) := ⟨rfl, rfl⟩
theorem rmat x0 : Statement (.rmat x0) := ⟨rfl, rfl⟩
theorem rdemote x0 : Statement (.rdemote x0) := ⟨rfl, rfl⟩
theorem grow x0 : Statement (.grow x0) := ⟨rfl, rfl⟩
theorem shrink x0 : Statement (.shrink x0) := ⟨rfl, rfl⟩
theorem rmark x0 x1 : Statement (.rmark x0 x1) := ⟨rfl, rfl⟩
theorem cpy x0 x1 x2 x3 x4 x5 : Statement (.cpy x0 x1 x2 x3 x4 x5) := ⟨rfl, rfl⟩
theorem cpyd x0 x1 x2 x3 x4 x5 : Statement (.cpyd x0 x1 x2 x3 x4 x5) := ⟨rfl, rfl⟩
theorem hwait x0 : Statement (.hwait x0) := ⟨rfl, rfl⟩
theorem hstat x0 x1 : Statement (.hstat x0 x1) := ⟨rfl, rfl⟩
theorem hfree x0 : Statement (.hfree x0) := ⟨rfl, rfl⟩
theorem pagereqFill x0 x1 : Statement (.pagereqFill x0 x1) := ⟨rfl, rfl⟩
theorem pagereqSettle x0 : Statement (.pagereqSettle x0) := ⟨rfl, rfl⟩
theorem cbset x0 x1 : Statement (.cbset x0 x1) := ⟨rfl, rfl⟩
theorem cbwait x0 x1 : Statement (.cbwait x0 x1) := ⟨rfl, rfl⟩
theorem cbrel x0 : Statement (.cbrel x0) := ⟨rfl, rfl⟩
theorem spush x0 : Statement (.spush x0) := ⟨rfl, rfl⟩
theorem spop x0 : Statement (.spop x0) := ⟨rfl, rfl⟩
theorem spcnt x0 : Statement (.spcnt x0) := ⟨rfl, rfl⟩
theorem spushRoltik2 x0 : Statement (.spushRoltik2 x0) := ⟨rfl, rfl⟩
theorem spopRoltik2 x0 : Statement (.spopRoltik2 x0) := ⟨rfl, rfl⟩
theorem spcntRoltik2 x0 : Statement (.spcntRoltik2 x0) := ⟨rfl, rfl⟩
theorem mmaPtBf16 x0 x1 x2 x3 : Statement (.mmaPtBf16 x0 x1 x2 x3) := ⟨rfl, rfl⟩
theorem mmaPtDpw8 x0 x1 x2 x3 : Statement (.mmaPtDpw8 x0 x1 x2 x3) := ⟨rfl, rfl⟩
theorem mmaPtF32 x0 x1 x2 x3 : Statement (.mmaPtF32 x0 x1 x2 x3) := ⟨rfl, rfl⟩
theorem mmaMinpF32 x0 x1 x2 x3 : Statement (.mmaMinpF32 x0 x1 x2 x3) := ⟨rfl, rfl⟩
theorem mmaMaxpF32 x0 x1 x2 x3 : Statement (.mmaMaxpF32 x0 x1 x2 x3) := ⟨rfl, rfl⟩
theorem mmaMaxtF32 x0 x1 x2 x3 : Statement (.mmaMaxtF32 x0 x1 x2 x3) := ⟨rfl, rfl⟩
theorem mmaOrandBits x0 x1 x2 : Statement (.mmaOrandBits x0 x1 x2) := ⟨rfl, rfl⟩
theorem mgather x0 x1 : Statement (.mgather x0 x1) := ⟨rfl, rfl⟩
theorem mzero x0 : Statement (.mzero x0) := ⟨rfl, rfl⟩
theorem mflags x0 x1 : Statement (.mflags x0 x1) := ⟨rfl, rfl⟩
theorem mflagsClr x0 x1 : Statement (.mflagsClr x0 x1) := ⟨rfl, rfl⟩
theorem rqalloc x0 x1 x2 : Statement (.rqalloc x0 x1 x2) := ⟨rfl, rfl⟩
theorem rqcommit x0 : Statement (.rqcommit x0) := ⟨rfl, rfl⟩
theorem rqjoin x0 : Statement (.rqjoin x0) := ⟨rfl, rfl⟩
theorem rqinfo x0 x1 x2 : Statement (.rqinfo x0 x1 x2) := ⟨rfl, rfl⟩
theorem ctxnew x0 x1 : Statement (.ctxnew x0 x1) := ⟨rfl, rfl⟩
theorem ctxgrantCores x0 x1 x2 : Statement (.ctxgrantCores x0 x1 x2) := ⟨rfl, rfl⟩
theorem ctxtakeCores x0 x1 x2 : Statement (.ctxtakeCores x0 x1 x2) := ⟨rfl, rfl⟩
theorem ctxstat x0 x1 x2 : Statement (.ctxstat x0 x1 x2) := ⟨rfl, rfl⟩
theorem ctxfree x0 x1 : Statement (.ctxfree x0 x1) := ⟨rfl, rfl⟩
theorem predone x0 : Statement (.predone x0) := ⟨rfl, rfl⟩
theorem csrr x0 x1 : Statement (.csrr x0 x1) := ⟨rfl, rfl⟩
theorem csrrDx x0 : Statement (.csrrDx x0) := ⟨rfl, rfl⟩
theorem csrw x0 x1 : Statement (.csrw x0 x1) := ⟨rfl, rfl⟩
theorem csrwDx x0 : Statement (.csrwDx x0) := ⟨rfl, rfl⟩
theorem pmcr x0 x1 : Statement (.pmcr x0 x1) := ⟨rfl, rfl⟩
theorem pwrreqGate x0 x1 : Statement (.pwrreqGate x0 x1) := ⟨rfl, rfl⟩
theorem trap x0 : Statement (.trap x0) := ⟨rfl, rfl⟩
theorem xmod x0 : Statement (.xmod x0) := ⟨rfl, rfl⟩
theorem iaddC16 x0 x1 : Statement (.iaddC16 x0 x1) := ⟨rfl, rfl⟩
theorem isubC16 x0 x1 : Statement (.isubC16 x0 x1) := ⟨rfl, rfl⟩
theorem imulC16 x0 x1 : Statement (.imulC16 x0 x1) := ⟨rfl, rfl⟩
theorem andC16 x0 x1 : Statement (.andC16 x0 x1) := ⟨rfl, rfl⟩
theorem orC16 x0 x1 : Statement (.orC16 x0 x1) := ⟨rfl, rfl⟩
theorem xorC16 x0 x1 : Statement (.xorC16 x0 x1) := ⟨rfl, rfl⟩
theorem shlC16 x0 x1 : Statement (.shlC16 x0 x1) := ⟨rfl, rfl⟩
theorem shrC16 x0 x1 : Statement (.shrC16 x0 x1) := ⟨rfl, rfl⟩
theorem sarC16 x0 x1 : Statement (.sarC16 x0 x1) := ⟨rfl, rfl⟩
theorem movC16 x0 x1 : Statement (.movC16 x0 x1) := ⟨rfl, rfl⟩
theorem iminC16 x0 x1 : Statement (.iminC16 x0 x1) := ⟨rfl, rfl⟩
theorem imaxC16 x0 x1 : Statement (.imaxC16 x0 x1) := ⟨rfl, rfl⟩
theorem faddF32C16 x0 x1 : Statement (.faddF32C16 x0 x1) := ⟨rfl, rfl⟩
theorem fsubF32C16 x0 x1 : Statement (.fsubF32C16 x0 x1) := ⟨rfl, rfl⟩
theorem fmulF32C16 x0 x1 : Statement (.fmulF32C16 x0 x1) := ⟨rfl, rfl⟩
theorem fmaxF32C16 x0 x1 : Statement (.fmaxF32C16 x0 x1) := ⟨rfl, rfl⟩
theorem notC16Roltik1 x0 x1 : Statement (.notC16Roltik1 x0 x1) := ⟨rfl, rfl⟩
theorem exit : Statement .exit := ⟨rfl, rfl⟩
theorem yield : Statement .yield := ⟨rfl, rfl⟩
theorem sleep : Statement .sleep := ⟨rfl, rfl⟩
theorem nop : Statement .nop := ⟨rfl, rfl⟩
theorem lbar : Statement .lbar := ⟨rfl, rfl⟩
theorem fenceW : Statement .fenceW := ⟨rfl, rfl⟩
theorem fenceG : Statement .fenceG := ⟨rfl, rfl⟩
theorem fenceC : Statement .fenceC := ⟨rfl, rfl⟩
theorem fenceD : Statement .fenceD := ⟨rfl, rfl⟩
theorem fenceS : Statement .fenceS := ⟨rfl, rfl⟩
theorem ifence : Statement .ifence := ⟨rfl, rfl⟩
theorem tret : Statement .tret := ⟨rfl, rfl⟩
theorem loadResultReturn x0 x1 : Statement (.loadResultReturn x0 x1) := ⟨rfl, rfl⟩
theorem storeQueueDrain x0 : Statement (.storeQueueDrain x0) := ⟨rfl, rfl⟩
theorem remoteAccessArrival x0 x1 : Statement (.remoteAccessArrival x0 x1) := ⟨rfl, rfl⟩
theorem remoteAccessRefused x0 x1 : Statement (.remoteAccessRefused x0 x1) := ⟨rfl, rfl⟩
theorem remoteAcknowledge x0 x1 : Statement (.remoteAcknowledge x0 x1) := ⟨rfl, rfl⟩
theorem mappingLeaseExpiry x0 : Statement (.mappingLeaseExpiry x0) := ⟨rfl, rfl⟩
theorem l1LeaseWriteback x0 x1 : Statement (.l1LeaseWriteback x0 x1) := ⟨rfl, rfl⟩
theorem pagereqRewalk x0 x1 : Statement (.pagereqRewalk x0 x1) := ⟨rfl, rfl⟩
theorem pagereqSettleExpiry x0 x1 : Statement (.pagereqSettleExpiry x0 x1) := ⟨rfl, rfl⟩
theorem lockBitRetry x0 : Statement (.lockBitRetry x0) := ⟨rfl, rfl⟩
theorem bankDrowsyEntry x0 x1 : Statement (.bankDrowsyEntry x0 x1) := ⟨rfl, rfl⟩
theorem bankWake x0 x1 : Statement (.bankWake x0 x1) := ⟨rfl, rfl⟩
theorem spineEntryArrival x0 : Statement (.spineEntryArrival x0) := ⟨rfl, rfl⟩
theorem spineCreditReturn x0 : Statement (.spineCreditReturn x0) := ⟨rfl, rfl⟩
theorem spinePairFolioRestore x0 x1 : Statement (.spinePairFolioRestore x0 x1) := ⟨rfl, rfl⟩
theorem gateGrant x0 : Statement (.gateGrant x0) := ⟨rfl, rfl⟩
theorem domainWakeComplete x0 : Statement (.domainWakeComplete x0) := ⟨rfl, rfl⟩
theorem cbSlotClaim x0 x1 x2 : Statement (.cbSlotClaim x0 x1 x2) := ⟨rfl, rfl⟩
theorem copyOperationStart x0 x1 x2 : Statement (.copyOperationStart x0 x1 x2) := ⟨rfl, rfl⟩
theorem copyOperationComplete x0 x1 x2 : Statement (.copyOperationComplete x0 x1 x2) := ⟨rfl, rfl⟩
theorem multicastDelivery x0 x1 x2 x3 : Statement (.multicastDelivery x0 x1 x2 x3) := ⟨rfl, rfl⟩
theorem multicastWaitExpiry x0 x1 x2 x3 : Statement (.multicastWaitExpiry x0 x1 x2 x3) := ⟨rfl, rfl⟩
theorem followOnPlacement x0 x1 x2 x3 : Statement (.followOnPlacement x0 x1 x2 x3) := ⟨rfl, rfl⟩
theorem mmaStart x0 x1 : Statement (.mmaStart x0 x1) := ⟨rfl, rfl⟩
theorem mmaAccumulationComplete x0 : Statement (.mmaAccumulationComplete x0) := ⟨rfl, rfl⟩
theorem mzeroExecute x0 x1 : Statement (.mzeroExecute x0 x1) := ⟨rfl, rfl⟩
theorem mflagsExecute x0 x1 : Statement (.mflagsExecute x0 x1) := ⟨rfl, rfl⟩
theorem mgatherExecute x0 : Statement (.mgatherExecute x0) := ⟨rfl, rfl⟩
theorem quantumStart x0 : Statement (.quantumStart x0) := ⟨rfl, rfl⟩
theorem gathererTimerExpiry x0 x1 x2 : Statement (.gathererTimerExpiry x0 x1 x2) := ⟨rfl, rfl⟩
theorem gathererDispatch : Statement .gathererDispatch := ⟨rfl, rfl⟩
theorem groupPlacement x0 : Statement (.groupPlacement x0) := ⟨rfl, rfl⟩
theorem launchStructureReread x0 x1 : Statement (.launchStructureReread x0 x1) := ⟨rfl, rfl⟩
theorem continuationEnqueue x0 : Statement (.continuationEnqueue x0) := ⟨rfl, rfl⟩
theorem groupTeardown x0 : Statement (.groupTeardown x0) := ⟨rfl, rfl⟩
theorem reservationZeroingDone x0 x1 : Statement (.reservationZeroingDone x0 x1) := ⟨rfl, rfl⟩
theorem launchCompletion x0 : Statement (.launchCompletion x0) := ⟨rfl, rfl⟩
theorem completionInterrupt x0 : Statement (.completionInterrupt x0) := ⟨rfl, rfl⟩
theorem growGrant x0 : Statement (.growGrant x0) := ⟨rfl, rfl⟩
theorem growDeadlockBreaker x0 : Statement (.growDeadlockBreaker x0) := ⟨rfl, rfl⟩
theorem controlIntervalBoundary x0 x1 : Statement (.controlIntervalBoundary x0 x1) := ⟨rfl, rfl⟩
theorem energyBudgetExhausted x0 : Statement (.energyBudgetExhausted x0) := ⟨rfl, rfl⟩
theorem droopTrip x0 : Statement (.droopTrip x0) := ⟨rfl, rfl⟩
theorem droopHoldExpiry x0 : Statement (.droopHoldExpiry x0) := ⟨rfl, rfl⟩
theorem voltageSlewComplete x0 : Statement (.voltageSlewComplete x0) := ⟨rfl, rfl⟩
theorem frequencySwitch x0 : Statement (.frequencySwitch x0) := ⟨rfl, rfl⟩
theorem governorSample x0 x1 : Statement (.governorSample x0 x1) := ⟨rfl, rfl⟩
theorem thermalClampStep x0 x1 : Statement (.thermalClampStep x0 x1) := ⟨rfl, rfl⟩
theorem clusterClockGate x0 : Statement (.clusterClockGate x0) := ⟨rfl, rfl⟩
theorem startEventAdmission : Statement .startEventAdmission := ⟨rfl, rfl⟩
theorem bandwidthInterval x0 x1 x2 : Statement (.bandwidthInterval x0 x1 x2) := ⟨rfl, rfl⟩
theorem hangWatchdogExpiry x0 : Statement (.hangWatchdogExpiry x0) := ⟨rfl, rfl⟩
theorem sliceExpiry x0 : Statement (.sliceExpiry x0) := ⟨rfl, rfl⟩
theorem groupStop x0 : Statement (.groupStop x0) := ⟨rfl, rfl⟩
theorem preemptTimeout x0 : Statement (.preemptTimeout x0) := ⟨rfl, rfl⟩
theorem predoneTimeout x0 : Statement (.predoneTimeout x0) := ⟨rfl, rfl⟩
theorem groupRestore x0 : Statement (.groupRestore x0) := ⟨rfl, rfl⟩
theorem faultRingWrite x0 : Statement (.faultRingWrite x0) := ⟨rfl, rfl⟩
theorem revocationComplete x0 x1 : Statement (.revocationComplete x0 x1) := ⟨rfl, rfl⟩
theorem lockRetry x0 : Statement (.lockRetry x0) := ⟨rfl, rfl⟩
theorem waitgePoll x0 : Statement (.waitgePoll x0) := ⟨rfl, rfl⟩
theorem feEnable x0 : Statement (.feEnable x0) := ⟨rfl, rfl⟩
theorem feDisable x0 : Statement (.feDisable x0) := ⟨rfl, rfl⟩
theorem feProducerCountWrite x0 x1 : Statement (.feProducerCountWrite x0 x1) := ⟨rfl, rfl⟩
theorem feSubmissionEntry x0 : Statement (.feSubmissionEntry x0) := ⟨rfl, rfl⟩
theorem feVerdictWrite x0 x1 : Statement (.feVerdictWrite x0 x1) := ⟨rfl, rfl⟩
theorem feSettingsWrite x0 x1 x2 : Statement (.feSettingsWrite x0 x1 x2) := ⟨rfl, rfl⟩
theorem powerOnBringup : Statement .powerOnBringup := ⟨rfl, rfl⟩
theorem attestationRequest x0 : Statement (.attestationRequest x0) := ⟨rfl, rfl⟩
theorem ageingMonitorUpdate x0 x1 x2 : Statement (.ageingMonitorUpdate x0 x1 x2) := ⟨rfl, rfl⟩
theorem selfTestStart x0 x1 : Statement (.selfTestStart x0 x1) := ⟨rfl, rfl⟩
theorem selfTestComplete x0 x1 x2 : Statement (.selfTestComplete x0 x1 x2) := ⟨rfl, rfl⟩
theorem illegalInstr x0 : Statement (.illegalInstr x0) := ⟨rfl, rfl⟩
theorem fetchFault x0 : Statement (.fetchFault x0) := ⟨rfl, rfl⟩
theorem writeBackAcknowledge x0 : Statement (.writeBackAcknowledge x0) := ⟨rfl, rfl⟩
theorem hostStoreAcknowledge x0 : Statement (.hostStoreAcknowledge x0) := ⟨rfl, rfl⟩
theorem ctxgrantMem x0 x1 x2 : Statement (.ctxgrantMem x0 x1 x2) := ⟨rfl, rfl⟩
theorem ctxgrantQmem x0 x1 x2 : Statement (.ctxgrantQmem x0 x1 x2) := ⟨rfl, rfl⟩
theorem ctxgrantBind x0 x1 x2 : Statement (.ctxgrantBind x0 x1 x2) := ⟨rfl, rfl⟩
theorem ctxgrantEnergyIpeak x0 x1 x2 : Statement (.ctxgrantEnergyIpeak x0 x1 x2) := ⟨rfl, rfl⟩
theorem ctxgrantBandwidth x0 x1 x2 : Statement (.ctxgrantBandwidth x0 x1 x2) := ⟨rfl, rfl⟩
theorem ctxgrantRoot x0 x1 x2 : Statement (.ctxgrantRoot x0 x1 x2) := ⟨rfl, rfl⟩
theorem ctxgrantResume x0 x1 x2 : Statement (.ctxgrantResume x0 x1 x2) := ⟨rfl, rfl⟩
theorem ctxtakeMem x0 x1 x2 : Statement (.ctxtakeMem x0 x1 x2) := ⟨rfl, rfl⟩
theorem ctxtakeQmem x0 x1 x2 : Statement (.ctxtakeQmem x0 x1 x2) := ⟨rfl, rfl⟩
theorem ctxtakeBind x0 x1 x2 : Statement (.ctxtakeBind x0 x1 x2) := ⟨rfl, rfl⟩
theorem ctxtakeEnergyIpeak x0 x1 x2 : Statement (.ctxtakeEnergyIpeak x0 x1 x2) := ⟨rfl, rfl⟩
theorem ctxtakeBandwidth x0 x1 x2 : Statement (.ctxtakeBandwidth x0 x1 x2) := ⟨rfl, rfl⟩
theorem pwrreqWake x0 x1 : Statement (.pwrreqWake x0 x1) := ⟨rfl, rfl⟩
theorem pwrreqPoint x0 x1 : Statement (.pwrreqPoint x0 x1) := ⟨rfl, rfl⟩
theorem pwrreqMode x0 x1 : Statement (.pwrreqMode x0 x1) := ⟨rfl, rfl⟩
theorem pwrreqHold x0 x1 : Statement (.pwrreqHold x0 x1) := ⟨rfl, rfl⟩
theorem pwrreqQuery x0 x1 : Statement (.pwrreqQuery x0 x1) := ⟨rfl, rfl⟩

end Sys2Proof.Laws.Row
end

