-- ==== Sys2Proof/Laws/Steps.lean ====
section
/-!
SUPPORT. A move of the agenda is its row; the canonical form of the memories under the operations that write them.
-/

namespace Sys2Proof.Machine

/-- Performing a move is executing its row. -/
theorem Event.run_isRow {e : Event} {i : Instr} (h : e.isRow i) (s : State) : e.run s = exec i s := by
  cases e <;> subst h <;> rfl

/-! ### The canonical form of the memories -/

theorem memWf_reset : State.reset.memWf = true := rfl

theorem State.memWf_iff (s : State) :
    s.memWf = true ↔ Sys2Proof.Machine.memWf s.hbm = true ∧ Sys2Proof.Machine.memWf s.host = true ∧
      ∀ k ∈ s.cores.vals, k.memWf = true := by
  simp [State.memWf, List.all_eq_true, and_assoc]

theorem mem_rowsSet {α : Type} (l : List (Nat × α)) (k : Nat) (v x : α) (h : x ∈ (rowsSet l k v).map (·.2)) :
    x = v ∨ x ∈ l.map (·.2) := by
  induction l with
  | nil => simpa [rowsSet] using h
  | cons p t ih =>
    simp only [rowsSet] at h
    split_ifs at h <;> simp only [List.map_cons, List.mem_cons] at h ⊢ <;> tauto

/-- A value of a table that was set is the new one or an old one. -/
theorem Tab.mem_vals_set {α : Type} (t : Tab α) (k : Nat) (v x : α) (h : x ∈ (t.set k v).vals) : x = v ∨ x ∈ t.vals :=
  mem_rowsSet t.rows k v x h

theorem mem_rowsGet {α : Type} (l : List (Nat × α)) (k : Nat) (d : α) : rowsGet d l k = d ∨ rowsGet d l k ∈ l.map (·.2) := by
  induction l with
  | nil => exact .inl rfl
  | cons p t ih =>
    simp only [rowsGet]
    split_ifs
    · exact .inr (by simp)
    · exact ih.imp_right fun h => by simp [h]

/-- In a state whose memories are canonical, those of every core are. -/
theorem State.memWf_core (s : State) (h : s.memWf = true) (n : Nat) : (s.core n).memWf = true := by
  obtain ⟨-, -, h⟩ := s.memWf_iff.mp h
  rcases mem_rowsGet s.cores.rows n ({} : Core) with e | e
  · rw [State.core, Tab.getD, e]; rfl
  · exact h _ e

/-- Setting a core whose memories are canonical keeps the form. -/
theorem State.memWf_setCore (s : State) (h : s.memWf = true) (n : Nat) (x : Core) (hx : x.memWf = true) :
    (s.setCore n x).memWf = true := by
  obtain ⟨h1, h2, h3⟩ := s.memWf_iff.mp h
  refine (State.memWf_iff _).mpr ⟨h1, h2, fun k hk => ?_⟩
  rcases Tab.mem_vals_set s.cores n x k hk with e | e
  · exact e ▸ hx
  · exact h3 k e

theorem Core.memWf_iff (k : Core) : k.memWf = true ↔ ∀ b, Sys2Proof.Machine.memWf (k.buf b) = true := by
  simp only [Core.memWf, Bool.and_eq_true]
  exact ⟨fun h b => by cases b <;> simp [Core.buf, h], fun h => ⟨⟨⟨h .s, h .a⟩, h .w⟩, h .c⟩⟩

/-- Replacing a buffer by a canonical memory keeps the form. -/
theorem Core.memWf_setBuf (k : Core) (h : k.memWf = true) (b : Buf) (m : Memory) (hm : Sys2Proof.Machine.memWf m = true) :
    (k.setBuf b m).memWf = true := by
  simp only [Core.memWf, Bool.and_eq_true] at h ⊢
  cases b <;> simp [Core.setBuf, h, hm]

/-- Writing bytes of a buffer keeps the form. -/
theorem State.memWf_bufWrite (s : State) (h : s.memWf = true) (core : Nat) (b : Buf) (off : Nat) (x : List Byte) :
    (s.bufWrite core b off x).memWf = true := by
  have hc := s.memWf_core h core
  have e := s.memWf_setCore h core _ (Core.memWf_setBuf _ hc b _ (memWf_memWriteN _ off x ((Core.memWf_iff _).mp hc b)))
  unfold State.bufWrite State.cure
  simp only
  split_ifs <;> exact e

/-- Writing HBM keeps the form. -/
theorem State.memWf_hbm (s : State) (h : s.memWf = true) (a : Nat) (x : List Byte) :
    ({ s with hbm := memWriteN s.hbm a x } : State).memWf = true := by
  obtain ⟨h1, h2, h3⟩ := s.memWf_iff.mp h
  exact (State.memWf_iff _).mpr ⟨memWf_memWriteN _ a x h1, h2, h3⟩

/-- Writing the host's memory keeps the form. -/
theorem State.memWf_host (s : State) (h : s.memWf = true) (a : Nat) (x : List Byte) :
    ({ s with host := memWriteN s.host a x } : State).memWf = true := by
  obtain ⟨h1, h2, h3⟩ := s.memWf_iff.mp h
  exact (State.memWf_iff _).mpr ⟨h1, memWf_memWriteN _ a x h2, h3⟩

end Sys2Proof.Machine
end

