-- ==== Sys2Proof/Tests/Slice0.lean ====
section
/-!
SUPPORT. Tests: concrete states that meet the hypotheses of the statements (wit_…: at least one for each clause), ill-formed
instructions that the checks refuse, words that decode to the instructions for which they stand, and a few single effects.
-/

namespace Sys2Proof.Tests
set_option Elab.async false
open Sys2Proof.Machine

/-- A wave with sixteen granules, every lane at offset 0. -/
def w0 : Wave := { granules := 16, dx := lanesOf fun _ => 0 }
/-- A group of one wave on core 0, in its set 0. -/
def g0 : Group := { ep := { gran := 16 }, waves := 1, core := 0, phase := .resident, sets := ⟨[(0, { members := 1 })]⟩ }
/-- A context with the cores of cluster 0. -/
def c0 : Context := { depth := 1, cores := [(0, false), (1, false), (2, false), (3, false)], bindCount := 256 }
/-- A device with that wave alone. -/
def dev (w : Wave) (g : Group) : State :=
  { waves := ⟨[(0, w)]⟩, groups := ⟨[(0, g)]⟩, ctxs := ⟨[(0, c0)]⟩, launches := ⟨[(0, {})]⟩, nextGroup := 1, nextLaunch := 1 }
def s0 : State := dev w0 g0

theorem ready_of {s : State} {n : Nat} {os : List Opnd} {chk : Option Trap} (h : (prepare s n os chk).isNone = true) :
    Ready s n os chk := (prepare_eq_none s n os chk).mp (Option.isNone_iff_eq_none.mp h)

/-- The hypotheses of a statement over a table hold of an instruction in `s0`. -/
def met (i : Instr) (r : Option (Nat × List Opnd)) : Bool :=
  match r with
  | some (n, os) => i.wellFormed && (prepare s0 n os none).isNone
  | none => false

theorem issues_s0 : Issues s0 := .inr ⟨by decide, by decide⟩
theorem plainly_s0 : IssuesPlainly s0 := ⟨rfl, by decide, by decide⟩

theorem wit_integer_lane : ∀ i ∈ ([.iadd 1 2 3, .isub 127 0 0, .imul 1 2 3, .imulhI32 1 2 3, .imulhN32 1 2 3, .imin 1 2 3, .imax 1 2 3,
      .and 1 2 3, .or 1 2 3, .xor 1 2 3, .andn 1 2 3, .shl 1 2 3, .shr 1 2 3, .sar 1 2 3, .rot 1 2 3, .imad 1 2 3, .iabs 1 2,
      .ineg 1 2, .not 1 2, .clz 1 2, .popc 1 2, .brev 1 2, .mov 1 2, .bfxI32 1 2 3, .bfxN32 1 2 3, .bfi 1 2 3, .icvtI8 1 2,
      .icvtI16 1 2, .icvtI32 1 2, .iaddImm 1 2 2047, .shlImm 1 2 31, .movi 1 262143, .lih 1 65535, .vlid 1, .lperm 1 2 3,
      .iaddC16 63 31, .isubC16 1 2, .imulC16 1 2, .andC16 1 2, .orC16 1 2, .xorC16 1 2, .shlC16 1 2, .shrC16 1 2, .sarC16 1 2,
      .movC16 1 2, .iminC16 1 2, .imaxC16 1 2, .notC16Roltik1 1 2] : List Instr),
    met i ((Claims.integerLane s0 i).map fun r => (r.len, r.ops)) = true := by decide

theorem wit_integer_pair : ∀ i ∈ ([.iaddI64 2 4 6, .isubI64 2 4 6, .imulI64 126 0 0, .icvtI64 2 3] : List Instr),
    met i ((Claims.integerPair s0 i).map fun r => (4, r.ops)) = true := by decide

theorem wit_mask : ∀ i ∈ ([.icmpEq 1 2 3, .icmpLtI32 1 2 3, .icmpLtN32 15 2 3, .mand 1 2 3, .mor 1 2 3, .mxor 1 0 3, .mnot 1 2,
      .mmov 1 2] : List Instr),
    met i ((Claims.maskLane s0 i).map fun r => (4, r.ops)) = true := by decide

theorem wit_scalar : ∀ i ∈ ([.sadd 31 4 5, .ssub 3 4 5, .smul 3 4 5, .sand 3 4 5, .sor 3 4 5, .sxor 3 4 5, .sshl 3 4 5, .sshr 3 4 5,
      .smov 3 4, .scmpEq 3 4 5, .scmpLtI64 3 4 5, .scmpLtN64 3 4 5, .saddImm 3 4 32767, .sandImm 3 4 1, .sshlImm 3 4 63,
      .smovi 3 1048575, .slih 3 1, .mpop 3 1, .jsrr 3] : List Instr),
    met i ((Claims.scalar s0 i).map fun r => (4, r.ops)) = true := by decide

theorem wit_sel_and_vote : met (.sel 1 2 3) (some (4, opsBin 1 2 3)) = true ∧ met (.vote 1 2) (some (4, Claims.masks1 1 2)) = true := by
  decide

theorem wit_reduce : (∀ i ∈ ([.reduceAddI32 1 2, .reduceMaxI32 1 2, .reduceAddF32 1 2, .reduceMaxF32 1 2] : List Instr),
      met i ((Claims.reduce s0 i).map fun r => (4, opsUn r.1 r.2.1)) = true) ∧
    met (.reduceAddF64 2 4) (some (4, [{ field := 0, kind := .v2, reg := 2, dst := true },
      { field := 1, kind := .v2, reg := 4, src := some 0 }])) = true := by decide

/-- A wave whose handler takes every cause. -/
def wh : Wave := { w0 with tvec := BitVec.ofNat 64 (2 ^ 32 + 0x100) }
def sh : State := dev wh g0

theorem wit_transfers :
    (∀ i ∈ ([.br 1 8, .brsZ 4 8, .brsNz 4 8, .jmp 2, .ret 2] : List Instr),
      met i ((Claims.branch s0 i).map fun r => (4, r.ops)) = true) ∧
    met (.call 1 8) (some (4, [{ field := 1, kind := .m, reg := 1 }, { field := 7, kind := .v, reg := 127, dst := true }])) = true ∧
    (s0.w.granules ≤ 16 ∧ s0.w.pre = none) := by decide

/-- An odd jump target in lane 1 alone. -/
def sj : State := dev { wh with v := ⟨[(2, lanesOf fun l => if l = 1 then 7 else 8)]⟩ } g0
theorem wit_odd_target : (prepare sj 4 [{ field := 1, kind := .v, reg := 2, src := some 0 }] none).isNone = true ∧ sj.w.regen = [] ∧
    bit sj.w.active 1 = true ∧ (lane (sj.vaReg 2) 1).toNat % 2 = 1 ∧
    (∀ j, j < 1 → bit sj.w.active j = true → (lane (sj.vaReg 2) j).toNat % 2 = 0) ∧
    sj.toHandler sj.cur { cause := 0x02 } = true := by decide

theorem wit_lanes : (prepare s0 4 [] (if s0.w.handler then some (refusal 0x13) else none)).isNone = true ∧
    (prepare s0 4 [] none).isNone = true ∧ s0.w.live &&& ~~~s0.w.active = 0 ∧
    (let s := dev { w0 with dx := lanesOf fun l => if l = 5 then 4 else 0 } g0
     (prepare s 4 [] none).isNone = true ∧ s.w.live &&& ~~~s.w.active ≠ 0 ∧ s.w.here ≠ 0 ∧ s.w.ipc % 2 = 0) ∧
    met (.elect 0 1) (some (4, [{ field := 1, kind := .mw, reg := 1 }])) = true ∧ (s0.g.set 0).members.getLsbD s0.w.wid = true ∧
    bit s0.w.active 0 = true ∧
    (let s := dev { w0 with m := ⟨[(1, 0)]⟩, pre := some { pm := 1 } } g0
     s.w.active = 0 ∧ s.w.here ≠ 0 ∧ (prepare s 4 [{ field := 1, kind := .mw, reg := 1 }] none).isNone = true) := by decide

theorem wit_sets : (s0.g.set 1).members.getLsbD s0.w.wid = !true ∧ (s0.g.set 0).members.getLsbD s0.w.wid = !false ∧
    s0.w.phase = .run ∧ s0.w.handler = false ∧ (prepare s0 4 [] none).isNone = true ∧
    (sh.g.set 0).members.getLsbD sh.w.wid = true ∧ (sh.g.set 1).members.getLsbD sh.w.wid = false ∧ sh.w.regen = [] ∧
    sh.w.mbusy = 0 ∧ sh.w.sdeferred = ⟨[]⟩ ∧ sh.toHandler sh.cur { cause := 0x02 } = true := by decide

/-- Two waves of one group, of which the other has arrived, or not. -/
def sb (arrived : Bool) : State :=
  { waves := ⟨[(0, w0), (1, { w0 with wid := 1, phase := if arrived then .bar 0 0 none else .run })]⟩
    groups := ⟨[(0, { g0 with waves := 2, sets := ⟨[(0, { members := 3, arrived := if arrived then 2 else 0 })]⟩ })]⟩
    ctxs := ⟨[(0, c0)]⟩
    launches := ⟨[(0, { larrived := if arrived then [1] else [] })]⟩ }
theorem wit_barriers : ∀ b ∈ [true, false],
    let s := sb b
    let m := s.g.set 0
    m.members.getLsbD s.w.wid = true ∧ s.w.together = true ∧ s.w.handler = false ∧ (prepare s 4 [] none).isNone = true ∧
    s.w.here ≠ 0 ∧ s.w.regen = [] ∧ s.w.ipc % 2 = 0 ∧ s.w.storeQ = [] ∧ s.w.pending = [] ∧ s.w.remotes = [] ∧
    s.w.scanned = false ∧ (s.core s.g.core).l1 = [] ∧ s.g.admission = false ∧ s.g.stopReq = none ∧ s.cur ∈ s.wavesOf s.w.group ∧
    m.begun = false ∧ m.members.getLsbD s.w.wid = true ∧
    (if b then ∀ k, k < 16 → k ≠ s.w.wid → m.members.getLsbD k = true → m.arrived.getLsbD k = true
      else ∃ k, k < 16 ∧ k ≠ s.w.wid ∧ m.members.getLsbD k = true ∧ m.arrived.getLsbD k = false) ∧
    (s.launch s.g.launch).lbegun = false ∧ s.launchWaves s.g.launch = [0, 1] ∧
    (s.launch s.g.launch).larrived = if b then [1] else [] := by decide


theorem wit_float : ∀ i ∈ ([.faddF32 1 2 3, .fsubF32 1 2 3, .fmulF32 1 2 3, .ffmaF32 1 2 3, .fdivF32 1 2 3, .fminF32 1 2 3,
      .fmaxF32 1 2 3, .frcpF32 1 2, .fsqrtF32 1 2, .frsqF32 1 2, .fabsF32 1 2, .fnegF32 1 2, .froundF32 1 2, .ffmaF32Rn 1 2 3,
      .ffmaF32Rz 1 2 3, .faddF64 2 4 6, .fsubF64 2 4 6, .fmulF64 2 4 6, .ffmaF64 2 4 6, .fdivF64 2 4 6, .fminF64 2 4 6,
      .fmaxF64 2 4 6, .fsqrtF64 2 4, .fabsF64 2 4, .fnegF64 2 4, .fexpF32 1 2, .flogF32 1 2, .fsinF32 1 2, .fcosF32 1 2,
      .ftanhF32 1 2, .fcvtF64F32 2 4, .fcvtF32F64 1 4, .fcvtF32I32 1 2, .fcvtF32N32 1 2, .fcvtI32F32 1 2, .fcvtN32F32 1 2,
      .fcvtBf16F32 1 2 3, .fcvtF16F32 1 2 3, .fcvtF32F16 1 2 1, .hadd2Bf16 1 2 3, .hmul2Bf16 1 2 3, .hfma2Bf16 1 2 3,
      .hadd2F16 1 2 3, .hmul2F16 1 2 3, .hfma2F16 1 2 3, .jseedF32 1 2, .jseedF64 2 4, .jdiffF32 1 2, .jdiffF64 2 4,
      .jintegF32 1 2, .jintegF64 2 4, .jfactF32 1 2, .jfactF64 2 4, .faddF32C16 1 2, .fsubF32C16 1 2, .fmulF32C16 1 2,
      .fmaxF32C16 1 2] : List Instr),
    met i ((Claims.float s0 i).map fun r => (r.len, r.ops)) = true := by decide
/-- With no trap enabled no flag's trap is raised. -/
theorem wit_float_traps_off : ∀ fl j, Claims.enabledIn s0 fl j = false := by
  intro fl j
  have : bits s0.w.fpctl.toNat 8 4 = 0 := by decide
  simp [Claims.enabledIn, this]

/-- v2 holds 1.0 and the divide-by-zero trap is enabled; v3 holds 0. -/
def sd : State := dev { wh with v := ⟨[(2, lanesOf fun _ => 0x3F800000)]⟩, fpctl := 0x20 } g0
theorem wit_float_trap :
    (match Claims.float sd (.fdivF32 1 2 3) with
      | some r => (prepare sd r.len r.ops none).isNone && bit sd.w.active 0 && Claims.enabledIn sd (r.out 0).2 0
      | none => false) = true ∧ sd.w.regen = [] ∧ sd.toHandler sd.cur { cause := 0x09 } = true := by decide

theorem wit_comparisons :
    (∀ i ∈ ([.fcmpEqF32 1 2 3, .fcmpLtF32 1 2 3, .fcmpLeF32 1 2 3, .fcmpEqF64 1 2 4, .fcmpLtF64 1 2 4, .fcmpLeF64 1 2 4] : List Instr),
      met i ((Claims.compare i).map fun r => (4, [{ field := 0, kind := .mw, reg := r.2.2.1 },
        { field := 1, kind := jetKind r.1, reg := r.2.2.2.1, src := some 0, sel := some (0, 1) },
        { field := 2, kind := jetKind r.1, reg := r.2.2.2.2.1, src := some 1, sel := some (0, 1) }])) = true) ∧
    (∀ i ∈ ([.fclassF32 1 2, .jextF32 1 2 0, .jextF64 2 4 0, .jinsF32 1 2 0, .jinsF64 2 4 0] : List Instr),
      met i ((Claims.bitMove s0 i).map fun r => (4, r.1)) = true ∧ ((Claims.bitMove s0 i).all fun r => r.2.1 ≤ s0.w.order) = true) ∧
    met (.jsrc 4) (some (4, [{ field := 1, kind := .s, reg := 4 }])) = true ∧
    (∀ c, c < 64 → (s0.sreg 4).getLsbD c = true → c % 8 < 5) := by decide

theorem wit_rounding : fp32 ∈ [fp64, fp32, bf16, fp16] ∧ (∀ rm < 4, unpack fp32 (roundFin fp32 { rm := rm } true 3 (-1)).1 =
    .fin true 12582912 (-23)) ∧ unpack fp16 1 = .fin false 1 (-24) ∧ unpack fp64 0 = .fin false 0 (-1074) ∧
    unpack bf16 0x3F80 = .fin false 128 (-7) := by decide
theorem wit_to_integer : ({ F := fp32, R := {} } : Fp).read 0x7FC00000 = .nan false ∧
    ({ F := fp32, R := {} } : Fp).read 0xFF800000 = .inf true ∧ (∃ m e, ({ F := fp32, R := {} } : Fp).read 0x4F000000 = .fin false m e) := by
  refine ⟨by decide, by decide, 8388608, 8, by decide⟩

/-! ### Memory -/

/-- Core 0 maps the first 32 MiB of the window. -/
def k0 : Core := { tlb := [{ ctx := 0, va := 0, size := 2 ^ 25, pa := 2 ^ 25, wr := true, ex := true, exp := 1000000, born := 0 }] }
/-- A wave with the base of the S window in s4, an address of the global window in s5, and the lanes' word offsets in v2. -/
def wm : Wave := { wh with
  s := ⟨[(4, BitVec.ofNat 64 Config.bufBase), (5, 0x1000)]⟩, v := ⟨[(2, lanesOf fun l => BitVec.ofNat 32 (4 * l))]⟩ }
def devC (w : Wave) (g : Group) (k : Core) : State := { dev w g with cores := ⟨[(0, k)]⟩ }
def gm : Group := { g0 with rs := { base := 0, size := 1024 } }
def sm : State := devC wm gm k0
/-- Every request has its places, in this package's HBM or in a buffer. -/
def placed (s : State) (l : List Located) : Bool := l.all fun x => match x.2 with
  | .ok ps => ps.all fun p => match p.1 with
    | .phys pa _ => !isRemote s pa
    | .buf _ _ => true
    | .host _ => false
  | .error _ => false
/-- No store of the requests waits for a lock bit. -/
def unlocked (s : State) (l : List Located) : Bool := l.all fun x => (Located.pieces x).all fun p => !lockWait s s.g.core s.cur p.1

theorem coherent_sm : sm.coherent sm.g.core ∧ (sm.core sm.g.core).l1Wf ∧ sm.uncorr = [] ∧ sm.memWf = true ∧ sm.w.storeQ = [] ∧
    sm.w.remoteHold = false ∧ sm.groupHandler sm.w.group = false ∧ sm.w.slocks = [] := by
  refine ⟨⟨⟨by decide, fun l h => ?_⟩, fun l h => ?_⟩, ⟨by decide, fun l h => ?_⟩, by decide⟩ <;> cases h

theorem wit_loads : ∀ i ∈ ([.ld 8 4 2 2 0 0, .ld 8 5 2 2 3 1, .ldb 8 4 0 2 0 0, .ldb 8 5 0 3 2 3, .ldbX 7 4 0 3 1] : List Instr),
    i.wellFormed = true ∧ (match Claims.load sm i with
      | some r => (prepare sm 4 r.ops none).isNone && placed sm (locateAll r.reach {} r.n sm r.reqs).2
      | none => false) = true := by decide
theorem wit_load_inactive : let s := devC { wm with m := ⟨[(1, 0)]⟩, pre := some { pm := 1 } } gm k0
    s.w.active = 0 ∧ s.w.here ≠ 0 ∧ (match Claims.load s (.ld 8 4 2 2 0 0) with
      | some r => (prepare s 4 r.ops none).isNone && r.sreg.isEmpty
      | none => false) = true := by decide

/-- A result that is on its way. -/
def p0 : Pending := { tag := 3, lanes := 1, vregs := [(8, zeroLanes)], sreg := some (5, 9), mask := some (2, 1, 1) }
theorem wit_result : let s := dev { w0 with pending := [p0] } g0
    ((s.wave 0).pending.find? fun q => q.tag == 3) = some p0 ∧ (p0.vregs.map (·.1)).Nodup ∧
    (∀ q ∈ p0.vregs, q.1 < 128 ∧ (s.wave 0).deferred.get? q.1 = none) := by decide

/-- Tables in HBM: the page of 32 MiB after the first is mapped but not resident. -/
def tables : Memory := memWriteN (memWriteN [] 0x1000 (leBytes 8 0x20001)) 0x20008 (leBytes 8 0x400000F)
/-- Lane 31 of LDR falls on that page. -/
def sl : State := { devC { wm with v := ⟨[(2, lanesOf fun l => if l = 31 then 0x2000000 else BitVec.ofNat 32 (4 * l))]⟩ } gm k0 with
  hbm := tables, ctxs := ⟨[(0, { c0 with root := 0x1000 })]⟩ }
theorem wit_ldr : (Instr.ldr 8 5 2 2 3).wellFormed = true ∧
    (prepare sl 4 (opsLoad 8 5 2 2 ++ [{ field := 2, kind := .mw, reg := 3 }]) none).isNone = true ∧
    ((locateAll {} {} 4 sl (Claims.perLane sl 5 2 0 4)).2.all fun x => match x.2 with
      | .ok ps => decide (x.1.lane ≠ 31) && ps.all fun p => match p.1 with
        | .phys pa _ => !isRemote sl pa
        | _ => false
      | .error f => decide (x.1.lane = 31) && decide (f.reason = rAbsent)) = true := by decide

theorem wit_stores : ∀ i ∈ ([.st 8 4 2 2 0 0, .st 8 5 2 2 2 1, .stX 7 4 0 3 1] : List Instr),
    i.wellFormed = true ∧ (match Claims.store sm i with
      | some r =>
        let u := locateAll {} { write := true } r.n sm r.reqs
        (prepare sm 4 r.ops none).isNone && placed sm u.2 && unlocked sm u.2
      | none => false) = true := by decide
theorem not_locked {s : State} {core k : Nat} {p : Place} (h : lockWait s core k p = false) : ¬Claims.lockedBy s core p (· ≠ k) := by
  rintro ⟨o, x, rfl, hx, hn⟩
  simp [lockWait, Core.lockHolder, hx, hn] at h
theorem wit_drain : ∀ p ∈ [Place.phys 0x2001000 1000000, .buf .s 8], let s := devC { wm with storeQ := [(p, [1, 2, 3, 4])] } gm k0
    (s.wave 0).storeQ = (p, [1, 2, 3, 4]) :: [] ∧ (s.wave 0).storeWait = none ∧ lockWait s 0 0 p = false ∧ s.memWf = true ∧
    (s.core 0).l1 = [] ∧ 0x2001000 % 128 + 4 ≤ 128 := by decide +kernel

theorem wit_atomics : (Instr.atom 8 5 2 0 9).wellFormed = true ∧ (prepare sm 4 (opsAtom 8 5 2 2 9) none).isNone = true ∧
    casCheck 8 2 9 = none ∧ sm.w.active ≠ 0 ∧
    ((locateAll { s := false, a := false, c := false } { write := true, atomic := true } 4 sm (Claims.perLane sm 5 2 0 4)).2.all
      fun x => match x.2 with
        | .ok [(.phys pa _, 4)] => !isRemote sm pa && decide (pa % 4 = 0)
        | _ => false) = true ∧
    (Instr.spatom 8 4 2 0).wellFormed = true ∧ (prepare sm 4 (opsAtom 8 4 2 2 0) none).isNone = true ∧
    placed sm (locateAll { stack := false, a := false, c := false, glob := false } { write := true, atomic := true } 4 sm
      (Claims.perLane sm 4 2 0 4)).2 = true ∧ (sm.core 0).locks = ⟨[]⟩ := by decide

/-- The lock bit of the word at offset 8 is held by wave 5. -/
def sk : State := devC wm gm { k0 with locks := ⟨[(lockOf 8, 5)]⟩ }
theorem wit_locks : ∀ s ∈ [sm, sk],
    (prepare s 4 [{ field := 0, kind := .v, reg := 8, dst := true }, { field := 1, kind := .v, reg := 2, src := some 0 },
      { field := 2, kind := .mw, reg := 3 }, { field := 4, kind := .s, reg := 4 }] none).isNone = true ∧
    (Instr.slock 8 4 2 3).wellFormed = true ∧ (Instr.sunlk 8 4 2).wellFormed = true ∧
    (prepare s 4 (opsStore 8 4 2 2) none).isNone = true ∧ s.w.slocks = [] ∧ s.w.storeQ = [] ∧ s.uncorr = [] ∧ s.memWf = true ∧
    s.w.regen = [] ∧ s.toHandler s.cur { cause := 0x02 } = true ∧
    placed s (locateAll { stack := false, a := false, c := false, glob := false } {} 4 s (Claims.perLane s 4 2 0 4)).2 = true := by decide
theorem wit_lock_held : let u := locateAll { stack := false, a := false, c := false, glob := false } { write := true } 4 sk (Claims.perLane sk 4 2 0 4)
    placed sk u.2 = true ∧ (u.2.any fun x => decide (x.1.lane = 2) && (sk.core 0).locks.get? (lockOf (Claims.spot x)) == some 5) = true := by
  decide

theorem wit_pref : (Instr.pref 5 2 2 0 0).wellFormed = true ∧
    (prepare sm 4 [{ field := 1, kind := .v, reg := 2, src := some 0 }, { field := 4, kind := .s, reg := 5 }] none).isNone = true := by decide

/-- An access to package 1. -/
def m0 (op : RemoteOp) (exp : Nat) : Remote :=
  { tag := 3, owner := 7, va := 0x1000, pa := 2 ^ 43 + 0x100, exp := exp, width := 4, lane := 0, lanes := 1, op := op }
theorem wit_remotes : ∀ op ∈ ([.load, .store [1, 2, 3, 4], .atomic 0 5 0] : List RemoteOp),
    let s := fun (exp : Nat) => { devC { wm with remotes := [m0 op exp], remoteHold := op != .load } gm k0 with now := 100 }
    (((s 50).wave 0).remotes.find? fun q => q.tag == 3) = some (m0 op 50) ∧ 50 < (s 50).now ∧ (s 100).now ≤ 100 ∧
    ((s 100).core 0).l1Find ((2 ^ 43 + 0x100) / 128) = none ∧ (2 ^ 43 + 0x100) % 128 + 4 ≤ 128 ∧ (s 100).memWf = true ∧
    (translate (s 50) 0 0 0x1000 { write := op != .load, atomic := op matches .atomic _ _ _ }).2 = .ok (0x2001000, 1000000) ∧
    ((s 100).wave 0).remoteFault = none ∧ (s 100).w.regen = [] ∧ (s 100).w.here ≠ 0 ∧ (s 100).w.ipc % 2 = 0 := by decide

/-! ### Bindings, fences, recipes and granules -/

/-- The wave issues, outside the replay of a slice. -/
def iss (s : State) : Bool := s.w.regen == [] && s.w.here != 0 && s.w.ipc % 2 == 0
theorem issues_of {s : State} (h : iss s = true) : Issues s ∧ IssuesPlainly s := by
  simp only [iss, Bool.and_eq_true, beq_iff_eq, bne_iff_ne] at h
  exact ⟨.inr ⟨h.1.2, h.2⟩, h.1.1, h.1.2, h.2⟩
theorem l1Wf_of {k : Core} (h : k.l1 = []) : k.l1Wf :=
  ⟨by simp [h], fun l hl => by simp [h] at hl⟩
/-- The refusals of an instruction are taken by the wave's handler. -/
def refuses (s : State) : Bool := s.w.regen == [] && s.toHandler s.cur { cause := 0x02 }
/-- The operands are legal and at hand. -/
def rdy (s : State) (os : List Opnd) : Bool := (prepare s 4 os none).isNone

/-- A wave whose scalar registers hold some values. -/
def ws (l : List (Nat × DWord)) : Wave := { wh with s := ⟨l⟩ }
/-- The operands of BIND s2, s4, with an index and the two words of an entry. -/
def sBind (i lo : DWord) : State := dev (ws [(2, i), (4, lo), (5, 0x1000)]) g0
def goodLo : DWord := BitVec.ofNat 64 (2 ^ 63 + 2 ^ 40 + 1)
theorem wit_bind : (Instr.bind 2 4).wellFormed = true ∧ (Instr.unbind 2).wellFormed = true ∧
    (∀ s ∈ [sBind 3 goodLo, sBind 256 goodLo, sBind 255 0], iss s = true ∧ refuses s = true ∧
      rdy s [{ field := 1, kind := .s, reg := 2 }, { field := 2, kind := .s2, reg := 4 }] = true ∧ rdy s (Claims.scalar1 2) = true) ∧
    ((sBind 3 goodLo).sreg 2).toNat < ((sBind 3 goodLo).ctx (sBind 3 goodLo).g.ctx).bindCount ∧
    ((sBind 256 goodLo).ctx (sBind 256 goodLo).g.ctx).bindCount ≤ ((sBind 256 goodLo).sreg 2).toNat ∧
    ((sBind 255 0).sreg 2).toNat < ((sBind 255 0).ctx (sBind 255 0).g.ctx).bindCount := by decide
theorem wit_entry : Claims.entry ((sBind 3 goodLo).sreg 4) ((sBind 3 goodLo).sreg 5) ∧
    ¬Claims.entry ((sBind 255 0).sreg 4) ((sBind 255 0).sreg 5) := by
  unfold Claims.entry Claims.object; decide

/-- ACQ s6, s7 of the object of kind 0 at 0x1000, with or without a load on its way. -/
def sAcq (p : List Pending) : State := dev { ws [(7, 0x1000)] with pending := p } g0
theorem wit_acq : (Instr.acq 6 7).wellFormed = true ∧ (∀ p ∈ [[p0], []], iss (sAcq p) = true ∧
    rdy (sAcq p) (Claims.scalars 6 7) = true ∧ ((sAcq p).sreg 6).toNat ≤ 5 ∧ (sAcq p).w.remotes = []) := by decide
theorem wit_object : Claims.object ((sAcq []).sreg 6).toNat ((sAcq []).sreg 7).toNat ∧ (sAcq []).c.l1Wf :=
  ⟨by unfold Claims.object; decide, l1Wf_of rfl⟩

/-- A core with one line of four dirty bytes. -/
def kDirty : Core := { k0 with l1 := [{ line := 5, valid := 15, dirty := 15, data := 0 }] }
theorem l1Wf_dirty : kDirty.l1Wf := ⟨by decide, fun l h => by simp [kDirty] at h; subst h; decide⟩
/-- A wave whose loads and stores have completed, before or after the acknowledgement of its write-back. -/
def sFence (scanned : Bool) : State := devC { ws [(9, 0x180), (10, 1024), (7, 0x1000)] with scanned := scanned } g0 kDirty
theorem wit_fences : (∀ b ∈ [true, false], iss (sFence b) = true ∧ rdy (sFence b) [] = true ∧ (sFence b).memWf = true ∧
    (sFence b).w.storeQ = [] ∧ (sFence b).w.pending = [] ∧ (sFence b).w.remotes = [] ∧ (sFence b).w.hostOut = 0 ∧
    rdy (sFence b) (Claims.scalars 6 7) = true ∧ rdy (sFence b) (Claims.scalar1 9) = true) ∧
    Published (sFence true) ∧ Claims.dirtyAt (sFence false).c 5 3 = true ∧
    ((sFence true).sreg 9).toNat < 2 ^ 10 ∧ 2 ^ 10 ≤ ((sFence true).sreg 10).toNat ∧ refuses (sFence true) = true ∧
    rdy (sFence true) (Claims.scalar1 10) = true := by
  refine ⟨by decide, ⟨by decide, by decide, by decide, .inl ⟨by decide, by decide⟩⟩, ?_⟩
  decide
theorem wit_qfence_waits : let s := devC (ws [(9, 0x100)]) g0 { k0 with matrixQ := [{ group := 0, wave := some 0, op := .mzero, tile := 0 }] }
    rdy s (Claims.scalar1 9) = true ∧ (s.sreg 9).toNat < 2 ^ 10 ∧ Claims.inQueues s (s.sreg 9) :=
  ⟨by decide, by decide, .inr (.inl ⟨by decide, _, List.Mem.head _, rfl, fun h => nomatch h⟩)⟩

/-- LOCK s4 of the word at 0x1000, which holds `x`. -/
def sLock (x : Nat) : State := { devC { ws [(4, 0x1000), (5, 7)] with wid := 0 } g0 k0 with hbm := memWriteN [] 0x2001000 (leBytes 8 x) }
theorem wit_lock_words : ∀ x ∈ [0, Claims.tag (sLock 0), 5], iss (sLock x) = true ∧ rdy (sLock x) (Claims.scalar1 4) = true ∧
    rdy (sLock x) (Claims.scalars 4 5) = true ∧ refuses (sLock x) = true ∧ (sLock x).memWf = true ∧ (sLock x).c.l1 = [] ∧
    (sLock x).w.storeQ = [] ∧ (sLock x).w.pending = [] ∧ (sLock x).w.remotes = [] ∧ (sLock x).w.scanned = false ∧
    (sLock x).w.wid < 16 ∧ Claims.wordAt (sLock x) 0x2001000 = x ∧
    (∀ acc ∈ [Claims.atomicWrite, { atomic := true }],
      let y := translate (sLock x) 0 0 0x1000 acc
      y.2 = .ok (0x2001000, 1000000) ∧ (translate y.1 0 0 0x1000 acc).2 = .ok (0x2001000, 1000000)) := by decide

/-- The recipe of v16 and v17, whose values are there or not. -/
def rc (demoted : Bool) : Recipe := { dest := 16, count := 2, entry := 7, slice := 0x100, len := 1, lanes := 1, jord := 0, fpctl := 0, vins := [1], sins := [], demoted := demoted, used := 0 }
/-- A wave with that recipe. -/
def sRec (demoted : Bool) : State := dev { wh with granules := 4, recipes := [rc demoted] } g0
theorem wit_recipes : (∀ b ∈ [true, false], iss (sRec b) = true ∧ rdy (sRec b) (Claims.vector1 16) = true ∧
      ((sRec b).w.recipes.map (·.entry)).Nodup ∧ (sRec b).w.setOf 16 = some (rc b)) ∧
    (sRec false).w.mustRegen 16 = none ∧ (sRec true).w.mustRegen 16 = some (rc true) ∧
    (sRec true).backing 0 + 2 ≤ 2048 := by decide
/-- A slice in the recipe section: `FMUL.f32 v12, v13, v14` for v12. -/
def slc : RSlice := { off := 20, dest := 12, code := [(.fmulF32 12 13 14, 4)] }
/-- A group with recipes, whose launch read that slice. -/
def sMark (recipes : Bool) : State := { dev { wh with granules := 4 } { g0 with ep := { gran := 4, recipes := recipes } } with
  launches := ⟨[(0, { nodes := ⟨[(0, { slices := [slc] })]⟩ })]⟩ }
theorem wit_rmark : (∀ b ∈ [true, false], iss (sMark b) = true ∧ rdy (sMark b) (Claims.vector1 12) = true ∧
      (sMark b).w.mustRegen 12 = none ∧ (sMark b).w.isEmpty 12 = false ∧ (sMark b).g.ep.recipes = b) ∧
    (sMark true).sliceAt 20 = some slc ∧ (sMark true).w.active ≠ 0 ∧
    (sliceForms none slc.code).any (fun fs =>
      sliceAligned 0 12 fs && decide (sliceCount 0 fs = 1) && decide ((sliceInputs 12 fs).flatMap (inputRegs 0) = [13, 14]) &&
        decide ((sliceInputs 12 fs).flatMap inputScalars = [])) = true ∧
    (∀ r ∈ [12, 13, 14], (sMark true).w.isEmpty r = false) ∧ ∀ k ∈ (sMark true).wavesOn 0, ((sMark true).wave k).recipes = [] := by
  decide

/-- A wave with four granules; a core with room, with none and a request, or with none. -/
def sGrow (backing : List (Nat × Wave)) : State := { dev { wh with granules := 4 } g0 with
  waves := ⟨(0, { wh with granules := 4 }) :: backing⟩
  groups := ⟨[(0, { g0 with waves := 16 }), (1, { g0 with waves := 16 })]⟩ }
/-- Twenty-one more waves of twelve granules, without recipes. -/
def others : List (Nat × Wave) := ((List.range 15).map fun n => (n + 1, { wh with wid := n + 1, granules := 12 })) ++
  ((List.range 6).map fun n => (n + 16, { wh with group := 1, wid := n, granules := 12 }))
theorem wit_grow : (∀ b ∈ [[], others], iss (sGrow b) = true ∧ rdy (sGrow b) [] = true ∧ refuses (sGrow b) = true ∧
      (sGrow b).w.granules = 4 ∧ (sGrow b).w.phase = .run ∧ (sGrow b).regWaiters 0 = [] ∧ (sGrow b).w.recipes = [] ∧
      (sGrow b).w.pending = []) ∧ (sGrow []).backing 0 + 8 * 12 ≤ 2048 ∧
    2048 < (sGrow others).backing 0 + 8 * 1 ∧ (sGrow others).demotable 0 = [] := by decide

/-- A GROW of wave 3 that waits for one granule, and room for it. -/
def sGrant (full : Bool) (since : Option Nat) : State := { dev w0 g0 with
  now := 300
  waves := ⟨(3, { wh with wid := 3, granules := 4, phase := .regWait 8 5 true }) :: (if full then others.drop 3 else [])⟩
  groups := ⟨[(0, { g0 with waves := 16 })] ++ (if full then [(1, { g0 with waves := 16 })] else [])⟩
  cores := ⟨[(0, { deadlockSince := since })]⟩ }
theorem wit_grow_grant : (sGrant false none).regWaiters 0 = [(5, 3, 8 * 1, true)] ∧ (sGrant false none).backing 0 + 8 * 1 ≤ 2048 ∧
    ((sGrant false none).wave 3).granules + 1 ≤ 16 ∧ iss { sGrant false none with cur := 3 } = true := by decide +kernel
/-- A core whose groups all have waves that wait for more than is left. -/
def sStuck : State := { dev w0 g0 with
  now := 300
  waves := ⟨[(0, { wh with granules := 16, placed := 1, phase := .regWait 8 5 true }),
             (16, { wh with group := 1, granules := 16, placed := 2, phase := .regWait 8 6 true })] ++
    (List.range 15).map fun n => (n + 1, { wh with wid := n + 1, granules := 16, phase := .regWait 8 7 true })⟩
  groups := ⟨[(0, { g0 with waves := 16, placedAt := 1 }), (1, { g0 with waves := 16, placedAt := 2 })]⟩
  cores := ⟨[(0, { deadlockSince := some 44 })]⟩ }
theorem wit_breaker : sStuck.growStuck 0 = true ∧ sStuck.demotable 0 = [] ∧ (sStuck.core 0).deadlockSince = some 44 ∧
    44 + 256 ≤ sStuck.now ∧ (∀ w ∈ sStuck.regWaiters 0, 2048 < sStuck.backing 0 + w.2.2.1) ∧
    (∀ h ∈ sStuck.resident 0, (sStuck.group h).forced = none) ∧ 1 ∈ sStuck.resident 0 ∧
    (∀ h ∈ sStuck.resident 0, h ≠ 1 → (sStuck.group h).placedAt < (sStuck.group 1).placedAt) := by decide +kernel

/-! ### Handles, page requests and the Spine -/

/-- Handle 63 of the group in some state. -/
def sHandle (x : Handle) : State := dev wh { g0 with handles := ⟨[(63, x)]⟩ }
theorem wit_handles :
    (let s := dev { wh with m := ⟨[(1, 0)]⟩, pre := some { pm := 1 } } { g0 with ep := { gran := 16, nib := true } }
     s.w.here ≠ 0 ∧ s.w.ipc % 2 = 0 ∧ s.g.ep.nib = true ∧ bit s.w.active s.w.nib = false) ∧
    (∀ st ∈ [0, 1, 2, 3], let s := sHandle { bound := true, st := { state := st, len := 7, code := 2, skip := 5 } }
     iss s = true ∧ s.g.ep.nib = false ∧ rdy s [] = true ∧ (Claims.handle s 63).poison = none ∧ (Claims.handle s 63).st.state = st ∧
     (Claims.handle s 63).st.len < 2 ^ 32 ∧ s.c.l1 = [] ∧ rdy s [{ field := 0, kind := .s, reg := 5, dst := true }] = true) ∧
    (let s := sHandle { bound := true, poison := some (0x07, 1, 2) }
     rdy s [] = true ∧ (Claims.handle s 63).poison = some (0x07, 1, 2) ∧ s.w.regen = [] ∧
     s.toHandler s.cur { cause := 0x07 } = true) := by decide

/-- PAGEREQ of an address that is mapped, of one that is not resident, and of one outside the global window. -/
def sPage (a : DWord) (h : Handle) : State := { devC (ws [(4, a)]) { g0 with handles := ⟨[(3, h)]⟩ } k0 with
  hbm := tables, ctxs := ⟨[(0, { c0 with root := 0x1000 })]⟩, now := 9000 }
theorem wit_pagereq : (∀ a ∈ [0x1000, 0x2000000], let s := sPage (BitVec.ofNat 64 a) {}
      iss s = true ∧ s.w.storeQ = [] ∧ (Claims.handle s 3).poison = none ∧ s.canBind 0 3 = true ∧ rdy s (Claims.scalar1 4) = true ∧
      rdy s [] = true ∧ (s.sreg 4).toNat < 0xFE0000000000) ∧
    (Claims.filled (sPage 0x1000 {}) 0 0x1000 {}).isSome = true ∧ (Claims.filled (sPage 0x2000000 {}) 0 0x2000000 {}).isSome = false ∧
    (let s := sPage 0xFE0000000000 { bound := true }
     iss s = true ∧ rdy s (Claims.scalar1 4) = true ∧ 0xFE0000000000 ≤ (s.sreg 4).toNat ∧ refuses s = true ∧ rdy s [] = true ∧
     s.canBind 0 3 = false ∧ s.w.storeQ = [] ∧ (Claims.handle s 3).poison = none) ∧
    ((sPage 0 { bound := true, work := .fill 0x2000000 none }).handle 0 3).work = .fill 0x2000000 none ∧
    (∀ due ∈ [9000, 9001], ((sPage 0 { bound := true, work := .settle due }).handle 0 3).work = .settle due) ∧
    (sPage 0 {}).now = 9000 := by decide +kernel
theorem wit_lease : ((sFence false).core 0).l1Find 5 = some { line := 5, valid := 15, dirty := 15, data := 0 } ∧
    (0 : Nat) ≤ (sFence false).now + 2000 ∧ (sFence false).memWf = true ∧ ((sFence false).core 0).l1Wf :=
  ⟨rfl, by decide, by decide, l1Wf_dirty⟩

/-- Core 0 with a context that holds both cores of its pair, or not; the FIFO into the partner and its own. -/
def sSpine (both : Bool) (x y : Spine) : State := { dev wh g0 with
  ctxs := ⟨[(0, { c0 with cores := [(0, false)] ++ if both then [(192, false)] else [] })]⟩
  cores := ⟨[(0, { spine := y }), (192, { spine := x })]⟩ }
theorem wit_spine : partner 0 = 192 ∧ (∀ f ∈ [0, 16], ∀ e ∈ [[], [(5, zeroLanes)], [(0, zeroLanes), (9, zeroLanes)]],
      let s := sSpine true { free := f } { entries := e }
      iss s = true ∧ s.granted 0 0 = true ∧ s.granted 0 192 = true ∧ s.spineFree 192 = f ∧ s.uncorr = [] ∧
      rdy s [{ field := 1, kind := .v, reg := 7, src := some 0 }] = true ∧
      rdy s [{ field := 0, kind := .v, reg := 7, dst := true }] = true ∧
      rdy s [{ field := 0, kind := .s, reg := 7, dst := true }] = true) ∧
    (let s := sSpine false {} {}
     iss s = true ∧ s.granted 0 192 = false ∧ refuses s = true ∧
     rdy s [{ field := 1, kind := .v, reg := 7, src := some 0 }] = true) := by decide
theorem wit_pair_folio : let s := { sSpine true {} {} with
      ctxs := ⟨[(0, { c0 with cores := [(0, false), (192, false)], folioUsed := [3]
                              pairFolios := [(3, 0, { entries := [(0, zeroLanes)] }, {})] })]⟩ }
    (s.ctx 0).pairFolios = [(3, 0, { entries := [(0, zeroLanes)] }, {})] ∧ s.holdsTurn 0 0 = true ∧
    s.holdsTurn 0 (0 + 192) = true ∧ (s.core 0).spine.entries = [] ∧ (s.core 192).spine.entries = [] := by decide

/-! ### Copies, circular buffers and the engines -/

/-- A layout record: four FP32 elements at 0x2000. -/
def record : List Byte :=
  leBytes 8 0x2000 ++ leBytes 8 0x100 ++ List.replicate 48 0 ++ leBytes 12 (4 + 2 ^ 32 + 4 * 2 ^ 80) ++ List.replicate 180 0
/-- A copy or drain of it through S, by the group's one wave. -/
def eo (drain : Bool) : EngineOp :=
  { drain := drain, group := 0, launch := 0, set := 0, num := 0, handle := 1, recAddr := 0x1000, layout := layoutOf record
    buf := 0, counted := [0] }
/-- CPY and CPYD of that record, with a queue. -/
def sCopy (l : List EngineOp) : State := { devC { ws [(6, 0x1000)] with } gm k0 with
  hbm := memWriteN [] 0x2001000 record, clusters := ⟨[(0, { engines := ⟨[(0, l)]⟩ })]⟩ }
theorem wit_copy : ∀ drain ∈ [true, false], ∀ l ∈ [[], [eo drain]], let s := sCopy l
    (Instr.cpy 4 1 0 6 0 0).wellFormed = true ∧ (Instr.cpyd 4 1 0 6 0 0).wellFormed = true ∧
    iss s = true ∧ s.g.ep.nib = false ∧ (prepare s 4 (Claims.copyOps 4 6) none).isNone = true ∧
    (Claims.firstBad (Claims.copyFirst drain s 0 6)).isNone = true ∧ (Claims.firstBad (Claims.copyRest drain s 6 record 0)).isNone = true ∧
    (s.handle 0 1).poison = none ∧ s.w.storeQ = [] ∧ s.c.l1 = [] ∧ (s.sreg 6).toNat % 2 ^ 48 = 0x1000 ∧
    (layoutOf record).ndim = 0 ∧ s.canBind 0 1 = true ∧ (s.sreg 7).toNat = 0 ∧
    s.g.copies.getD (16 * 0 + s.w.wid) 0 = 0 ∧ s.g.opsBegun 0 ≤ 0 ∧ (s.queueOf 0 0 0).length < 16 ∧
    s.findOp 0 0 0 = (l.head?.map fun o => (engineKey 0 0, o)) := by decide +kernel
theorem wit_copy_skipped : let s := dev { wh with m := ⟨[(1, 0)]⟩, pre := some { pm := 1 } } { g0 with ep := { gran := 16, nib := true } }
    Claims.skipped s ∧ operandTrap s.w 4 (Claims.copyOps 4 6) = none := by unfold Claims.skipped; decide

/-- A descriptor of core 0 and CBSET's word in s4. -/
def sCb (x : CBuf) (w : DWord) : State := devC (ws [(4, w)]) { gm with ra := { base := 0, size := 4096 } } { k0 with cbs := ⟨[(7, x)]⟩ }
/-- Two slots of 128 bytes in A. -/
def cbw : DWord := BitVec.ofNat 64 (2 * 2 ^ 40 + 2 ^ 28)
theorem wit_cb : Claims.cbWord (sCb {} cbw) cbw.toNat ∧ ¬Claims.cbWord (sCb {} 0) 0 ∧
    (∀ x ∈ [({} : CBuf), { valid := true, count := 2, filled := 1, taken := 1 }, { valid := true, count := 2, claimed := [(0, false)] },
        { valid := true, owner := 3 }], ∀ u ∈ [true, false], let w := if u then cbw else 0
      iss (sCb x w) = true ∧ rdy (sCb x w) (Claims.scalar1 4) = true ∧ rdy (sCb x w) [] = true ∧ (sCb x w).g.ep.nib = false ∧
      rdy (sCb x w) [{ field := 0, kind := .s, reg := 5, dst := true }] = true ∧ refuses (sCb x w) = true ∧
      Claims.cbuf (sCb x w) 7 = x ∧ (sCb x w).w.group = 0) := by
  refine ⟨?_, ?_, ?_⟩
  · unfold Claims.cbWord; decide
  · unfold Claims.cbWord; decide
  · decide

/-- An operation at the head of queue 0 of cluster 0; a second group on core 1. -/
def sEng (o : EngineOp) : State := { sCopy [o] with
  now := 100
  hbm := memWriteN tables 0x20000 (leBytes 8 0x200001F)
  ctxs := ⟨[(0, { c0 with root := 0x1000 })]⟩
  groups := ⟨[(0, { gm with handles := ⟨[(1, { bound := true, st := { state := 1 }, work := .engine })]⟩ }), (1, { gm with core := 1 })]⟩
  waves := ⟨[(0, wh), (16, { wh with group := 1 })]⟩
  cores := ⟨[(0, { k0 with cbs := ⟨[(2, { valid := true, count := 2, free := 1 }), (3, { valid := true, count := 2 })]⟩ })]⟩
  launches := ⟨[(0, { ranOn := [2] })]⟩ }
/-- The operation with its one slice. -/
def eo1 (drain : Bool) : EngineOp := { eo drain with slices := [{ wid := 0, starts := [0], d := 128 }] }
theorem wit_engine_claim : ∀ c ∈ [2, 3], let o := { eo1 false with cb := some c }
    ((sEng o).queueOf 0 0 0).head? = some o ∧ (((sEng o).core 0).cbs.getD c {}).free = 3 - c := by decide +kernel
theorem wit_engine_start : ∀ drain ∈ [true, false], ((sEng (eo1 drain)).queueOf 0 0 0).head? = some (eo1 drain) ∧
    (∀ w ∈ (eo1 drain).counted, ∃ x ∈ (eo1 drain).slices, x.wid = w) ∧ (sEng (eo1 drain)).uncorr = [] ∧
    (sEng (eo1 drain)).engineFault (eo1 drain) = none ∧
    (sEng { eo1 drain with layout := { (eo1 drain).layout with base := 0x2000000 } }).engineFault
      { eo1 drain with layout := { (eo1 drain).layout with base := 0x2000000 } } ≠ none := by decide +kernel
theorem wit_engine_ends :
    (let o := { eo1 false with started := true, targets := [{ k := 0, group := some 0 }] }
     ((sEng o).queueOf 0 0 0).head? = some o ∧ (sEng o).copyWaits o 0 = [] ∧ (sEng o).fits o 0 = true) ∧
    (let o := { eo1 true with started := true }
     ((sEng o).queueOf 0 0 0).head? = some o ∧ (sEng o).drainWaits o = []) ∧
    (∀ k ∈ [1, 2], let o := { eo1 false with started := true, mcast := 7, targets := [{ k := k }] }
     ((sEng o).queueOf 0 0 0).head? = some o ∧ (sEng o).oldestOn 0 (4 * 0 + k) = (if k = 1 then some 1 else none) ∧
     (sEng o).canBind 1 1 = true ∧ (sEng o).copyWaits o 1 = [] ∧ (sEng o).fits o 1 = true ∧
     4 * 0 + 2 ∈ ((sEng o).launch 0).ranOn) ∧
    (let o := { eo1 false with started := true, mcast := 8, targets := [{ k := 3, deadline := 100 }] }
     ((sEng o).queueOf 0 0 0).head? = some o ∧ 100 ≤ (sEng o).now) ∧ (sEng (eo1 false)).memWf = true := by decide +kernel

/-! ### The matrix array -/

/-- A group with 64 KiB of each buffer, and tiles of its own for the handler. -/
def gt : Group := { g0 with
  ep := { gran := 16, htFirst := 1, htCount := 1 }
  rs := { size := 65536 }, ra := { size := 65536 }, rw := { size := 65536 }, rc := { size := 65536 } }
/-- A tile descriptor, A in S, B in S, B in W, an A that awaits a handle, and the source of a gather. -/
def wt : Wave := ws [(4, 0x4000), (5, BitVec.ofNat 64 Config.bufBase), (6, BitVec.ofNat 64 Config.bufBase),
  (7, BitVec.ofNat 64 (Config.bufBase + 2 * 2 ^ 24)), (8, BitVec.ofNat 64 (Config.bufBase + 2 ^ 62 + 3 * 2 ^ 56)),
  (9, BitVec.ofNat 64 (Config.bufBase + 2 ^ 48))]
/-- A matrix command of that wave. -/
def mc (op : MatOp) : MatCmd := { group := 0, wave := some 0, op := op, tile := 0x4000 }
/-- Core 0 with a matrix queue; the other wave of the group is in handler mode, or this one, or none. -/
def sMat (q : List MatCmd) (me other : Bool) : State := { devC wt gt { k0 with matrixQ := q } with
  waves := ⟨[(0, { wt with handler := me, hdx := lanesOf fun _ => 0 }), (1, { wt with wid := 1, handler := other })]⟩
  groups := ⟨[(0, { gt with waves := 2 })]⟩ }
theorem wit_matrix : ∀ p ∈ [([], false, false), ([], true, false), ([], false, true), (List.replicate 16 (mc .mzero), false, false)],
    let s := sMat p.1 p.2.1 p.2.2
    iss s = true ∧ s.w.storeQ = [] ∧ s.g.ep.nib = false ∧ s.matrixRoom 0 = p.1.isEmpty ∧
    s.groupHandler 0 = (p.2.1 || p.2.2) ∧ s.w.handler = p.2.1 ∧ (∀ h, h < 64 → (s.handle 0 h).poison = none) ∧
    ∀ i ∈ ([.mmaPtBf16 4 5 6 true, .mmaPtBf16 4 8 6 false, .mmaPtDpw8 4 5 7 true, .mmaPtF32 4 5 6 false, .mmaMinpF32 4 5 6 true,
        .mmaMaxpF32 4 5 6 false, .mmaMaxtF32 4 5 6 false, .mmaOrandBits 4 5 6, .mzero 4, .mflags 3 4, .mflagsClr 3 4] : List Instr),
      i.wellFormed = true ∧ (Claims.matrix s i).any (fun r => (prepare s 4 r.ops none).isNone && (Claims.firstBad r.chk).isNone) = true := by decide +kernel
theorem wit_gather : let s := sMat [] false false
    (Instr.mgather 20 9).wellFormed = true ∧ (Claims.firstBad (Claims.gatherChecks s (s.sreg 9) 9 (List.replicate 64 0))).isNone = true ∧
    (prepare s 4 [{ field := 1, kind := .v2, reg := 20, src := some 0 }, { field := 2, kind := .s, reg := 9 }]
      none).isNone = true ∧ (s.sreg 9).getLsbD 62 = false ∧ (lane (s.vaReg 20) 5) = 0 ∧
    (lane (s.vaReg 21) 31) = 0 := by decide +kernel
theorem wit_mma : (∀ sr ∈ [Semiring.ptBf16, .ptDpw8, .ptF32, .minp, .maxp, .maxt, .orand],
      let m := mc (.mma sr false (wt.sreg 5) (wt.sreg (if sr = .ptDpw8 then 7 else 6)))
      let s := sMat [m] false false
      (s.core 0).oldest 0 = some m ∧ (∀ n ∈ (s.core 0).matrixQ, n.started = false) ∧
      s.handlesFull 0 [wt.sreg 5, wt.sreg (if sr = .ptDpw8 then 7 else 6)] = true ∧ m.latch ≤ (s.group 0).gathered ∧ s.uncorr = []) ∧
    (∀ op ∈ [MatOp.mzero, .mflags 1 3 true, .mflags 1 3 false], ((sMat [mc op] false false).core 0).oldest 0 = some (mc op) ∧
      ((sMat [mc op] false false).wave 1).phase ≠ .ended) ∧
    (let q : Gather := { group := 0, seq := 1, desc := wt.sreg 9, idx := List.replicate 64 0 }
     let s := { sMat [] false false with cores := ⟨[(0, { k0 with gatherQ := [q] })]⟩ }
     (s.core 0).gatherQ = [q] ∧ window (q.desc.toNat % 2 ^ 48) = .buf .s 0 ∧ s.handlesFull 0 [q.desc] = true ∧
     (s.core 0).memWf = true ∧ s.matrixWork 0 = []) := by decide +kernel
/-- An MMA whose sums are formed. -/
def mcDue : MatCmd := { mc (.mma .minp false (wt.sreg 5) (wt.sreg 6)) with started := true, sums := List.replicate 4096 0 }
theorem wit_mma_due : ((sMat [mcDue] false false).core 0).matrixQ.find? (·.started) = some mcDue ∧ mcDue.sums.length = 4096 ∧
    ((sMat [mcDue] false false).core 0).memWf = true := ⟨rfl, List.length_replicate, by decide +kernel⟩

/-! ### Record queues -/

/-- A node of two slots of 32 bytes at 0x4000. -/
def nd (slots : Tab SlotState) (check : Nat) : Node := { ep := { gran := 16, recsz := 1, depth := 4 }, cap := 2, base := 0x4000, slots := slots, check := check }
/-- Memory with a record in the first slot: its header with a depth and a join address; the join block at 0x5000 with a count. -/
def recMem (depth join count : Nat) : Memory :=
  memWriteN (memWriteN (memWriteN [] 0x2004000 (leBytes 8 (depth * 256))) 0x2004008 (leBytes 8 join)) 0x2005000 (leBytes 8 count)
/-- A group of a launch of one node. -/
def sRq (n : Node) (depth : Nat) (h : Memory) : State := { devC (ws [(5, 1)]) { g0 with depth := depth, launchBase := 0x4000, records := [0] } k0 with
  hbm := h
  ctxs := ⟨[(0, { c0 with qbase := 0x4000 })]⟩
  launches := ⟨[(0, { nodes := ⟨[(0, n)]⟩, nodeCount := 1 })]⟩ }
theorem wit_rqalloc : (Instr.rqalloc 8 4 5).wellFormed = true ∧ (∀ d ∈ [3, 63], ∀ a ∈ [4, 5],
      let s := sRq (nd ⟨[(1, .committed)]⟩ 0) d []
      iss s = true ∧ rdy s (Claims.allocOps 8 a 5) = true ∧ refuses s = true ∧ lanesIn s.w.active = List.range 32 ∧
      ((s.sreg a).toNat < (s.launch 0).nodeCount ↔ a = 4) ∧ s.toHandler s.cur { cause := 0x08 } = true ∧
      (s.node 0 0).slots.keys.Nodup ∧ (∀ j ∈ (s.node 0 0).slots.keys, j < (s.node 0 0).cap)) ∧
    (let s := sRq (nd ⟨[(1, .committed)]⟩ 0) 3 []
     placed s (locateAll {} { write := true } 8 s (headerReqs 0x4000 32 ((lanesIn s.w.active).map fun l =>
       (l, Claims.slotOf s (s.node 0 0) l)))).2 = true) := by decide +kernel
/-- Every lane commits the record in slot 0. -/
def sCommit (check : Nat) : State := sRq (nd ⟨[(0, .allocated 0)]⟩ check) 3 (recMem 4 0 0)
theorem published_commit (check : Nat) : Published (sCommit check) := ⟨rfl, rfl, rfl, .inr ⟨rfl, fun _ h => nomatch h⟩⟩
theorem wit_rqcommit : (∀ check ∈ [1, 2], let s := sCommit check
      iss s = true ∧ rdy s (Claims.recordOps 8) = true ∧ s.memWf = true ∧ s.c.l1 = [] ∧
      (match (commitLanes (s.vaReg 8) s [] (lanesIn s.w.active)).2 with
        | .ok cs => cs == [{ node := 0, slot := 0, depth := 4, join := 0 }]
        | .error _ => false) = true) ∧
    (let s := { sRq (nd ⟨[]⟩ 1) 3 [] with waves := ⟨[(0, { ws [] with v := ⟨[(8, lanesOf fun _ => 8)]⟩ })]⟩ }
     rdy s (Claims.recordOps 8) = true ∧ (s.launch 0).slotAt (0x4000 + (lane (s.vaReg 8) 0).toNat) = none ∧
     s.toHandler s.cur { cause := 0x08 } = true ∧ lanesIn s.w.active = 0 :: (List.range 32).tail) := by decide +kernel
theorem wit_rqinfo : let s := sRq (nd ⟨[]⟩ 1) 3 []
    ∀ n ∈ [0, 7, 8, 15], ∀ a ∈ [4, 5], (Instr.rqinfo 3 a n).wellFormed = true ∧ iss s = true ∧ rdy s (Claims.opsDA 3 a) = true ∧ refuses s = true ∧
      ((s.sreg a).toNat < (s.launch 0).nodeCount ↔ a = 4) := by decide +kernel
/-- One lane, which joins with 0x5000. -/
def sJoin (count : Nat) : State :=
  let s := sRq (nd ⟨[(0, .assigned 0), (1, .committed)]⟩ 1) 3 (recMem 4 0x5000 count)
  { s with waves := ⟨[(0, { s.w with dx := lanesOf fun l => if l = 0 then 0 else 4 })]⟩ }
theorem wit_rqjoin : (∀ count ∈ [0, 1, 5], let s := sJoin count
      iss s = true ∧ rdy s (Claims.recordOps 8) = true ∧ s.recordCheck (s.vaReg 8) = none ∧ s.memWf = true ∧ s.c.l1 = [] ∧
      s.toHandler s.cur { cause := 0x08 } = true ∧ Claims.wordAt s 0x2005000 = count ∧ (s.node 0 0).nextFree = none ∧
      (match joinLanes (s.vaReg 8) s [] (lanesIn s.w.active) with
        | (s1, .ok j) => j == [{ lane := 0, join := 0x5000, pa := 0x2005000 }] &&
            bits (((s1.atHome 0 0 [(0x2005000, 8)] fun _ => count - 1).1).contHeader 0x5000) 13 0 == 0
        | (_, .error _) => false) = true) ∧
    (let s := { sJoin 1 with waves := ⟨[(0, { ws [] with v := ⟨[(8, lanesOf fun _ => 32)]⟩ })]⟩ }
     iss s = true ∧ rdy s (Claims.recordOps 8) = true ∧ s.recordCheck (s.vaReg 8) = some 0 ∧ refuses s = true) := by decide +kernel

/-! ### The tree of contexts -/

/-- An issuer with one child, 16, and a spare context, 17, that is none; the ID in s5 and the word in s6. -/
def sTree (id : Nat) (w : Nat) : State := { devC (ws [(5, BitVec.ofNat 64 id), (6, BitVec.ofNat 64 w)]) g0 k0 with
  ctxs := ⟨[(0, { c0 with root := 0x1000, share := 200, energy := ⟨[(0, 9)]⟩, ipeak := ⟨[(0, 9)]⟩, qmem := 262144 }),
            (16, { depth := 2, parent := some 0, cores := [(3, false)], windows := [{ base := 65536, size := 65536 }], qmem := 65536
                   bindCount := 8, share := 8, energy := ⟨[(0, 1)]⟩ }),
            (17, { depth := 2 })]⟩
  hbm := tables }
/-- CORES core 1, MEM, QMEM, BIND 4, ENERGY_IPEAK and BANDWIDTH words; ROOT and the three verdicts of RESUME. -/
def gw : List Nat := [2, 2 ^ 60 + 2 ^ 24 + 1, 2 * 2 ^ 60, 3 * 2 ^ 60 + 4, 4 * 2 ^ 60 + 1, 5 * 2 ^ 60 + 8]
theorem wit_legal : (∀ w ∈ gw ++ [8, 2 ^ 60 + 2 ^ 56 - 2 ^ 24 + 1, 2 * 2 ^ 60 + 9999, 3 * 2 ^ 60 + 256, 4 * 2 ^ 60 + 99, 5 * 2 ^ 60 + 256,
      6 * 2 ^ 60 + 0x1000, 7 * 2 ^ 60 + 9, 7 * 2 ^ 60 + 2 ^ 33 + 9], Claims.legal w) ∧ ¬Claims.legal (8 * 2 ^ 60) := by
  simp [gw, Claims.legal, Claims.gfield]
theorem wit_unused : (∀ k ∈ Claims.namedCores 2, (sTree 16 2).granted 0 k = true ∧ k ∉ (sTree 16 2).limboCores 0 ∧
      ∀ e ∈ (sTree 16 2).children 0, e ≠ 16 → (sTree 16 2).granted e k = false) ∧
    ((sTree 16 0).ctx 16).windows.length < 8 ∧ 65536 ≤ (sTree 16 0).spareQmem 0 ∧ 4 ≤ ((sTree 16 0).ctx 0).bindCount ∧
    ((sTree 16 0).ctx 0).binds = ⟨[]⟩ ∧ Claims.children (sTree 16 0) 0 (fun y => y.energy.getD 0 0) + 1 ≤ ((sTree 16 0).ctx 0).energy.getD 0 0 ∧
    Claims.children (sTree 16 0) 0 (·.share) + 8 ≤ ((sTree 16 0).ctx 0).share ∧
    (sTree 16 0).spareQmem 0 < 9999 * 65536 ∧ ((sTree 16 0).ctx 0).share < Claims.children (sTree 16 0) 0 (·.share) + 256 := by
  decide +kernel
theorem wit_tree : ∀ w ∈ gw, ∀ id ∈ [16, 17], let s := sTree id w
    iss s = true ∧ refuses s = true ∧ rdy s [{ field := 0, kind := .s, reg := 4, dst := true }, { field := 1, kind := .s, reg := 5 },
      { field := 2, kind := .s, reg := 6 }] = true ∧ s.childOf 0 (id % 2 ^ 16) = decide (id = 16) ∧ rdy s (Claims.scalars 5 6) = true ∧
    rdy s (Claims.scalar1 5) = true ∧ (Claims.handle s 2).poison = none ∧ s.canBind 0 2 = true ∧ s.w.storeQ = [] ∧
    0 ∉ s.descendants 16 ∧ 0 < leaseHorizon s 0 ∧ s.cur / 16 = s.w.group ∧ s.groups.keys.Nodup := by decide +kernel
/-- A revocation under way, without work on its cores, with its time or without. -/
def rv (kind : Option Nat) (due : Option Nat) : Revoke := { child := 16, kind := kind, group := 0, handle := 2, cores := [3], due := due }
def sRev (r : Revoke) (k : Core) : State := { sTree 16 0 with
  now := 100, cores := ⟨[(3, k)]⟩
  ctxs := ⟨[(0, { c0 with revokes := [r] }), (16, { depth := 2, parent := some 0, cores := [(3, false)] })]⟩ }
theorem wit_revocation : (∀ r ∈ [rv (some 0) none, rv (some 1) (some 100), rv none (some 101)], let s := sRev r {}
      (∃ p ∈ s.ctxs.rows, p.1 = 0 ∧ r ∈ p.2.revokes) ∧ (∀ p ∈ s.ctxs.rows, ∀ q ∈ p.2.revokes, p.1 = 0 ∧ q = r) ∧
      0 ∉ s.descendants r.child ∧ r.child ≠ 0) ∧ (sRev (rv (some 0) none) {}).revokeStopped (rv (some 0) none) = true ∧
    0 < leaseHorizon (sRev (rv (some 0) none) {}) 0 ∧
    (sRev (rv (some 0) none) { leaving := [(16, false)] }).revokeStopped (rv (some 0) none) = false := by decide +kernel
/-- A ticket of a stopped wave of another group, whose ring is the issuer's, or not. -/
def sTick (ring w : Nat) : State := { sTree 16 w with
  waves := ⟨[(0, ws [(6, BitVec.ofNat 64 w)]), (16, { wh with group := 1, phase := .verdict 9 })]⟩
  groups := ⟨[(0, g0), (1, { g0 with ctx := 16, core := 3 })]⟩
  tickets := ⟨[(9, { wave := 16, tepc := 0, ring := ring, frontEnd := false, skip := 4 })]⟩ }
theorem wit_resume : ∀ v < 3, let s := sTick 0 (7 * 2 ^ 60 + v * 2 ^ 32 + 9)
    (s.ticketWave 9) = some { wave := 16, tepc := 0, ring := 0, frontEnd := false, skip := 4 } ∧ 16 ≠ s.cur ∧
    (s.group (s.wave 16).group).phase = .resident ∧ (s.group (s.wave 16).group).forced = none ∧ (s.wave 16).group ≠ s.w.group ∧
    (∀ k ∈ s.wavesOf 1, (s.wave k).group = 1) ∧ (s.ticketWave 8) = none ∧
    (sTick 3 0).ticketWave 9 = some { wave := 16, tepc := 0, ring := 3, frontEnd := false, skip := 4 } := by decide +kernel

/-- A descriptor of a child: one folio slot, and a watchdog period. -/
def desc (wdog : Nat) : List Byte := List.replicate 56 0 ++ leBytes 8 (65536 + wdog * 2 ^ 32) ++ List.replicate 64 0
/-- CTXNEW from 0x1000 by a context of a depth. -/
def sNew (depth wdog : Nat) (more : List (Nat × Context)) : State := { devC (ws [(6, 0x1000)]) g0 k0 with
  hbm := memWriteN [] 0x2001000 (desc wdog), ctxs := ⟨(0, { c0 with depth := depth }) :: more⟩ }
theorem wit_ctxnew : ∀ d ∈ [1, 8], ∀ wdog ∈ [0, 60001], let s := sNew d wdog []
    (Instr.ctxnew 4 6).wellFormed = true ∧ iss s = true ∧ rdy s (Claims.opsDA 4 6) = true ∧
    (match (s.loadRun 0x1000 128).2 with
      | .ok b => b == desc wdog
      | .error _ => false) = true ∧ s.ctxs.get? 16 = none := by decide +kernel
/-- Every ID names a context. -/
def allIds : List (Nat × Context) := (List.range 0xFFFF).map fun n => (n, {})
theorem rowsGet_isSome {α : Type} (l : List (Nat × α)) (k : Nat) (h : k ∈ l.map (·.1)) :
    (rowsGet none (l.map fun r => (r.1, some r.2)) k).isSome = true := by
  induction l with
  | nil => simp at h
  | cons p t ih =>
    simp only [List.map_cons, rowsGet]
    split
    · rfl
    · next hk =>
      rw [List.map_cons, List.mem_cons] at h
      exact ih (h.resolve_left fun e => hk e.symm)
theorem wit_no_id : ∀ id, 16 ≤ id → id ≤ 0xFFFE → ((sNew 1 0 allIds).ctxs.get? id).isSome = true := fun id _ h =>
  rowsGet_isSome _ id (List.mem_cons_of_mem _ (List.mem_map.mpr ⟨(id, {}), List.mem_map.mpr ⟨id, List.mem_range.mpr (by omega), rfl⟩, rfl⟩))
theorem wit_ctxstat : ∀ id ∈ [16, 17, 0xFFFF], ∀ n ∈ [0, 3, 5, 6, 7], let s := sTree id 0
    (Instr.ctxstat 4 5 n).wellFormed = true ∧ iss s = true ∧ rdy s (Claims.opsDA 4 5) = true ∧ refuses s = true ∧
    Claims.named s (id % 2 ^ 16) = (if id = 16 then some 16 else if id = 17 then none else some 0) := by decide +kernel

/-! ### Special registers and traps -/

/-- A wave in handler mode or not, with the word in s4. -/
def sSpec (h : Bool) (x : Nat) : State := dev { ws [(4, BitVec.ofNat 64 x)] with
  handler := h, hdx := lanesOf fun _ => if h then 0x100 else 0xFFFFFFFF, preempted := h, dx := lanesOf fun l => if l = 31 then 0xFFFFFFFF else 8 } g0
theorem wit_special : ∀ h ∈ [true, false], ∀ x ∈ [0, 2 ^ 40], let s := sSpec h x
    iss s = true ∧ rdy s [{ field := 0, kind := .s, reg := 5, dst := true }] = true ∧ rdy s [{ field := 1, kind := .s, reg := 4 }] = true ∧
    rdy s [{ field := 0, kind := .v, reg := 7, dst := true }] = true ∧
    rdy s [{ field := 1, kind := .v, reg := 7, src := some 0 }] = true ∧ refuses s = !h ∧
    (∀ n ∈ [0x00, 0x01, 0x02, 0x03, 0x08, 0x09, 0x0A, 0x0B, 0x0C, 0x10, 0x11, 0x12, 0x14, 0x15, 0x16, 0x20, 0x2F],
      (Instr.csrr 5 n).wellFormed = true ∧ (Claims.special s n).isSome = true) ∧
    (∀ n ∈ [0x00, 0x01, 0x02, 0x03, 0x08, 0x09, 0x12, 0x20], (Instr.csrw n 4).wellFormed = true) ∧ (Instr.pmcr 5 15).wellFormed = true := by
  decide +kernel
theorem wit_accepts : Claims.accepts s0 0 7 ∧ ¬Claims.accepts s0 0 8 ∧ Claims.accepts s0 2 0xF7 ∧ ¬Claims.accepts s0 2 8 ∧
    Claims.accepts s0 3 0x100 ∧ ¬Claims.accepts s0 3 0xFF ∧ Claims.accepts s0 0x12 1023 ∧ ¬Claims.accepts s0 0x12 0 ∧
    Claims.accepts s0 0x20 5 ∧ ¬Claims.accepts s0 0x10 0 := by
  have h1 : s0.g.ep.gen = 3 := by decide
  have h2 : s0.w.ppoint = 0x1000 := by decide
  simp [Claims.accepts, h1, h2]
/-- Lane 3 alone would get an odd PC; or lane 31, which has retired, a PC; or no lane. -/
def sDx (h : Bool) (odd : Bool) : State := dev { (sSpec h 0).w with v := ⟨[(7, lanesOf fun l =>
  if odd && l = 3 then 5 else if l = 31 then 0xFFFFFFFF else 16)]⟩ } g0
/-- Claims.badPc, decided. -/
def isBad (s : State) (x : Lanes) (l : Nat) : Bool :=
  ((lane x l).toNat % 2 == 1 && lane x l != 0xFFFFFFFF) || (lane s.w.dx l == 0xFFFFFFFF && lane x l != 0xFFFFFFFF)
theorem isBad_iff (s : State) (x : Lanes) (l : Nat) : isBad s x l = true ↔ Claims.badPc s x l := by simp [isBad, Claims.badPc]
theorem wit_csrw_dx : (∀ h ∈ [true, false], let s := sDx h false
      iss s = true ∧ ∀ l, l < 32 → bit s.w.active l = true → isBad s (s.vaReg 7) l = false) ∧
    (let s := sDx false true
     iss s = true ∧ refuses s = true ∧ bit s.w.active 3 = true ∧ isBad s (s.vaReg 7) 3 = true ∧
     ∀ j, j < 3 → bit s.w.active j = true → isBad s (s.vaReg 7) j = false) ∧
    (let s := sSpec true 0
     bit s.w.active 31 = true ∧ isBad s (s.vaReg 7) 31 = true) := by decide +kernel

/-- A context without a parent; its group reflects, or not; the liveness table has one entry. -/
def sTrap (h : Bool) (w : Wave) : State := { dev { w with handler := h, hdx := lanesOf fun _ => if h then 0x100 else 0xFFFFFFFF, preempted := h } g0 with
  launches := ⟨[(0, { nodes := ⟨[(0, { live := [{}] })]⟩ })]⟩ }
theorem wit_traps : (∀ h ∈ [true, false], let s := sTrap h (ws [(4, 0), (5, 1)])
      iss s = true ∧ s.w.pre = none ∧ (∀ c ∈ [0x01, 0x0D, 0x03], s.toHandler s.cur { cause := c } = !h) ∧ rdy s [] = true ∧
      rdy s (Claims.scalar1 4) = true ∧ rdy s (Claims.scalar1 5) = true ∧ (s.w.handler = h) ∧ s.w.preempted = h ∧
      (s.node s.g.launch s.g.node).live.length = 1 ∧ refuses s = !h) ∧
    (sTrap false w0).toHandler 0 { cause := 0x01 } = false ∧ iss (sTrap false w0) = true := by decide +kernel

/-- A wave of 4 granules with a recipe that pins v5, with v6 empty, perhaps under a prefix. -/
def sPin (pre : Option Xmod) : State := dev { wh with
  granules := 4, recipes := [{ rc false with vins := [5] }], empty := 1 <<< 6, pre := pre } g0
theorem wit_stands : iss (sPin none) = true ∧ (sPin none).toHandler 0 { cause := 0x02 } = true ∧
    (sPin none).toHandler 0 { cause := 0x06 } = true ∧ (sPin none).toHandler 0 { cause := 0x05 } = true ∧ 8 * (sPin none).w.granules = 32 ∧
    ((sPin none).w.recipes.any fun x => x.vins.contains 5) = true ∧ ((sPin none).w.recipes.any fun x => x.vins.contains 7) = false ∧
    (∀ x ∈ (sPin none).w.recipes, x.demoted = false) ∧ (sPin none).w.isEmpty 6 = true ∧ (sPin none).w.deferred.rows = [] ∧
    (sPin none).w.bad.rows = [] ∧ iss (sPin (some { ea := true })) = true ∧
    (sPin (some { ea := true })).w.mbusy.getLsbD 0 = false := by decide +kernel

/-- An XMOD at offset 0 and the word after it. -/
def sPair (x : Nat) : State := { devC wh g0 k0 with hbm := memWriteN [] 0x2000044 (leBytes 4 x) }
theorem wit_pairs : (∀ x ∈ [0x22030431, 0], iss (sPair x) = true ∧ (sPair x).toHandler 0 { cause := 0x01 } = true ∧
      (match ((sPair x).fetchBytes 0 4).2 with
        | .ok b => match decode 3 b with
          | some (j, _) => decide (x ≠ 0) && ({ pm := 3 } : Xmod).pairs j && !({ eb := true, pk := 9 } : Xmod).pairs (.movi 1 2)
          | none => decide (x = 0)
        | .error _ => false) = true) ∧ (Instr.xmod { pm := 3 }).wellFormed = true := by decide +kernel

/-! ### Power and clusters -/

/-- A context that holds two domains; domain 1 in some state. -/
def sPow (x : Domain) (w : Nat) : State := { dev (ws [(4, BitVec.ofNat 64 w)]) g0 with
  ctxs := ⟨[(0, { c0 with cores := (domainCores 0 ++ domainCores 1).map fun k => (k, false) })]⟩
  domains := ⟨[(1, x)]⟩ }
theorem wit_power : (sPow {} 1).domainOwner 1 = some 0 ∧ (sPow {} 0).domainOwner 0 = some 0 ∧ (sPow {} 2).domainOwner 2 = none ∧
    (sPow {} 1).domainResident 1 = false ∧ (sPow {} 1).domainResident 0 = true ∧ (sPow {} 1).domainSpine 1 = false ∧
    iss (sPow {} 1) = true ∧ rdy (sPow {} 1) (Claims.opsDA 5 4) = true ∧ refuses (sPow {} 1) = true ∧ (sPow {} 1).g.ctx = 0 := by
  decide +kernel
theorem wit_power_args : (∀ a ∈ [0x0A18, 0], Claims.powerArg 2 a) ∧ ¬Claims.powerArg 2 25 ∧ Claims.powerArg 3 0x180001 ∧
    Claims.powerArg 4 64 ∧ ¬Claims.powerArg 4 65 ∧ Claims.powerArg 0 0 ∧ Claims.powerArg 1 0 ∧ Claims.powerArg 5 0 := by
  simp [Claims.powerArg]
/-- The domain is changing its point. -/
def xd (slewed switched : Bool) : Domain := { point := 10, auto := true, lo := 5, hi := 20, step := some (12, 0), slewed := slewed, switched := switched }
/-- A floor of 800 mV under point 3. -/
def sFloor (x : Domain) : State := { sPow x 1 with config := { floors := ⟨[(3, 800)]⟩ } }
theorem wit_floor : Claims.below (sFloor {}) 1 3 0 ∧ ¬Claims.below (sFloor {}) 1 10 0 ∧ ¬Claims.below (sFloor {}) 1 11 0 ∧
    ¬Claims.below (sFloor {}) 1 20 0 := by unfold Claims.below; decide +kernel
theorem wit_points : (∀ x ∈ [xd false false, xd true false, xd false true, { xd false false with step := none }, { gated := true },
      { gated := true, waking := true }, { gatePending := true }, { xd true false with target := some (3, 1) },
      { point := 10, clamped := true }, { point := 10, lo := 10, hi := 10, auto := true },
      { point := 4, lo := 3, hi := 20, auto := true }], (sFloor x).domain 1 = x ∧ (sFloor x).domainResident 1 = false) := by
  decide +kernel

/-- A cluster with start events that wait, and its group's run of overruns. -/
def sStart (n : Nat) (admitted : List Nat) : State := { dev wh { g0 with overruns := n, ep := { gran := 16, energy := 8 } } with
  now := 1000, starts := [{ cluster := 0, droop := true }, { cluster := 1 }], admitted := admitted, clusters := ⟨[(0, { halved := true })]⟩ }
theorem wit_clusters : (∀ n ∈ [0, 15, 255], (sStart n []).groups.keys.Nodup ∧ (sStart n []).g.phase.holds = true ∧
      (sStart n []).g.core / 4 = 0 ∧ (sStart n []).g.overruns = n ∧ 9 * (sStart n []).g.ep.energy < 8 * 10 ∧
      8 * 9 ≤ 9 * (sStart n []).g.ep.energy) ∧ ((sStart 0 []).cluster 0).halved = true ∧ (sStart 0 [1000]).now ∈ (sStart 0 [1000]).admitted ∧
    (sStart 0 [700, 900]).admitted.filter (fun t => decide ((sStart 0 []).now < t + 200)) = [900] := by decide +kernel
theorem wit_shares : let s := { dev wh g0 with ctxs := ⟨[(0, { c0 with share := 96 }), (1, { share := 64 }), (16, { depth := 2 })]⟩ }
    s.ctxs.keys.Nodup ∧ ((s.ctxs.rows.filter fun p => p.2.depth == 1).map fun p => p.2.share).foldr (· + ·) 0 ≤ 256 := by decide +kernel

/-! ### Launches, stops and front ends -/

/-- The header of a node table of one node, the node's entry, and an Endpaper of a generation. -/
def tableHeader : List Byte := leBytes 4 0x5A4E4F44 ++ leBytes 12 1
def tableEntry : List Byte := leBytes 8 0x4000 ++ leBytes 8 32
def pageBytes (gen : Nat) : List Byte :=
  leBytes 4 0x5A574550 ++ leBytes 4 (gen + 2 ^ 8 * 4) ++ List.replicate 13 0 ++ [1] ++ leBytes 2 32 ++ leBytes 4 0 ++ leBytes 2 1 ++
    leBytes 2 1 ++ List.replicate 32 0
/-- A node with one record, launchable at once, whose Endpaper has a generation. -/
def nl (check gen : Nat) : Node :=
  { ep := { gran := 4, recsz := 1 }, cap := 32, base := 0x4000, slots := ⟨[(0, .committed)]⟩, check := check
    ready := [{ slot := 0, depth := 2, time := 0 }], entry := tableEntry, page := pageBytes gen }
/-- That node table at 0x3000 and its Endpaper at 0x4000. -/
def structs (gen : Nat) : Memory :=
  memWriteN (memWriteN (memWriteN tables 0x20000 (leBytes 8 0x200001F)) 0x2003000 (tableHeader ++ tableEntry)) 0x2004000 (pageBytes gen)
/-- A launch of that node, with a group in the launch queue or none; domain 0 gated or not. -/
def sLaunch (check gen : Nat) (queued gated : Bool) : State := { dev w0 g0 with
  waves := ⟨[]⟩
  groups := ⟨if queued then [(1, { phase := .queued, records := [0], waves := 1 })] else []⟩
  hbm := structs gen
  ctxs := ⟨[(0, { c0 with root := 0x1000, energy := ⟨[(0, 9)]⟩, ipeak := ⟨[(0, 9)]⟩ })]⟩
  clusters := ⟨[(0, { queue := if queued then [1] else [] })]⟩
  domains := ⟨[(0, { gated := gated })]⟩
  launches := ⟨[(0, { table := 0x3000, header := tableHeader, nodes := ⟨[(0, nl check gen)]⟩ })]⟩ }
theorem wit_class : ∃ a, a ∈ (sLaunch 0 3 false false).classes ∧ a.group = none ∧
    (∀ b ∈ (sLaunch 0 3 false false).classes, (sLaunch 0 3 false false).neverAdmits b.ctx
      ((sLaunch 0 3 false false).node b.launch b.node).ep = false) ∧
    (sLaunch 0 3 false false).clusterFor a.ctx = some 0 ∧
    (∀ b ∈ (sLaunch 0 3 false false).returning ++ (sLaunch 0 3 false false).classes, b ≠ a → False) :=
  ⟨{ first := false, depth := 2, prio := 0, time := 0, start := 0, node := 0, ctx := 0, launch := 0, group := none },
    by decide +kernel⟩
theorem wit_placement : ∀ gated ∈ [true, false], let s := sLaunch 1 3 true gated
    (s.cluster 0).queue = [1] ∧ (s.group 1).phase = .queued ∧ (s.node 0 0).check = 1 ∧ (s.group 1).records ≠ [] ∧
    0 < (s.group 1).waves ∧
    ∀ k ∈ (List.range 4).map (4 * 0 + ·), (s.setGroup 1 { s.group 1 with ep := (s.node 0 0).ep }).placeFail 1 k =
      if gated then some 8 else none := by decide +kernel
theorem wit_check : ∀ gen ∈ [3, 4], let s := sLaunch 0 gen true false
    (s.inQueues.find? fun g => (s.group g).launch == 0 && (s.group g).node == 0) = some 1 ∧ (s.node 0 0).check = 0 ∧
    (match s.launchCheck 0 0 with
      | .ok _ => decide (gen = 3)
      | .error (.inr p) => decide (gen = 4) && decide (p = (2, 0))
      | .error (.inl _) => false) = true := by decide +kernel

/-- A group whose waves have ended, with an operation of its own, or not; a launch that is over, or not. -/
def sEnd (busy : Bool) (fin : Bool) : State := { dev { w0 with phase := .ended } { g0 with phase := if fin then .ended else .ending, rs := { base := 256, size := 256 } } with
  hbm := []
  clusters := ⟨[(0, { engines := ⟨[(0, if busy then [eo1 false] else [])]⟩ })]⟩
  cores := ⟨[(0, { zeroing := [(5, .s, { base := 0, size := 256 })] })]⟩
  frontEnds := ⟨[(0, { interrupt := 0x800 })]⟩
  launches := ⟨[(0, { frontEnd := some 0, completion := 0x700, vector := 3, interrupt := fin, nodes := ⟨[(0, { slots := ⟨if fin then [] else [(0, .allocated 0), (1, .assigned 0)]⟩ })]⟩ })]⟩ }
theorem wit_ends : (∀ busy ∈ [true, false], let s := sEnd busy false
      (s.group 0).phase = .ending ∧ (s.group 0).frozen = [] ∧ (∀ k ∈ s.wavesOf 0, (s.wave k).storeQ = []) ∧ s.workDone 0 = !busy ∧
      s.memWf = true ∧ s.launchOver 0 = false) ∧
    (let s := sEnd false true
     (s.group 0).phase ≠ .ending ∧ s.launchOver 0 = true ∧ (s.launch 0).ended = false ∧ (s.launches.get? 0).isSome = true ∧
     (s.launch 0).frontEnd = some 0 ∧ (s.launch 0).completion ≠ 0 ∧ s.memWf = true ∧ (s.launch 0).interrupt = true ∧
     (s.launch 0).vector ≠ 0xFFFFFFFF) := by decide +kernel

/-- A group that is to stop since a time, or is forced, at a time; its wave in a phase. -/
def sStop (p : Phase) (gp : GroupPhase) (stop forced : Option Nat) (handler : Bool) (now : Nat) : State :=
  { dev { (if handler then wh else w0) with phase := p } { g0 with phase := gp, stopReq := stop, forced := forced, ep := { gran := 16, handler := handler } } with
    now := now }
theorem wit_stops : (let s := sStop .run .resident none none true 0
      (s.group 0).stopReq = none ∧ (s.group 0).forced = none) ∧
    (let s := sStop .run .resident (some 0) none true 0
     (∃ k ∈ s.wavesOf 0, (s.wave k).phase = .run) ∧ (s.group 0).stopReq ≠ none) ∧
    (let s := sStop (.predone 0) .resident (some 0) none true 0
     (∀ k ∈ s.wavesOf 0, (s.wave k).phase.still = true) ∧
     ((((s.parkWaiting 0).settleWaves 0).drainGroup 0).releaseHeads 0).groupQuiet 0 = true) ∧
    (let s := sStop .run .resident none (some 1) true 0
     (s.group 0).forced = some 1 ∧ ((((s.settleWaves 0).saveLocks 0).drainGroup 0).releaseHeads 0).groupQuiet 0 = true) ∧
    (∀ stop ∈ [none, some 5], let s := sStop (.predone 0) (.restoring 0) stop none true 0
     (s.group 0).phase = .restoring 0 ∧ s.canRestore 0 = true ∧ ∀ k ∈ s.wavesOf 0, ∀ n ∈ [0], (s.wave k).phase ≠ .verdict n) ∧
    (∀ h ∈ [true, false], let s := sStop .run .resident (some 7) none h 400007
     (s.group 0).stopReq = some 7 ∧ 7 + 400000 ≤ s.now ∧ (s.group 0).ep.handler = h ∧ (s.group 0).waves = 1 ∧
     (s.wave (16 * 0)).group = 0 ∧ (s.wave (16 * 0)).phase = .run ∧ (s.wave (16 * 0)).remoteHold = false ∧
     s.toHandler (16 * 0) { cause := 0x0C } = h ∧ s.ctx 0 = c0 ∧ s.groups.keys.Nodup ∧ (s.ctxs.get? 0).isSome = true) ∧
    (let s := { sStop (.predone 0) (.restoring 0) none none true 0 with
       groups := ⟨[(0, { g0 with phase := .restoring 0, savedLocks := [(0, 0)] })]⟩, cores := ⟨[(0, { locks := ⟨[(0, 99)]⟩ })]⟩ }
     s.canRestore 0 = false) := by decide +kernel
/-- A shared core: the turn of context 16 among the children of 0, with a second sharer or none, and a group of the holder or not. -/
def sTurn (leaving : List (Nat × Bool)) (other resident : Bool) : State := { dev w0 { g0 with ctx := 16, phase := if resident then .resident else .ended } with
  now := 100
  ctxs := ⟨[(0, c0), (16, { depth := 2, parent := some 0, cores := [(0, true)] }), (17, { depth := 2, parent := if other then some 0 else none, cores := [(0, true)] })]⟩
  cores := ⟨[(0, { turns := ⟨[(0, 16)]⟩, turnEnds := ⟨[(0, 100)]⟩, leaving := leaving })]⟩ }
theorem wit_turns : ((sTurn [] true true).core 0).turns.rows = [(0, 16)] ∧ ((sTurn [] true true).core 0).turnEnds.getD 0 0 ≤ (sTurn [] true true).now ∧
    (sTurn [] false true).sharers 0 0 = [16] ∧ (sTurn [] true true).sharers 0 0 ≠ [16] ∧ (sTurn [] true true).stillOn 16 0 true ≠ [] ∧
    (let s := sTurn [(16, true)] true false
     (s.core 0).leaving = [(16, true)] ∧ s.stillOn 16 0 true = [] ∧ s.spineOwner 16 0 true = none ∧ (s.ctx 16).parent = some 0 ∧
     nextAfter 16 (s.sharers 0 0) = some 17) := by decide +kernel

/-- A front end, enabled or not. -/
def sFe (on : Bool) (settings : List Byte) (produced : Nat) : State := { dev { w0 with phase := .verdict 9 } g0 with
  up := true
  ctxs := ⟨if on then [(0, c0)] else []⟩
  tickets := ⟨[(9, { wave := 0, tepc := 0, ring := 0, frontEnd := true, skip := 4 })]⟩
  frontEnds := ⟨[(0, { enable := on, status := if on then 1 else 0, settings := memWriteN [] 0 settings, range := 0x100, ringSize := 0, produced := BitVec.ofNat 64 produced })]⟩ }
theorem wit_front_ends : (sFe false (desc 0) 0).enableFails 0 = false ∧ (sFe false [] 0).enableFails 0 = true ∧
    ((sFe false (desc 0) 0).frontEnd 0).enable = false ∧ ((sFe false (desc 0) 0).ctxs.get? 0).isNone = true ∧
    memWf ((sFe false (desc 0) 0).frontEnd 0).settings = true ∧ (sFe true [] 1).ticketWave 9 =
      some { wave := 0, tepc := 0, ring := 0, frontEnd := true, skip := 4 } ∧ ((sFe true [] 1).group 0).phase = .resident ∧
    ((sFe true [] 1).group 0).forced = none ∧ ((sFe true [] 1).ctxs.get? 0).isSome = true ∧ (sFe true [] 1).memWf = true ∧
    (∀ n ∈ [1, 17], ((sFe true [] n).frontEnd 0).produced.toNat - ((sFe true [] n).frontEnd 0).consumed.toNat = n ∧
      ((sFe true [] n).frontEnd 0).status = 1) := by decide +kernel
theorem wit_health : let s := { sFe false [] 0 with
      slices := ⟨[(2, 1)]⟩, cores := ⟨[(3, { testing := true })]⟩
      waves := ⟨[(0, { w0 with quantumDue := true, dx := lanesOf fun l => if l = 0 then 4 else 8 })]⟩ }
    s.up = true ∧ s.slices.getD 1 0 = 0 ∧ s.slices.getD 2 0 = 1 ∧ (s.core 3).testing = true ∧ s.resident 3 = [] ∧ (s.core 3).leaving = [] ∧
    (s.core 4).testing = false ∧ (s.core 4).retired = false ∧ (s.wave 0).regen = [] ∧ (s.wave 0).quantum = none ∧
    (s.wave 0).quantumDue = true ∧ bit (s.wave 0).eligible 1 = true ∧ (s.wave 0).ipc < (lane (s.wave 0).duct 1).toNat := by decide +kernel

/-! ### Floating point, continued -/

/-- A comparison of a quiet NaN with the invalid trap enabled, without a handler: the trap is reflected. -/
theorem wit_float_trap_reflected : let s := dev { w0 with v := ⟨[(2, lanesOf fun _ => 0x7FC00000)]⟩, fpctl := 0x10 } g0
    (match Claims.raised s (.fcmpLtF32 1 2 3) with
      | some (n, os, f) => (prepare s n os none).isNone && bit s.w.active 0 && Claims.enabledIn s (f 0) 0
      | none => false) = true ∧ (Instr.fcmpLtF32 1 2 3).wellFormed = true ∧ s.w.regen = [] ∧
    s.toHandler s.cur { cause := 0x09 } = false := by decide
/-- The operands on which the single steps and the functions of R324 are stated: each kind of value. -/
theorem wit_kinds : let c : Fp := { F := fp32 }
    c.read 0x7F800001 = .nan true ∧ c.read 0x7FC00000 = .nan false ∧ c.read 0xFF800000 = .inf true ∧ c.read 0x7F800000 = .inf false ∧
    c.read 0x80000000 = .fin true 0 (-149) ∧ c.read 0xBF800000 = .fin true 8388608 (-23) ∧
    (c.read 0x80000000).isZero = true ∧ (c.read 0x40000000).isZero = false ∧ (c.read 0x40000000).isNan = false := by decide
theorem wit_reads : Claims.Reads { F := fp32 } 0 false 0 ∧ Claims.Reads { F := fp32 } 0x80000000 true 0 ∧
    Claims.Reads { F := fp32 } 0x40000000 false 2 ∧ Claims.Reads { F := fp32 } 0xBF800000 true (-1) := by
  refine ⟨⟨0, -149, by decide, ?_⟩, ⟨0, -149, by decide, ?_⟩, ⟨8388608, -22, by decide, ?_⟩, ⟨8388608, -23, by decide, ?_⟩⟩ <;>
    norm_num [Claims.valueOf]
/-- 2^200 rounds beyond the largest FP32 value, 2^-200 below the smallest normal one; 1 does neither. -/
theorem wit_rounded : Claims.Huge fp32 0 false ((2 : ℝ) ^ 200) ∧ Claims.Tiny fp32 1 false ((2 : ℝ) ^ (-200 : Int)) ∧
    ¬Claims.Huge fp32 0 false 1 ∧ ¬Claims.Tiny fp32 1 false 1 := by
  simp only [Claims.Huge, Claims.Tiny, Claims.away, Claims.largest, Claims.smallest, fp32]
  norm_num

/-! ### Memory, continued -/

/-- An access shares a byte with one that is under way, decided. -/
def sharing (s : State) (l : List Located) : Bool := l.any fun x => (Located.pieces x).any fun p => match p.1 with
  | .phys pa _ => s.w.remotes.any fun m => decide (m.pa < pa + p.2) && decide (pa < m.pa + m.width)
  | _ => false
theorem shares_of {s : State} {l : List Located} (h : sharing s l = true) : Claims.shares s l := by
  simp only [sharing, List.any_eq_true] at h
  obtain ⟨x, hx, ⟨p, n⟩, hp, h⟩ := h
  cases p with
  | phys pa e =>
    simp only [List.any_eq_true, Bool.and_eq_true, decide_eq_true_eq] at h
    obtain ⟨m, hm, h⟩ := h
    exact ⟨x, hx, pa, e, n, hp, m, hm, h⟩
  | buf b o => simp at h
  | host a => simp at h
theorem not_shares_of {s : State} {l : List Located} (h : s.w.remotes = []) : ¬Claims.shares s l := by
  rintro ⟨_, _, _, _, _, _, m, hm, _⟩
  simp [h] at hm
/-- A core whose mapping leads to package 1. -/
def kAway : Core := { tlb := [{ ctx := 0, va := 0, size := 2 ^ 25, pa := 2 ^ 43 + 2 ^ 25, wr := true, ex := true, exp := 1000000, born := 0 }] }
/-- A load under way from the word that lane 0 of LD, LDR, ST and ATOM names. -/
def sShare : State := { devC { wm with
    remotes := [{ tag := 3, owner := 7, va := 0x1000, pa := 2 ^ 43 + 2 ^ 25 + 0x1000, exp := 9, width := 4, lane := 0, lanes := 1 }] } gm kAway with
  config := { domain := [0, 1] } }
theorem wit_shares_load : (match Claims.load sShare (.ld 8 5 2 2 0 0) with
      | some r =>
        let u := (locateAll r.reach {} r.n sShare r.reqs).2
        (prepare sShare 4 r.ops none).isNone && sharing sShare u && (u.all fun x => (x.2 matches .ok _) &&
          (Located.pieces x).all fun p => !(p.1 matches .host _))
      | none => false) = true ∧ (Instr.ld 8 5 2 2 0 0).wellFormed = true ∧ sShare.uncorr = [] ∧ sShare.w.active ≠ 0 := by decide +kernel
/-- The stack window in the first 32 MiB, and 8-byte addresses in it. -/
def sStack : State := { devC { wm with stackSlot := some 0, s := ⟨[(5, BitVec.ofNat 64 Config.stackBase)]⟩, v := ⟨[(2, lanesOf fun l => if l < 2 then 0 else 8)]⟩ } gm k0 with
  ctxs := ⟨[(0, { c0 with stackBase := 0x10000, stkSize := 0, stkSlots := 4 })]⟩ }
theorem wit_atomic_stack : (Instr.atom 8 5 2 1 0).wellFormed = true ∧ (prepare sStack 4 (opsAtom 8 5 2 3 0) none).isNone = true ∧
    sStack.w.active ≠ 0 ∧ ((locateAll { s := false, a := false, c := false } { write := true, atomic := true } 8 sStack
      (Claims.perLane sStack 5 2 0 8)).2.all fun x => match x.2 with
        | .ok [(.phys pa _, 4), (.phys pb _, 4)] => !isRemote sStack pa && !isRemote sStack pb && decide (pa % 4 = 0) && decide (pb % 4 = 0)
        | _ => false) = true := by decide +kernel
theorem wit_pref_operands : operandTrap { wm with empty := BitVec.allOnes 128, sbusy := 0xFFFFFFFF } 4
    [{ field := 1, kind := .v, reg := 2, src := some 0 }, { field := 4, kind := .s, reg := 5 }] = none := by decide

/-- Accesses to package 1 at time 100: in HBM or at the host, whole or in two parts, in time or late; the retranslation finds a
page that is not resident. -/
def sAway (m : Remote) : State := { devC { wm with remotes := [m], remoteHold := m.op != .load, pending := [{ p0 with tag := 7, vregs := [(8, zeroLanes)] }] } gm {} with
  now := 100, hbm := tables, ctxs := ⟨[(0, { c0 with root := 0x1000 })]⟩ }
theorem wit_remote_upper : let m := { m0 (.atomic 0 5 0) 100 with width := 8, upper := some (0x1080, 2 ^ 43 + 0x200, 100) }
    let s := sAway m
    ((s.wave 0).remotes.find? fun q => q.tag == 3) = some m ∧ s.now ≤ m.exp ∧ (s.core 0).l1 = [] ∧ s.memWf = true ∧
    m.pa % 128 + 4 ≤ 128 ∧ (2 ^ 43 + 0x200) % 128 + 4 ≤ 128 := by decide +kernel
theorem wit_remote_late : Claims.late (sAway (m0 .load 99)) (m0 .load 99) ∧ ¬Claims.late (sAway (m0 .load 100)) (m0 .load 100) ∧
    Claims.late (sAway (m0 .load 100)) { m0 .load 100 with upper := some (0x1080, 2 ^ 43 + 0x200, 99) } := by
  refine ⟨.inl (by decide), fun h => ?_, .inr ⟨_, rfl, by decide⟩⟩
  rcases h with h | ⟨u, h, _⟩
  · exact absurd h (by decide)
  · exact nomatch h
theorem wit_remote_host : ∀ op ∈ ([.load, .store [1, 2, 3, 4]] : List RemoteOp),
    let m := { m0 op 100 with pa := 2 ^ 43 + Config.hostBase + 0x700 }
    Config.hostBase ≤ m.pa % Config.packageSize ∧ ((sAway m).wave 0).remotes = [m] ∧ (sAway m).memWf = true := by decide +kernel
theorem wit_remote_absent : ∀ op ∈ ([.load, .store [1, 2, 3, 4], .atomic 0 5 0] : List RemoteOp),
    let m := { m0 op 99 with va := 0x2000000 }
    let s := sAway m
    (match (translate s 0 0 0x2000000 { write := op != .load, atomic := op matches .atomic _ _ _ }).2 with
      | .error f => decide (f.reason = rAbsent)
      | .ok _ => false) = true ∧ (s.wave 0).remoteFault = none ∧
    ((s.wave 0).pending.find? fun q => q.tag == 7) = some { p0 with tag := 7, vregs := [(8, zeroLanes)] } ∧ p0.mask = some (2, 1, 1) := by
  decide +kernel

/-! ### Handles, engines and the matrix array, continued -/

/-- A load of the wave under way holds back LOCK, HWAIT, HFREE and HSTAT of a full handle. -/
theorem wit_loading : (let s := { sLock 0 with waves := ⟨[(0, { (sLock 0).w with pending := [p0] })]⟩ }
     iss s = true ∧ rdy s (Claims.scalar1 4) = true ∧ s.w.pending ≠ [] ∧ s.w.storeQ = [] ∧ s.uncorr = []) ∧
    (let s := { sHandle { bound := true, st := { state := 2 } } with waves := ⟨[(0, { wh with pending := [p0] })]⟩ }
     iss s = true ∧ rdy s [] = true ∧ s.w.pending ≠ [] ∧ s.w.storeQ = [] ∧ (Claims.handle s 63).poison = none ∧
     (Claims.handle s 63).st.state = 2 ∧ rdy s [{ field := 0, kind := .s, reg := 5, dst := true }] = true) ∧
    (sAcq []).w.storeQ = [] := by decide
/-- Handle names in use up to the core's number, so that none is free; a page-request ring of the context, and an entry that it
has for the page, or not. -/
def sNoHandle : State := { sPage 0x2000000 {} with
  groups := ⟨[(0, { g0 with handles := ⟨(List.range 64).filterMap fun n => if n = 3 then none else some (n, { bound := true })⟩ })] ++
    (List.range 15).map fun n => (n + 1, { g0 with handles := ⟨(List.range 64).map fun n => (n, { bound := true })⟩ })⟩ }
theorem wit_no_handle : sNoHandle.canBind 0 3 = false ∧ iss sNoHandle = true ∧ rdy sNoHandle (Claims.scalar1 4) = true ∧
    rdy sNoHandle [] = true ∧ (sNoHandle.sreg 4).toNat < 0xFE0000000000 ∧ (Claims.handle sNoHandle 3).poison = none ∧
    sNoHandle.w.storeQ = [] := by decide +kernel
def sRing (l : List (Nat × Bool)) : State := { sPage 0x2000000 { bound := true, work := .fill 0x2000000 none } with
  ctxs := ⟨[(0, { c0 with root := 0x1000, prqEn := true, prqBase := 0x1000, requested := l })]⟩ }
theorem wit_requests : Claims.absent (sRing []) 0 0x2000000 = some (0, 0x2000000) ∧
    (∀ l ∈ [[], [(0x2000000, false)]], ((sRing l).handle 0 3).work = .fill 0x2000000 none ∧
      ((sRing l).ctx 0).prqEn = true ∧ (Claims.filled (sRing l) 0 0x2000000 ((sRing l).handle 0 3).st).isNone = true) := by decide +kernel
/-- SPOP and SPCNT without the other core of the pair. -/
theorem wit_spine_refused : let s := sSpine false {} {}
    iss s = true ∧ s.granted 0 192 = false ∧ refuses s = true ∧ rdy s [{ field := 0, kind := .v, reg := 7, dst := true }] = true ∧
    rdy s [{ field := 0, kind := .s, reg := 7, dst := true }] = true := by decide
/-- A pair folio whose FIFO is not empty, or whose core another holds. -/
theorem wit_pair_folio_waits : ∀ both ∈ [true, false], let s := { sSpine both {} { entries := [(0, zeroLanes)] } with
      ctxs := ⟨[(0, { c0 with cores := [(0, false)] ++ (if both then [(192, false)] else []), pairFolios := [(3, 0, {}, {})] })]⟩ }
    (s.ctx 0).pairFolios = [(3, 0, {}, {})] ∧ s.holdsTurn 0 0 = true ∧ s.holdsTurn 0 (0 + 192) = both ∧
    (s.core 0).spine.entries ≠ [] := by decide

/-- A copy of one slice into S, and a drain of it from S, from and to global memory. -/
theorem wit_engine_bytes : ∀ drain ∈ [true, false],
    let o := { eo1 drain with started := true, targets := [{ k := 0, group := some 0 }] }
    let s := sEng o
    (s.queueOf 0 0 0).head? = some o ∧ o.res = {} ∧ o.follow = none ∧ s.engineFault o = none ∧ o.layout.format < 8 ∧ o.layout.ctype = 1 ∧
    o.layout.dims ≠ [] ∧ (∀ d ∈ o.layout.dims, 0 < d.2.2) ∧ (s.tensorPieces o).all (fun p => match p.2.1 with
      | .buf _ _ => false
      | _ => true) = true ∧ (s.blockList (s.group 0) o.layout matches .ok _) = true ∧ (∀ sl ∈ o.slices, sl.wid < 16) ∧
    Claims.boxTo o.layout o.layout.dims.length % (Claims.perUnit o.layout.format).1 = 0 ∧
    s.drainWaits o = [] ∧ s.copyWaits o 0 = [] ∧ s.fits o 0 = true ∧ s.memWf = true := by decide +kernel
theorem wit_delivery_lands : let o := { eo1 false with started := true, mcast := 7, targets := [{ k := 1 }] }
    ((sEng o).landOn o 1).2.code = 0 := by decide +kernel
/-- Lists of 32 values for a block: finite ones, zeros, and one with a NaN. -/
theorem wit_blocks : (List.replicate 32 (Machine.Num.fin false 3 0)).length = 32 ∧ (∀ x ∈ List.replicate 32 (Machine.Num.fin false 0 0),
      ∀ n m e, x = .fin n m e → m = 0) ∧ (∃ x ∈ List.replicate 32 (Machine.Num.nan false), ∀ n m e, x ≠ .fin n m e) := by
  refine ⟨rfl, fun x h n m e he => ?_, .nan false, by simp, fun _ _ _ h => nomatch h⟩
  obtain ⟨-, rfl⟩ := List.mem_replicate.mp h
  exact (Machine.Num.fin.inj he).2.1 ▸ rfl

/-- Uncorrectable words of the tile, of its metadata, and of the rows of a gather. -/
theorem wit_accumulation_alarm : let s := { sMat [mcDue] false false with uncorr := [(4, 0, 2048)] }
    (s.core 0).matrixQ.find? (·.started) = some mcDue ∧ (s.group 0).rc.base % 16384 = 0 ∧ mcDue.tile.toNat % 16384 = 0 ∧
    mcDue.wave = some 0 ∧ Claims.tileOf (s.group 0) mcDue.tile = 1 ∧ (4, 0, 2048) ∈ s.uncorr :=
  ⟨rfl, by decide +kernel⟩
theorem wit_matrix_alarms :
    (∀ clr ∈ [true, false], let s := { sMat [mc (.mflags 0 3 clr)] false false with uncorr := [(5, 0, 1)] }
     (s.core 0).oldest 0 = some (mc (.mflags 0 3 clr)) ∧ Claims.tileOf (s.group 0) (mc (.mflags 0 3 clr)).tile = 1 ∧
     (5, 0, 1) ∈ s.uncorr) ∧
    (let q : Gather := { group := 0, seq := 1, desc := wt.sreg 9, idx := List.replicate 64 0 }
     let s := { sMat [] false false with cores := ⟨[(0, { k0 with gatherQ := [q] })]⟩, uncorr := [(1, 0, 3)] }
     (s.core 0).gatherQ = [q] ∧ (s.group 0).core = 0 ∧ ((s.group 0).range .s).base = 0 ∧ q.desc.toNat / 2 ^ 48 % 256 = 1 ∧
     q.idx.getD 63 0 ≠ 0xFFFFFFFF ∧ (1, 0, 3) ∈ s.uncorr ∧ q.idx.length = 64) := by decide +kernel

/-! ### The tree of contexts, continued -/

/-- A submission entry that names a node table, with a word at 0x28. -/
def entryBytes (table bad : Nat) : List Byte := leBytes 8 table ++ leBytes 8 0x700 ++ leBytes 4 0xFFFFFFFF ++ List.replicate 20 0 ++ leBytes 24 bad
/-- ROOT for a child that sees the first 32 MiB of its parent's window, with the entry at 0x1000. -/
def sRoot (table bad qmem : Nat) : State := { sTree 16 (6 * 2 ^ 60 + 0x1000) with
  ctxs := ⟨[(0, { c0 with root := 0x1000 }), (16, { depth := 2, parent := some 0, root := 0x8000, qbase := 0x100000, qmem := qmem, windows := [{ base := 0, size := 2 ^ 25 }] })]⟩
  hbm := memWriteN (memWriteN (memWriteN (structs 3) 0x2008000 (leBytes 8 0x20001)) 0x2020000 (leBytes 8 0x1F)) 0x2001000 (entryBytes table bad) }
theorem wit_root : ∀ p ∈ [(0x3000, 0, 65536), (0x3000, 1, 65536), (0x2000000, 0, 65536), (0x3000, 0, 0)],
    let s := sRoot p.1 p.2.1 p.2.2
    iss s = true ∧ rdy s [{ field := 0, kind := .s, reg := 4, dst := true }, { field := 1, kind := .s, reg := 5 }, { field := 2, kind := .s, reg := 6 }] = true ∧
    s.childOf 0 16 = true ∧ (s.loadRun 0x1000 64).2.isOk = true := by decide +kernel
theorem wit_running : (∃ p ∈ ((sTree 16 0).ctx 16).cores, (sTree 16 0).holdsTurn 16 p.1 = true) ∧ ¬∃ p ∈ ((sTree 16 0).ctx 17).cores, (sTree 16 0).holdsTurn 17 p.1 = true := by
  decide +kernel

/-! ### Traps, continued -/

/-- TRAP of a group without a handler; PREDONE in a handler that PREEMPT did not enter, or with an index beyond 65,535. -/
theorem wit_trap_reflected : (sTrap false w0).toHandler 0 { cause := 0x0D } = false ∧ rdy (sTrap false w0) [] = true ∧ iss (sTrap false w0) = true ∧
    (let s := { sTrap true (ws [(4, 65536)]) with waves := ⟨[(0, { (sTrap true (ws [(4, 65536)])).w with preempted := false })]⟩ }
     iss s = true ∧ rdy s (Claims.scalar1 4) = true ∧ s.w.handler = true ∧ s.w.preempted = false) ∧
    (let s := sTrap true (ws [(4, 65536)])
     iss s = true ∧ rdy s (Claims.scalar1 4) = true ∧ s.w.handler = true ∧ s.w.preempted = true ∧ 65536 ≤ (s.sreg 4).toNat) := by decide +kernel

/-! ### Power and clusters, continued -/

/-- The clamp has brought the domain to point 6 while it is at 4, or steps from 10 to 5. -/
def xc (step : Option (Nat × Nat)) (p : Nat) : Domain := { point := p, clamped := true, clampedPoint := 6, step := step }
theorem wit_clamp : (∀ x ∈ [xc none 4, xc (some (5, 0)) 10, xc none 8], (sPow x 1).domain 1 = x ∧ x.clamped = true ∧ x.clampedPoint < 12) ∧
    (xc none 4).point < 12 ∧ (xc (some (5, 0)) 10).step = some (5, 0) := by decide +kernel
theorem wit_clamp_floor : ∀ x ∈ [xc none 4, xc (some (5, 0)) 10, xc none 8], ¬Claims.below (sPow x 1) 1 12 0 ∧ ¬Claims.below (sPow x 1) 1 6 0 ∧ ¬Claims.below (sPow x 1) 1 8 0 := by
  unfold Claims.below; decide +kernel
theorem wit_budgets : Claims.budgetIs { dev wh g0 with ctxs := ⟨[(0, { c0 with energy := ⟨[(0, 0)]⟩ })]⟩ } 0 0 ∧ Claims.budgetIs (dev wh g0) 1 12000 ∧
    Claims.metered (dev wh g0) 1 < 12000 := by
  refine ⟨.inl ⟨(0, { c0 with energy := ⟨[(0, 0)]⟩ }), by decide, by decide, by decide, ?_⟩, .inr ⟨by decide, ?_⟩, by decide⟩
  · intro q hq _ _; exact (List.mem_singleton.mp hq)
  · intro q hq _; rw [List.mem_singleton.mp hq]; decide
/-- A context with two children. -/
theorem wit_shares_tree : let s := { dev wh g0 with ctxs := ⟨[(0, { c0 with share := 96 }), (16, { depth := 2, parent := some 0, share := 32 }),
      (17, { depth := 2, parent := some 0, share := 64 })]⟩ }
    s.ctxs.keys.Nodup ∧ s.children 0 = [16, 17] ∧ (∀ d ∈ s.children 0, s.children d = [] ∧ (s.ctx d).depth ≠ 1) ∧
    Claims.children s 0 (·.share) ≤ (s.ctx 0).share := by decide +kernel

/-! ### Launches, continued -/

theorem wit_reread : let s := sLaunch 0 3 false false
    (s.node 0 0).check = 0 ∧ (s.launch 0).ended = false ∧ (s.node 0 0).entry ≠ [] ∧ (∀ g ∈ s.inQueues, ¬((s.group g).launch = 0 ∧ (s.group g).node = 0)) ∧
    ((sLaunch 1 3 true false).inQueues.find? fun g => ((sLaunch 1 3 true false).group g).launch == 0 &&
      ((sLaunch 1 3 true false).group g).node == 0) = some 1 ∧ ((sLaunch 1 3 true false).node 0 0).check ≠ 0 := by decide +kernel
/-- A launch that is over while its front end has a ring error. -/
theorem wit_owed : let s := { sEnd false true with frontEnds := ⟨[(0, { status := 3 })]⟩ }
    s.launchOver 0 = true ∧ (s.launch 0).ended = false ∧ (s.launches.get? 0).isSome = true ∧ (s.launch 0).frontEnd = some 0 ∧
    (s.frontEnd 0).status = 3 := by decide +kernel

/-! ### Stops, continued -/

/-- Three waves of a group that was asked to stop at time 7: one runs, one waits at a barrier, one is in its handler or holds. -/
def sMany (handler hold : Bool) : State := { sStop .run .resident (some 7) none true 200007 with
  waves := ⟨[(0, wh), (1, { wh with wid := 1, phase := .bar 2 0 none }), (2, { wh with wid := 2, handler := handler, remoteHold := hold })]⟩
  groups := ⟨[(0, { g0 with waves := 3, stopReq := some 7, ep := { gran := 16, handler := true }, sets := ⟨[(2, { members := 6, counted := 6, arrived := 2 })]⟩ })]⟩ }
theorem wit_preempt_many : ∀ p ∈ [(true, false), (false, true)], let s := sMany p.1 p.2
    (s.group 0).stopReq = some 7 ∧ 7 + 200000 ≤ s.now ∧ (s.group 0).ep.handler = true ∧ s.wavesOf 0 = [0, 1, 2] ∧
    (∀ k ∈ [0, 1, 2], (s.wave k).group = 0) ∧ (s.wave 0).phase = .run ∧ (s.wave 1).phase = .bar 2 0 none ∧
    ((s.group 0).set 2).k = 0 ∧ (s.parkWaiting 0).wave 1 = s.wave 1 ∧ (∀ k ∈ [0, 1], s.toHandler k { cause := 0x0C } = true) ∧
    (s.wave 2).phase = .run ∧ ((s.wave 2).handler = true ∨ (s.wave 2).remoteHold = true) := by decide +kernel
/-- A context that has hung, with its fault still to be delivered or not; its group runs or is stopped. -/
def sHang (due : Bool) (p : GroupPhase) : State := { dev w0 { g0 with phase := p } with ctxs := ⟨[(0, { c0 with hung := true, hangDue := due })]⟩ }
theorem wit_hang : (∀ due ∈ [true, false], ∀ p ∈ [GroupPhase.resident, .stopped 1], let s := sHang due p
      (s.ctxs.get? 0).isSome = true ∧ s.groups.keys.Nodup ∧ (s.ctx 0).hung = true ∧ (s.ctx 0).hangDue = due ∧ s.descendants 0 = [0] ∧
      ((∃ q ∈ s.groups.rows, q.2.phase = .resident) ↔ p = .resident)) ∧ ((dev w0 g0).ctx 0).hung = false := by decide +kernel
/-- A turn whose slice has not run out, and one of a lone sharer whose groups have stopped. -/
theorem wit_turn_goes_on : (let s := { sTurn [] true true with now := 99 }
     (s.core 0).turns.rows = [(0, 16)] ∧ (s.core 0).leaving = [] ∧ s.now < (s.core 0).turnEnds.getD 0 0) ∧
    (let s := sTurn [] false false
     (s.core 0).turns.rows = [(0, 16)] ∧ (s.core 0).leaving = [] ∧ s.stillOn 16 0 true = [] ∧ s.spineOwner 16 0 true = none ∧
     nextAfter 16 (s.sharers 0 0) = some 16) := by decide +kernel
/-- How a write to a ring ends. -/
def wrote : RingWrite → Nat
  | .done _ => 0
  | .full => 1
  | .failed _ => 2
/-- A context with an entry that waits for its ring, which has room, is full, or lies in a page that is not resident. -/
def sFault (base produced : Nat) : State := { sPage 0 {} with
  hbm := memWriteN (memWriteN tables 0x20000 (leBytes 8 0x200001F)) 0x2001000 (leBytes 8 produced)
  ctxs := ⟨[(0, { c0 with root := 0x1000, fltEn := true, fltBase := base, ringQ := [{ ctx := 0, tcause := 1 }] })]⟩ }
theorem wit_ring : ∀ p ∈ [(0x1000, 0, 0), (0x1000, 16, 1), (0x2000000, 0, 2)], let s := sFault p.1 p.2.1
    (s.ctx 0).ringQ = [{ ctx := 0, tcause := 1 }] ∧
    wrote (s.ringWrite 0 (s.ctx 0).fltBase (16 * 2 ^ (s.ctx 0).fltSize) ({ ctx := 0, tcause := 1 } : RingEntry).bytes) = p.2.2 := by decide +kernel

/-! ### Front ends, continued -/

/-- An entry in the ring of front end 0, whose partition sees the first 32 MiB of HBM behind it. -/
def sEntry (table bad quota : Nat) : State := { sFe true [] 1 with
  hbm := structs 3, host := memWriteN [] 0 (entryBytes table bad)
  ctxs := ⟨[(0, { c0 with root := 0x1000, qbase := 0x100000, qmem := quota })]⟩ }
theorem wit_entries : ∀ p ∈ [(0x3000, 0, 65536), (0x3000, 1, 65536), (0x2000000, 0, 65536), (0x3000, 0, 0)],
    let s := sEntry p.1 p.2.1 p.2.2
    (s.frontEnd 0).enable = true ∧ (s.frontEnd 0).status = 1 ∧ (s.frontEnd 0).produced.toNat - (s.frontEnd 0).consumed.toNat = 1 ∧
    s.memWf = true ∧ s.chain 0 = [0] := by decide +kernel
theorem wit_verdict_recorded : let s := { sFe true [] 1 with groups := ⟨[(0, { g0 with phase := .stopped 1 })]⟩ }
    s.ticketWave 9 = some { wave := 0, tepc := 0, ring := 0, frontEnd := true, skip := 4 } ∧ (s.group (s.wave 0).group).phase ≠ .resident := by
  decide +kernel
/-! ### Health, continued -/

/-- Bring-up: a firmware, and two copies of versions and validities. -/
def sFlash (fw : Bool) (v1 v2 : Nat) (b1 b2 : Bool) : State := { State.reset with
  firmware := { valid := fw, minVersion := 2 }, flash := [{ valid := b1, block := { version := v1 } }, { valid := b2, block := { version := v2 } }] }
theorem wit_bringup : (sFlash false 2 3 true true).firmware.valid = false ∧
    (∀ x ∈ (sFlash true 1 3 true false).flash, ¬(x.valid = true ∧ (sFlash true 1 3 true false).firmware.minVersion ≤ x.block.version)) ∧
    (∃ x ∈ (sFlash true 2 3 true true).flash, (x.valid = true ∧ (sFlash true 2 3 true true).firmware.minVersion ≤ x.block.version) ∧
      ∀ y ∈ (sFlash true 2 3 true true).flash, (y.valid = true ∧ (sFlash true 2 3 true true).firmware.minVersion ≤ y.block.version) →
        y.block.version < x.block.version ∨ y = x) := by decide
theorem wit_health_units : let s := { sFe false [] 0 with
      rows := ⟨[(1, 1), (2, 2)]⟩, slices := ⟨[(1, 2)]⟩
      cores := ⟨(List.range 4).map fun k => (k, if k = 0 then { testing := true, leaving := [(0, false)] } else { testing := true })⟩ }
    s.rows.getD 0 0 % 2 = 0 ∧ s.rows.getD 1 0 % 2 = 1 ∧ s.rows.getD 2 0 % 2 = 0 ∧ s.slices.getD 1 0 ≠ 0 ∧
    (∀ k ∈ [0, 1, 2, 3], (s.core k).testing = true) ∧ (s.core 0).leaving ≠ [] ∧ (∀ k ∈ [4, 5, 6, 7], s.resident k = [] ∧ (s.core k).leaving = [] ∧
      (s.core k).testing = false ∧ (s.core k).retired = false) ∧ (s.cluster 95).guard < 256 ∧ (s.cluster 95).trans < 256 := by decide +kernel
/-- A core with four cores under test whose groups have stopped; a context with a ring that holds one of them. -/
theorem wit_test_ends : let s := { sFe true [] 0 with
      ctxs := ⟨[(0, { c0 with fltEn := true })]⟩, groups := ⟨[]⟩, cores := ⟨(List.range 4).map fun k => (k, { testing := true })⟩ }
    (∀ k ∈ [0, 1, 2, 3], (s.core k).testing = true ∧ s.resident k = [] ∧ (s.core k).leaving = []) ∧ s.granted 0 3 = true ∧
    (s.ctx 0).fltEn = true := by decide +kernel
/-- A bank that backs a register of a wave that waits for a load, or of one that runs. -/
theorem wit_drowsy : ∀ held ∈ [true, false], let s := dev { w0 with waiting := held, pending := if held then [p0] else [] } g0
    s.wavesOn 0 = [0] ∧ (3 < 8 * (s.wave 0).granules ∧ 3 % 16 = 3 ∧ (s.wave 0).isDemoted 3 = false) ∧
    (((s.wave 0).waiting = true ∧ (s.wave 0).loading = true) ↔ held = true) := by decide

/-! ### Steps, encodings and the memories -/

/-- A device that has come up, with a word at the entry point and the word after it. -/
def sStep (x y : Nat) : State := { devC wh g0 k0 with
  agenda := [(2000, .droopHoldExpiry 0)], hbm := memWriteN (memWriteN [] 0x2000040 (leBytes 4 x)) 0x2000044 (leBytes 4 y) }
theorem wit_step : (∀ p ∈ (sStep 0x1920 0).agenda, (sStep 0x1920 0).now < p.1) ∧ (sStep 0x1920 0).choose = some 0 ∧
    ((sStep 0x1920 0).waves.get? 0).isSome = true ∧ ((sStep 0x1920 0).cluster 0).gated = false ∧
    ((sStep 0x1920 0).take 0).beforeIssue.isNone = true ∧ ((sStep 0x1920 0).take 0).w.regen = [] ∧
    decode 3 (leBytes 2 0x1920) = some (.iaddC16 9 3, 2) ∧ (Instr.iaddC16 9 3).wellFormed = true ∧
    { sStep 0 0 with waves := ⟨[]⟩ }.choose = none ∧ Event.isRow (.droopHoldExpiry 0) (.droopHoldExpiry 0) :=
  ⟨by decide, by decide +kernel, by decide, by decide, by decide +kernel, by decide, by decide +kernel, by decide, by decide, rfl⟩
theorem wit_bytes : Claims.Bytes ((sStep 0x1920 0).take 0) (((sStep 0x1920 0).take 0).fetchParcel 0 0 64).1 0 0 64 (leBytes 2 0x1920) := by
  refine .inl ⟨⟨by decide, 0x2000040, 1000000, (translate ((sStep 0x1920 0).take 0) 0 0 64 { fetch := true }).1, ?_, by decide +kernel,
    by decide +kernel, ?_, by decide +kernel, ?_⟩, by decide⟩
  · exact Prod.ext rfl (by decide +kernel)
  · have h : ((translate ((sStep 0x1920 0).take 0) 0 0 64 { fetch := true }).1.core 0).icache.get? 0x2000040 = none := by decide +kernel
    rw [h]; simp
  · refine Prod.ext rfl ?_
    rfl
theorem wit_decode : (Instr.movi 5 0xABCD).wellFormed = true ∧ encodeWord (.movi 5 0xABCD) = some (0x2AF3428D, 4) ∧
    decode 3 (leBytes 4 0x2AF3428D) = some (.movi 5 0xABCD, 4) := by decide +kernel
theorem wit_memories : (sStep 0x1920 0).memWf = true ∧ ∃ t, step (sStep 0x1920 0) = .next t := by
  refine ⟨by decide +kernel, ?_⟩
  have h : (match step (sStep 0x1920 0) with
    | .next _ => true
    | _ => false) = true := by decide +kernel
  generalize step (sStep 0x1920 0) = o at h ⊢
  cases o <;> simp at h ⊢

/-! ### Translation -/

/-- A mapping of a context's page at 0x1000, decided: what the claims call found. -/
def findsIn (s : State) (a : Acc) (tlb : List Mapping) (va : Nat) : Option Mapping :=
  (tlb.find? (Claims.translates s.now 0 va)).filter fun m =>
    (!a.write || m.wr) && (!a.fetch || m.ex) && Claims.physical s m.pa a.atomic == 0
theorem found_iff (s : State) (a : Acc) (tlb : List Mapping) (va : Nat) (m : Mapping) :
    findsIn s a tlb va = some m ↔ Claims.found s a tlb 0 va m := by
  simp only [findsIn, Claims.found, Claims.allows, Option.filter_eq_some_iff, Bool.and_eq_true, Bool.or_eq_true, beq_iff_eq, Bool.not_eq_true']
  constructor <;> rintro ⟨h, q⟩ <;> refine ⟨h, ?_⟩ <;> cases hw : a.write <;> cases hf : a.fetch <;> simp_all
/-- The same with core 0's mapping in the cluster's TLB alone. -/
def sShared : State := { devC wm gm {} with clusters := ⟨[(0, { tlb := k0.tlb })]⟩ }
theorem wit_translate : findsIn sm {} (sm.core 0).tlb 0x1000 = k0.tlb.head? ∧ findsIn sShared {} (sShared.core 0).tlb 0x1000 = none ∧
    findsIn sShared {} (sShared.cluster 0).tlb 0x1000 = k0.tlb.head? ∧
    (∀ va ∈ [0x2000000, 0x3FFFFFF], findsIn sl {} (sl.core 0).tlb va = none ∧ findsIn sl {} (sl.cluster 0).tlb va = none ∧
      sl.walkers.getD (va / 2 ^ 16 % 64) [] = []) ∧
    (findsIn sm {} [{ (k0.tlb.headD default) with wr := false }] 0x1000).isSome = true ∧
    findsIn sm { write := true } [{ (k0.tlb.headD default) with wr := false }] 0x1000 = none := by decide +kernel
/-- Walks of the tables of sEng: mapped; not resident; an entry that is not valid; a context whose parent's window ends before. -/
def walked (s : State) (c va : Nat) : Nat :=
  match (Claims.walkOf s (s.chain c) va).bind (Claims.used s {}) with
  | .ok pa => pa
  | .error f => f.reason
theorem wit_walks : walked sl 0 0x2000000 = 0x14 ∧ walked sl 0 0x3FFFFFF = 0x14 ∧ walked sl 0 0x4000000 = 0x10 := by decide +kernel
/-- Where an access of a lane at an address goes, told by a number: the aperture fault's reason, 0x40 and the buffer, or 0x80. -/
def goes (s : State) (r : Reach) (a n : Nat) : Nat :=
  match (locate s s.w r {} 0 a n).2 with
  | .ok [(.buf b _, _)] => match b with
    | .s => 0x40
    | .a => 0x41
    | .w => 0x42
    | .c => 0x43
  | .ok _ => 0x80
  | .error f => if f.cause = 3 then f.reason else 0xFF
theorem wit_windows : (∀ p ∈ [(0xFE0040000000, 1, 1), (0xFEFFFFFFFFFF, 1, 1), (0xFF0004000000, 1, 1), (2 ^ 64 - 1, 1, 1),
      (Config.bufBase, 1, 0x40), (Config.bufBase + 1020, 4, 0x40), (Config.bufBase + 1024, 4, 2), (Config.bufBase + 2 ^ 24 - 1, 1, 2),
      (Config.bufBase + 2, 4, 4), (Config.bufBase + 2 ^ 24, 1, 2), (Config.bufBase + 2 * 2 ^ 24, 1, 3), (Config.bufBase + 3 * 2 ^ 24, 1, 2),
      (Config.stackBase, 1, 5), (0xFDFFFFFFFFFF, 2, 4), (0x1FFFFFF, 1, 0x80)], goes sm {} p.1 p.2.1 = p.2.2) ∧
    (∀ p ∈ [(Config.stackBase, 8, 0x80), (Config.stackBase + 2 ^ 16, 1, 5), (Config.stackEnd - 1, 1, 5), (Config.stackBase + 4, 8, 4)],
      goes sStack {} p.1 p.2.1 = p.2.2) ∧
    goes sStack { stack := false } Config.stackBase 8 = 3 ∧ goes sm { glob := false } 0 1 = 3 ∧
    goes sm { a := false } (Config.bufBase + 2 ^ 24) 1 = 3 := by decide +kernel
/-- The lowest lane whose access is refused, and the reason. -/
def firstFault (s : State) (i : Instr) : Option (Nat × Nat) :=
  match Claims.access s i with
  | some (os, r, a, n, reqs) => if (prepare s 4 os none).isNone && i.wellFormed then
      (locateAll r a n s reqs).2.findSome? fun x => match x.2 with
        | .ok _ => none
        | .error f => some (x.1.lane, f.reason)
    else none
  | none => none
theorem wit_lane_faults : (∀ i ∈ ([.ld 8 5 2 2 0 0, .st 8 5 2 2 0 0, .atom 8 5 2 0 0] : List Instr), firstFault sl i = some (31, 0x14)) ∧
    firstFault { sl with ctxs := ⟨[(0, { c0 with root := 0x2000 })]⟩ } (.ldr 8 5 2 2 3) = some (31, 0x10) ∧
    (let s := devC wm { gm with rs := { base := 0, size := 64 } } k0
     firstFault s (.spatom 8 4 2 0) = some (16, 2) ∧ firstFault s (.sunlk 8 4 2) = some (16, 2)) ∧
    firstFault sm (.ldbX 7 4 0 3 1) = none ∧ firstFault (devC wm g0 k0) (.ldbX 7 4 0 3 1) = some (0, 2) ∧ iss sl = true ∧
    Claims.casAligned (.atom 8 5 2 0 9) := by
  refine ⟨by decide +kernel, by decide +kernel, by decide +kernel, by decide +kernel, by decide +kernel, by decide, fun _ => rfl⟩

/-! ### The store queue -/

/-- Wave 0 has a queued store to offset 8 of S, which has waited or not; wave 1 one that waits at the same bank since time 3. -/
def sQueued (held : Nat) (wait : Option LockWait) : State := { devC { wm with storeQ := [(.buf .s 8, [1, 2, 3, 4]), (.buf .s 0, [5])], storeWait := wait } gm
    { k0 with locks := ⟨[(lockOf 8, held)]⟩ } with
  now := 10
  waves := ⟨[(0, { wm with storeQ := [(.buf .s 8, [1, 2, 3, 4]), (.buf .s 0, [5])], storeWait := wait }),
    (1, { wm with wid := 1, storeQ := [(.buf .s 8, [6])], storeWait := some { banks := [Place.bank (.buf .s 8)], since := 3, due := 9 } })]⟩ }
def since (t due : Nat) : LockWait := { banks := [Place.bank (.buf .s 8)], since := t, due := due }
theorem wit_store_locked : Claims.lockedBy (sQueued 5 none) 0 (.buf .s 8) (· ≠ 0) ∧ ¬Claims.lockedBy (sQueued 0 none) 0 (.buf .s 8) (· ≠ 0) ∧
    ¬Claims.lockedBy (sQueued 5 none) 0 (.phys 8 0) (· ≠ 0) := by
  refine ⟨⟨8, 5, rfl, by decide, by decide⟩, ?_, ?_⟩
  · rintro ⟨o, h, he, hg, hn⟩
    cases he
    exact hn (Option.some.inj (hg.symm.trans (by decide : _ = some 0)))
  · rintro ⟨o, h, he, _⟩
    exact nomatch he
theorem wit_store_turn : (sQueued 5 (some (since 4 11))).now < 11 ∧ ¬(sQueued 5 (some (since 4 10))).now < 10 ∧
    Claims.behind (sQueued 5 (some (since 4 10))) 0 0 (since 4 10) ∧
    ((sQueued 5 none).wave 0).storeQ = (.buf .s 8, [1, 2, 3, 4]) :: [(.buf .s 0, [5])] ∧ ((sQueued 5 none).core 0).l1 = [] := by
  refine ⟨by decide, by decide, ⟨1, 1, since 3 9, ?_, by decide, ⟨_, List.mem_singleton.mpr rfl, by decide⟩, by decide⟩, by decide, by decide⟩
  exact .inl ⟨_, List.mem_cons_of_mem _ (List.mem_singleton.mpr rfl), rfl, by decide, .inr ⟨rfl, rfl⟩⟩
/-- Of those that began together the lower wave's store goes first; an older one goes first too. -/
theorem wit_store_ahead : ∀ t ∈ [2, 3], ¬Claims.behind (sQueued 5 (some (since t 10))) 0 0 (since t 10) := by
  rintro t ht ⟨kind, num, z, h, -, -, h2⟩
  rcases h with ⟨p, hp, hn, -, h | h⟩ | ⟨-, p, hp, -, -⟩
  · obtain ⟨-, -, -, hs, hb⟩ := h
    simp only [sQueued, List.mem_cons, List.not_mem_nil, or_false] at hp
    rcases hp with rfl | rfl <;> simp [wm, wh, w0] at hb
  · obtain ⟨rfl, hs⟩ := h
    simp only [sQueued, List.mem_cons, List.not_mem_nil, or_false] at hp ht
    rcases hp with rfl | rfl
    · cases hs; simp only [since] at h2; subst hn; omega
    · cases hs; simp only [since] at h2; subst hn; omega
  · exact absurd (show p ∈ ([] : List (Nat × List EngineOp)) from hp) List.not_mem_nil

/-! ### Demotions -/

/-- A set of eight registers from v8 on, of wave 1; it was used before the sets of wave 0. -/
def r8 : Recipe := { rc false with dest := 8, count := 8, entry := 3, used := 1 }
/-- A core whose 2,048 names are all in use, with that set; wave 0 has some sets and is in a phase. -/
def sDem (mine : List Recipe) (p : Phase) : State := { dev w0 g0 with
  now := 300
  waves := ⟨[(0, { wh with granules := 4, recipes := mine, phase := p })] ++
    ((List.range 15).map fun n => (n + 1, { wh with wid := n + 1, recipes := if n = 0 then [r8] else [] })) ++
    [(16, { wh with group := 1, granules := 12 })]⟩
  groups := ⟨[(0, { g0 with waves := 16 }), (1, g0)]⟩ }
/-- A set of two names that was used later. -/
def r2 (demoted : Bool) : Recipe := { rc demoted with used := 5 }
theorem demotes_r8 (n : Nat) (mine : List Recipe) (p : Phase) (h : 2048 < (sDem mine p).backing 0 + n ∧ (1, r8) ∈ (sDem mine p).demotable 0 ∧
    (((sDem mine p).wave 1).recipes.map (·.entry)).Nodup ∧ ∀ q ∈ (sDem mine p).demotable 0, q = (1, r8) ∨ r8.used < q.2.used) :
    Claims.Demotes 0 n [(1, r8)] (sDem mine p) (Claims.demoted (sDem mine p) (1, r8)) := ⟨h.1, h.2.1, h.2.2.1, h.2.2.2, rfl⟩
/-- GROW of one granule, and of two; the regeneration of a demoted set of two names; a GROW that waits. -/
theorem wit_demotes_grow : let s := sDem [r2 false] .run
    let u := Claims.demoted s (1, r8)
    Claims.Demotes 0 8 [(1, r8)] s u ∧ u.backing 0 + 8 * 1 ≤ 2048 ∧ s.regWaiters 0 = [] ∧ s.w.phase = .run ∧ rdy s [] = true ∧ iss s = true :=
  ⟨demotes_r8 _ _ _ (by decide +kernel), by decide +kernel⟩
theorem wit_demotes_grow_waits : let s := sDem [] .run
    let u := Claims.demoted s (1, r8)
    Claims.Demotes 0 16 [(1, r8)] s u ∧ u.demotable 0 = [] ∧ 2048 < u.backing 0 + 8 * 2 ∧ s.regWaiters 0 = [] :=
  ⟨demotes_r8 _ _ _ (by decide +kernel), by decide +kernel⟩
/-- The registers of wave 0 are one granule more, of which a demoted set of wave 1 has six names. -/
def r6 : Recipe := { rc true with dest := 24, count := 6, entry := 4 }
def sRegen (l : List Recipe) : State := { sDem [] .run with
  waves := ⟨[(0, { wh with granules := 5, recipes := [r2 true] })] ++
    ((List.range 15).map fun n => (n + 1, { wh with wid := n + 1, recipes := if n = 0 then l else [] })) ++
    [(16, { wh with group := 1, granules := 12 })]⟩ }
theorem wit_demotes_regeneration : (let s := sRegen [r8, r6]
      let u := Claims.demoted s (1, r8)
      s.w.mustRegen 16 = some (r2 true) ∧ s.uncorr = [] ∧ rdy s (Claims.vector1 16) = true ∧ s.backing 0 = 2048 ∧ u.backing 0 + 2 ≤ 2048 ∧
        Claims.Demotes 0 2 [(1, r8)] s u) ∧
    (let s := sRegen [r6]
     s.w.mustRegen 16 = some (r2 true) ∧ Claims.Demotes 0 2 [] s s ∧ s.demotable 0 = [] ∧ 2048 < s.backing 0 + 2) := by
  refine ⟨⟨by decide +kernel, by decide, by decide +kernel, by decide +kernel, by decide +kernel, ?_⟩, ⟨by decide +kernel, rfl, by decide +kernel, by decide +kernel⟩⟩
  have h : 2048 < (sRegen [r8, r6]).backing 0 + 2 ∧ (1, r8) ∈ (sRegen [r8, r6]).demotable 0 ∧
    (((sRegen [r8, r6]).wave 1).recipes.map (·.entry)).Nodup ∧ ∀ q ∈ (sRegen [r8, r6]).demotable 0, q = (1, r8) ∨ r8.used < q.2.used := by decide +kernel
  exact ⟨h.1, h.2.1, h.2.2.1, h.2.2.2, rfl⟩
theorem wit_demotes_grant : let s := sDem [r2 false] (.regWait 8 5 true)
    let u := Claims.demoted s (1, r8)
    Claims.Demotes 0 8 [(1, r8)] s u ∧ u.backing 0 + 8 * 1 ≤ 2048 ∧ s.regWaiters 0 = [(5, 0, 8 * 1, true)] ∧ (s.wave 0).granules + 1 ≤ 16 ∧
    iss { s with cur := 0 } = true := ⟨demotes_r8 _ _ _ (by decide +kernel), by decide +kernel⟩

/-! ### Refusals of copies, circular buffers and the matrix unit -/

/-- The code, or for another cause the reason, of the first check that fails; 0 where none does. -/
def refusal0 (l : List (Bool × Trap)) : Nat := ((Claims.firstBad l).map fun x => x.info.toNat % 2 ^ 8).getD 0
/-- A copy whose registers, or whose record, are these. -/
def sRefuse (x y : Nat) (b : List Byte) : State := { sCopy [] with
  waves := ⟨[(0, ws [(6, BitVec.ofNat 64 x), (7, BitVec.ofNat 64 y)])]⟩, hbm := memWriteN [] 0x2001000 b }
/-- The record with a byte of it replaced. -/
def record1 (p : Nat × Nat) : List Byte := record.take p.1 ++ [BitVec.ofNat 8 p.2] ++ record.drop (p.1 + 1)
theorem wit_copy_first : ∀ p ∈ [(true, 5, 0x1000, 0, 0x51), (false, 0, 0x1000 + 2 ^ 54, 0, 0x52), (true, 0, 0x1000, 2 ^ 24, 0x52),
      (false, 0, 0x1000 + 2 ^ 50, 0, 0x52), (false, 0, 0x1000 + 3 * 2 ^ 48, 0, 3), (true, 0, 0x1000 + 2 ^ 48, 0, 3), (false, 0, 0x1010, 0, 0x40),
      (false, 0, 0x1000, 0, 0)], let s := sRefuse p.2.2.1 p.2.2.2.1 record
    refusal0 (Claims.copyFirst p.1 s p.2.1 6) = p.2.2.2.2 ∧ (prepare s 4 (Claims.copyOps 4 6) none).isNone = true ∧ iss s = true ∧
    s.w.storeQ = [] ∧ s.g.ep.nib = false ∧ (s.handle 0 1).poison = none := by decide +kernel
theorem wit_copy_rest : (∀ p ∈ [(5, 254, 3), (6, 1, 0x41), (9, 2, 0x42), (0x40, 0, 0x43), (0, 1, 0x44), (10, 8, 0x45), (0x4B, 8, 0x46)],
      refusal0 (Claims.copyRest false (sRefuse 0x1000 0 record) 6 (record1 (p.1, p.2.1)) 0) = p.2.2) ∧
    refusal0 (Claims.copyRest false (sRefuse 0x1000 (2 ^ 28) record) 6 record 0) = 0x47 ∧
    refusal0 (Claims.copyRest false (sRefuse 0x1000 0 record) 6 (leBytes 8 0xFE0040000000 ++ record.drop 8) 0) = 1 := by decide +kernel
/-- The bytes of the record, as the claim reads them; a page of the record that is not resident. -/
def recordReads (s : State) (a : Nat) : List Located :=
  (locateAll {} {} 8 s ((List.range 32).map fun j => { lane := s.w.nib, lanes := 0, addr := a + 8 * j })).2
theorem wit_copy_record_bytes : let s := sRefuse 0x1000 0 record
    (recordReads s 0x1000).flatMap (Claims.bytesOf s) = record ∧ placed s (recordReads s 0x1000) = true ∧ s.memWf = true ∧ s.uncorr = [] ∧
    s.w.remotes = [] ∧ (s.core 0).l1 = [] := by decide +kernel
theorem wit_copy_record_fault : let s := { sRefuse 0x2000000 0 record with hbm := tables, ctxs := ⟨[(0, { c0 with root := 0x1000 })]⟩ }
    refusal0 (Claims.copyFirst false s 0 6) = 0 ∧ ((recordReads s 0x2000000).head?.map fun y => match y.2 with
      | .error f => f.reason
      | .ok _ => 0) = some 0x14 := by decide +kernel
/-- The wave's next operation has begun as another than its slice says, or has been cancelled; the first slice finds no place. -/
theorem wit_copy_slices : (let s := { sRefuse 0x1000 0 record with clusters := ⟨[(0, { engines := ⟨[(0, [eo false])]⟩ })]⟩ }
     ∃ p, s.findOp 0 0 0 = some p ∧ p.2.handle = 1 ∧ p.1 = engineKey 0 0 ∧ p.2 ∈ s.queueOf 0 0 0) ∧
    (let s := { sRefuse 0x1000 0 record with groups := ⟨[(0, { gm with copies := ⟨[(1, 1)]⟩ })]⟩ }
     s.findOp 0 0 0 = none ∧ s.g.copies.getD 0 0 < s.g.opsBegun 0) ∧
    (let s := { sRefuse 0x1000 0 record with clusters := ⟨[(0, { engines := ⟨[(0, List.replicate 16 { eo false with group := 9 })]⟩ })]⟩ }
     s.findOp 0 0 0 = none ∧ s.g.opsBegun 0 ≤ s.g.copies.getD 0 0 ∧ 16 ≤ (s.queueOf 0 0 0).length) := by
  refine ⟨⟨(engineKey 0 0, eo false), ?_⟩, ?_⟩ <;> decide +kernel
/-- A copy with a follow-on word. -/
def sFollow (word tile : Nat) : State := { sMat [] false false with
  waves := ⟨[(0, { wt with s := ⟨wt.s.rows ++ [(10, 0x1000), (11, BitVec.ofNat 64 (word * 2 ^ 32)), (12, BitVec.ofNat 64 tile)]⟩ })]⟩
  groups := ⟨[(0, gt)]⟩, hbm := memWriteN [] 0x2001000 record }
theorem follows_word : Claims.Follows 0x00C14269 (.ptBf16, false, 4, 5, 6) := ⟨.mmaPtBf16 4 5 6 false, by decide +kernel, rfl⟩
theorem follows_word12 : Claims.Follows 0x00C16269 (.ptBf16, true, 4, 5, 6) := ⟨.mmaPtBf16 4 5 6 true, by decide +kernel, rfl⟩
/-- A NOP, and an MMA with bit 0 clear, which is no word of 32 bits. -/
theorem wit_no_follow : ∀ w ∈ [0x70000029, 0x00C14268], ∀ m, ¬Claims.Follows w m := by
  intro w hw m ⟨i, hd, ha⟩
  simp only [List.mem_cons, List.not_mem_nil, or_false] at hw
  rcases hw with rfl | rfl
  · rw [(by decide +kernel : decode 3 (leBytes 4 0x70000029) = some (.nop, 4))] at hd
    cases (Prod.mk.inj (Option.some.inj hd)).1
    exact nomatch ha
  · have h : (decode 3 (leBytes 4 0x00C14268)).all (fun p => p.2 == 2) = true := by decide +kernel
    rw [hd] at h
    simp at h
theorem wit_copy_follow : ∀ p ∈ [(0x4000, 0), (0x4001, 0x54)], let s := { sFollow 0x00C14269 0 with
      waves := ⟨[(0, { wt with s := ⟨(4, BitVec.ofNat 64 p.1) :: (wt.s.rows.drop 1 ++ [(10, 0x1000), (11, BitVec.ofNat 64 (0x00C14269 * 2 ^ 32))])⟩ })]⟩ }
    Claims.part (s.sreg 11).toNat 32 32 = 0x00C14269 ∧ rdy s (Claims.copyOps 20 10) = true ∧ rdy s (opsMma 4 5 6) = true ∧
    refusal0 (Claims.copyFirst false s 0 10) = 0 ∧ refusal0 (Claims.copyRest false s 10 record 0) = 0 ∧ s.canBind 0 1 = true ∧
    refusal0 (Claims.mmaChecks s.g .ptBf16 (s.sreg 4) (s.sreg 5) (s.sreg 6) 4 5 6) = p.2 := by decide +kernel
/-- The follow-on command of a finished copy: no place in the queue; a tile that is not aligned; a place. -/
theorem wit_followon_cases : ∀ p ∈ [(0x4000, true, 0), (0x4001, false, 0x54), (0x4000, false, 0)],
    let o := { eo1 false with
      started := true, follow := some (0x00C14269, BitVec.ofNat 64 p.1, wt.sreg 5, wt.sreg 6)
      targets := [{ k := 0, group := some 0, follow := true }] }
    let s := { sMat (if p.2.1 then List.replicate 16 (mc .mzero) else []) false false with clusters := ⟨[(0, { engines := ⟨[(0, [o])]⟩ })]⟩ }
    (s.queueOf 0 0 0).head? = some o ∧ s.matrixRoom 0 = !p.2.1 ∧ o.res.code = 0 ∧ s.groupHandler 0 = false ∧
    refusal0 (Claims.mmaChecks (s.group 0) .ptBf16 (BitVec.ofNat 64 p.1) (wt.sreg 5) (wt.sreg 6) 4 5 6) = p.2.2 := by decide +kernel
theorem wit_lands : let o := { eo1 false with started := true, targets := [{ k := 0, group := some 0 }] }
    Claims.lands (sEng o) o { wid := 0, starts := [0], d := 128 } 0 :=
  ⟨rfl, by decide, rfl, by decide +kernel, by decide +kernel, by decide +kernel⟩

/-- CBSET on another group's descriptor; CBWAIT behind a load that is under way. -/
theorem wit_cb_waits : (let s := sCb { valid := true, owner := 3 } cbw
      (Claims.cbuf s 7).valid = true ∧ (Claims.cbuf s 7).owner ≠ s.w.group ∧ refuses s = true ∧ rdy s (Claims.scalar1 4) = true) ∧
    (let s := { sCb { valid := true, count := 2, filled := 1 } cbw with waves := ⟨[(0, { ws [] with pending := [p0] })]⟩ }
     (Claims.cbuf s 7).valid = true ∧ (Claims.cbuf s 7).owner = s.w.group ∧ s.w.storeQ = [] ∧ s.w.loading = true ∧
     rdy s [{ field := 0, kind := .s, reg := 7, dst := true }] = true) := by decide

/-- Each check of the matrix commands fails on some descriptors: tile, A, B, latch; in handler mode without a tile, or on one that
is not the handler's. -/
theorem wit_matrix_refused : let s := sMat [] false false
    (∀ p ∈ [(2 ^ 56, 0x53), (0x4001, 0x54), (0x10000, 2)], refusal0 (Claims.tileChecks gt (BitVec.ofNat 64 p.1) 0 4 false) = p.2) ∧
    refusal0 (Claims.tileChecks gt (BitVec.ofNat 64 (2 ^ 32)) 0 4 true) = 0x58 ∧ refusal0 (Claims.tileChecks gt (BitVec.ofNat 64 (65536 * 2 ^ 32)) 0 4 true) = 2 ∧
    (∀ p ∈ [(2 ^ 48 + Config.bufBase, 0x53), (Config.bufBase + 3 * 2 ^ 24, 3), (Config.bufBase + 2 ^ 24, 0x55), (Config.bufBase + 64, 0x55),
        (Config.bufBase + 65536 - 2048, 0), (Config.bufBase + 65536 - 1920, 2)],
      refusal0 (Claims.operandChecks gt (BitVec.ofNat 64 p.1) 1 5 true [0] 2048) = p.2) ∧
    refusal0 (Claims.operandChecks gt (BitVec.ofNat 64 (2 ^ 63 + Config.bufBase)) 2 6 false [0] 2048) = 0x53 ∧
    refusal0 (Claims.mmaChecks gt .ptBf16 (s.sreg 4) (BitVec.ofNat 64 (2 ^ 63)) (s.sreg 6) 4 5 6) = 0x56 := by decide +kernel
theorem wit_matrix_protected : (let s := { sMat [] true false with groups := ⟨[(0, { gt with ep := { gran := 16 } })]⟩ }
      refusal0 (Claims.protectChecks s 0x4000 false) = 3) ∧
    refusal0 (Claims.protectChecks (sMat [] true false) 0x8000 true) = 1 ∧ refusal0 (Claims.protectChecks (sMat [] true false) 0 true) = 1 ∧
    refusal0 (Claims.protectChecks (sMat [] true false) 0x8000 false) = 0 ∧ refusal0 (Claims.protectChecks (sMat [] true false) 0x4000 true) = 0 := by
  decide +kernel
theorem wit_gather_refused : let s := sMat [] false false
    (∀ p ∈ [(2 ^ 63 + 2 ^ 48 + Config.bufBase, 0, 0x53), (3 * 2 ^ 48 + Config.bufBase, 0, 0x57), (2 ^ 48 + Config.bufBase + 8, 0, 0x57), (2 ^ 48 + Config.bufBase + 2 * 2 ^ 24, 0, 3),
        (2 ^ 48, 0, 0x57), (2 ^ 48 + Config.bufBase, 2048, 2), (2 ^ 48 + Config.bufBase, 2047, 0), (2 ^ 48 + Config.bufBase, 0xFFFFFFFF, 0)],
      refusal0 (Claims.gatherChecks s (BitVec.ofNat 64 p.1) 9 (List.replicate 64 (BitVec.ofNat 32 p.2.1))) = p.2.2) ∧
    refusal0 (Claims.gatherChecks (sMat [] true false) (s.sreg 9) 9 (List.replicate 64 0)) = 2 := by decide +kernel

/-! ### Entries of launches -/

/-- The header of a node table, as the device reads it, decided. -/
def headerOf (s : State) (c : Nat) (e : List Byte) : Option (List Byte) := (s.globReadRun c (Claims.tableAt e) 16).toOption
theorem header_ok {s : State} {c : Nat} {e h : List Byte} (q : headerOf s c e = some h) : s.globReadRun c (Claims.tableAt e) 16 = .ok h := by
  unfold headerOf at q
  cases hr : s.globReadRun c (Claims.tableAt e) 16 with
  | ok x => rw [hr] at q; exact congrArg _ (Option.some.inj q)
  | error f => rw [hr] at q; exact nomatch q
/-- An entry is good: nothing reserved is set, its table has its root's node, and that node's Endpaper has a record size. -/
def goodEntry (s : State) (c : Nat) (e : List Byte) : Bool :=
  (List.range 12).all (fun i => e.getD (0x14 + i) 0 == 0) && Claims.gfield (leNat ((e.drop 0x20).take 8)) 8 24 == 0 &&
    leNat ((e.drop 0x28).take 8) == 0 && (headerOf s c e).any fun h => decide (Claims.rootOf e < leNat ((h.drop 4).take 2)) &&
      match Claims.nodePage s c (Claims.tableAt e) (Claims.rootOf e) with
      | .ok p => Claims.recsz p != 0
      | .error _ => false
theorem good_entry {s : State} {c : Nat} {e : List Byte} (h : goodEntry s c e = true) :
    ¬Claims.EntryBad s c e ∧ ∀ f, ¬Claims.EntryFaults s c e f := by
  simp only [goodEntry, Bool.and_eq_true, List.all_eq_true, List.mem_range, beq_iff_eq, Option.any_eq_true_iff_get] at h
  obtain ⟨⟨⟨h1, h2⟩, h3⟩, hs, h4⟩ := h
  obtain ⟨hd, hh⟩ := Option.isSome_iff_exists.mp hs
  have hk := header_ok hh
  simp only [hh, Option.get_some, decide_eq_true_eq] at h4
  obtain ⟨h4, h5⟩ := h4
  cases hp : Claims.nodePage s c (Claims.tableAt e) (Claims.rootOf e) with
  | error f => rw [hp] at h5; exact nomatch h5
  | ok p =>
    rw [hp] at h5
    refine ⟨?_, ?_⟩
    · rintro ((⟨i, hi, hj, hne⟩ | hb | hb) | ⟨x, hx, hle | ⟨q, hq, hz⟩⟩)
      · exact hne (by have := h1 (i - 0x14) (by omega); rwa [Nat.add_sub_cancel' hi] at this)
      · exact hb h2
      · exact hb h3
      · rw [hk] at hx; cases hx; omega
      · rw [hp] at hq; cases hq; simp [hz] at h5
    · rintro f ⟨-, he | ⟨x, -, -, he⟩⟩
      · rw [hk] at he; exact nomatch he
      · rw [hp] at he; exact nomatch he
/-- The end of the part of a context's queue memory that its children leave. -/
def queueEnd (s : State) (c : Nat) : Nat := (s.ctx c).qbase + ((s.ctx c).qmem - Claims.children s c (·.qmem))
/-- An entry whose launch has one queue, of `n` bytes, decided. -/
def oneQueue (s : State) (c : Nat) (e : List Byte) (n : Nat) : Bool :=
  (headerOf s c e).any fun h => Claims.queueSizes s c e (leNat ((h.drop 4).take 2)) == [n]
theorem one_queue {s : State} {c : Nat} {e : List Byte} {n : Nat} (h : oneQueue s c e n = true) :
    ∃ x, s.globReadRun c (Claims.tableAt e) 16 = .ok x ∧ Claims.queueSizes s c e (leNat ((x.drop 4).take 2)) = [n] := by
  simp only [oneQueue, Option.any_eq_true_iff_get, beq_iff_eq] at h
  obtain ⟨hs, h⟩ := h
  obtain ⟨x, hx⟩ := Option.isSome_iff_exists.mp hs
  exact ⟨x, header_ok hx, by simpa [hx] using h⟩
theorem queue_at {s : State} {c n : Nat} {e : List Byte} {used : List Range} (h : oneQueue s c e n = true)
    (hb : (s.ctx c).qbase % 65536 = 0 ∧ (s.ctx c).qbase + n ≤ queueEnd s c ∧
      ∀ r ∈ used, ¬(r.base < (s.ctx c).qbase + n ∧ (s.ctx c).qbase < r.base + r.size)) :
    Claims.QueuesAt s c e used [(s.ctx c).qbase] := by
  obtain ⟨x, hx, hq⟩ := one_queue h
  exact ⟨x, hx, by rw [hq]; exact ⟨⟨⟨hb.1, le_rfl, hb.2.1, hb.2.2⟩, fun d hd => hd.2.1⟩, trivial⟩⟩
theorem no_queue {s : State} {c n : Nat} {e : List Byte} {used : List Range} (h : oneQueue s c e n = true)
    (hb : ∀ b, (s.ctx c).qbase ≤ b → b + n ≤ queueEnd s c → ∃ r ∈ used, r.base < b + n ∧ b < r.base + r.size) :
    ∀ bs, ¬Claims.QueuesAt s c e used bs := by
  rintro bs ⟨x, hx, hp⟩
  obtain ⟨y, hy, hq⟩ := one_queue h
  rw [hx] at hy
  cases hy
  rw [hq] at hp
  cases bs with
  | nil => exact hp
  | cons b t =>
    obtain ⟨⟨⟨-, hl, hh, hn⟩, -⟩, -⟩ := hp
    obtain ⟨r, hr, ho⟩ := hb b hl hh
    exact hn r hr ho
/-- ROOT's reading of its entry. -/
def rootRead (s : State) : State × List Byte :=
  match s.loadRun 0x1000 64 with
  | (s1, .ok e) => (s1, e)
  | (s1, .error _) => (s1, [])
theorem wit_root_entries : (goodEntry (rootRead (sRoot 0x3000 0 65536)).1 16 (rootRead (sRoot 0x3000 0 65536)).2 = true ∧
      oneQueue (rootRead (sRoot 0x3000 0 65536)).1 16 (rootRead (sRoot 0x3000 0 65536)).2 1024 = true ∧
      ((rootRead (sRoot 0x3000 0 65536)).1.ctx 16).qbase % 65536 = 0 ∧
      ((rootRead (sRoot 0x3000 0 65536)).1.ctx 16).qbase + 1024 ≤ queueEnd (rootRead (sRoot 0x3000 0 65536)).1 16 ∧
      Claims.runningQueues (sRoot 0x3000 0 65536) 16 = [] ∧
      ((rootRead (sRoot 0x3000 0 65536)).1.globWrites 16 (Claims.rootParts (rootRead (sRoot 0x3000 0 65536)).1 16
        (rootRead (sRoot 0x3000 0 65536)).2 [0x100000])).isOk = true) ∧
    (oneQueue (rootRead (sRoot 0x3000 0 0)).1 16 (rootRead (sRoot 0x3000 0 0)).2 1024 = true ∧
      queueEnd (rootRead (sRoot 0x3000 0 0)).1 16 = ((rootRead (sRoot 0x3000 0 0)).1.ctx 16).qbase) ∧
    ((rootRead (sRoot 0x3000 1 65536)).2.drop 0x28).take 8 = leBytes 8 1 ∧
    (((rootRead (sRoot 0x2000000 0 65536)).1.globReadRun 16 0x2000000 16).toOption = none ∧ Claims.tableAt (rootRead (sRoot 0x2000000 0 65536)).2 = 0x2000000) := by
  decide +kernel
theorem wit_root_placed : let p := rootRead (sRoot 0x3000 0 65536)
    (¬Claims.EntryBad p.1 16 p.2 ∧ ∀ f, ¬Claims.EntryFaults p.1 16 p.2 f) ∧
    Claims.QueuesAt p.1 16 p.2 [] [(p.1.ctx 16).qbase] ∧
    ∀ bs, ¬Claims.QueuesAt (rootRead (sRoot 0x3000 0 0)).1 16 (rootRead (sRoot 0x3000 0 0)).2 [] bs := by
  obtain ⟨⟨h1, h2, h3, h4, -⟩, ⟨h5, h6⟩, -⟩ := wit_root_entries
  refine ⟨good_entry h1, queue_at h2 ⟨h3, h4, fun _ h => nomatch h⟩, no_queue h5 fun b hl hh => ?_⟩
  omega
theorem wit_root_bad : Claims.EntryBad (rootRead (sRoot 0x3000 1 65536)).1 16 (rootRead (sRoot 0x3000 1 65536)).2 :=
  .inl (.inr (.inr (by rw [wit_root_entries.2.2.1]; decide)))
theorem wit_root_faults : ∃ f, Claims.EntryFaults (rootRead (sRoot 0x2000000 0 65536)).1 16 (rootRead (sRoot 0x2000000 0 65536)).2 f := by
  have h := wit_root_entries.2.2.2
  have hg : ¬Claims.badRecord (rootRead (sRoot 0x2000000 0 65536)).2 := by
    have : ∀ i, i < 12 → (rootRead (sRoot 0x2000000 0 65536)).2.getD (0x14 + i) 0 = 0 := by decide +kernel
    rintro (⟨i, hi, hj, hne⟩ | hb | hb)
    · exact hne (by have := this (i - 0x14) (by omega); rwa [Nat.add_sub_cancel' hi] at this)
    · exact hb (by decide +kernel)
    · exact hb (by decide +kernel)
  cases hr : (rootRead (sRoot 0x2000000 0 65536)).1.globReadRun 16 0x2000000 16 with
  | ok x => rw [hr] at h; exact nomatch h.1
  | error f => exact ⟨f, hg, .inl (by rw [h.2]; exact hr)⟩

/-- The entry at the head of front end 0's ring. -/
def headEntry (s : State) : List Byte := memReadN s.host 0 64
/-- The same beside a running launch whose queue takes the first 64 KiB of 128. -/
def sFull (quota : Nat) : State := { sEntry 0x3000 0 quota with launches := ⟨[(0, { nodes := ⟨[(0, { cap := 32, base := 0x100000, ep := { recsz := 1 } })]⟩ })]⟩ }
theorem wit_fe_entries : goodEntry (sEntry 0x3000 0 65536) 0 (headEntry (sEntry 0x3000 0 65536)) = true ∧
    oneQueue (sEntry 0x3000 0 65536) 0 (headEntry (sEntry 0x3000 0 65536)) 1024 = true ∧
    ((sEntry 0x3000 0 65536).ctx 0).qbase % 65536 = 0 ∧ ((sEntry 0x3000 0 65536).ctx 0).qbase + 1024 ≤ queueEnd (sEntry 0x3000 0 65536) 0 ∧
    Claims.runningQueues (sEntry 0x3000 0 65536) 0 = [] ∧
    ((sEntry 0x3000 0 65536).globWrites 0 (Claims.rootParts (sEntry 0x3000 0 65536) 0 (headEntry (sEntry 0x3000 0 65536)) [0x100000])).isOk = true ∧
    oneQueue (sEntry 0x3000 0 0) 0 (headEntry (sEntry 0x3000 0 0)) 1024 = true ∧
    queueEnd (sEntry 0x3000 0 0) 0 = ((sEntry 0x3000 0 0).ctx 0).qbase ∧
    goodEntry (sFull 65536) 0 (headEntry (sFull 65536)) = true ∧ oneQueue (sFull 65536) 0 (headEntry (sFull 65536)) 1024 = true ∧
    Claims.runningQueues (sFull 65536) 0 = [{ base := 0x100000, size := 1024 }] := by decide +kernel
theorem wit_fe_placed : let s := sEntry 0x3000 0 65536
    (¬Claims.EntryBad s 0 (headEntry s) ∧ ∀ f, ¬Claims.EntryFaults s 0 (headEntry s) f) ∧ Claims.QueuesAt s 0 (headEntry s) [] [(s.ctx 0).qbase] ∧
    ∀ bs, ¬Claims.QueuesAt (sEntry 0x3000 0 0) 0 (headEntry (sEntry 0x3000 0 0)) [] bs := by
  obtain ⟨h1, h2, h3, h4, -, -, h5, h6, -⟩ := wit_fe_entries
  refine ⟨good_entry h1, queue_at h2 ⟨h3, h4, fun _ h => nomatch h⟩, no_queue h5 fun b hl hh => ?_⟩
  omega
/-- Queues of 1,024 bytes in 1,024 bytes: the running launch leaves no room. -/
theorem wit_fe_no_room : let s := sFull 1024
    Claims.QueuesAt s 0 (headEntry s) [] [(s.ctx 0).qbase] ∧ ∀ bs, ¬Claims.QueuesAt s 0 (headEntry s) (Claims.runningQueues s 0) bs := by
  have h : oneQueue (sFull 1024) 0 (headEntry (sFull 1024)) 1024 = true ∧ queueEnd (sFull 1024) 0 = 0x100400 ∧ ((sFull 1024).ctx 0).qbase = 0x100000 ∧
    Claims.runningQueues (sFull 1024) 0 = [{ base := 0x100000, size := 1024 }] := by decide +kernel
  obtain ⟨h1, h2, h3, h4⟩ := h
  refine ⟨queue_at h1 ⟨by omega, by omega, fun _ h => nomatch h⟩, no_queue h1 fun b hl hh => ?_⟩
  rw [h4]
  exact ⟨_, List.mem_singleton.mpr rfl, by dsimp only; omega, by dsimp only; omega⟩

/-! ### Joins and the tree of contexts, continued -/

/-- Memory under page tables, with the last record of a join at 0x5000, whose continuation has a header. -/
def contMem (h : Nat) : Memory :=
  memWriteN (memWriteN (memWriteN (recMem 4 0x5000 1) 0x1000 (leBytes 8 0x20001)) 0x20000 (leBytes 8 0x200001F)) 0x2005040 (leBytes 8 h)
/-- The last record of a join, whose continuation finds slot 1 free. -/
def sCont : State := { sJoin 1 with
  launches := ⟨[(0, { nodes := ⟨[(0, { nd ⟨[(0, .assigned 0)]⟩ 1 with ring := 1 })]⟩, nodeCount := 1 })]⟩
  ctxs := ⟨[(0, { c0 with root := 0x1000, qbase := 0x4000 })]⟩, hbm := contMem (4 * 256 + 2 ^ 16) }
theorem wit_rqjoin_free : (match joinLanes (sCont.vaReg 8) sCont [] (lanesIn sCont.w.active) with
      | (s1, .ok j) => j == [{ lane := 0, join := 0x5000, pa := 0x2005000 }] &&
        (let after := (s1.atHome 0 0 [(0x2005000, 8)] fun _ => 0).1
         after.contHeader 0x5000 == 4 * 256 + 2 ^ 16 && (match after.globRead 0 0x5040 32 with
          | .ok b => (after.globWrites 0 (Claims.recordParts (sCont.node 0 0) 1 (leBytes 8 (4 * 256) ++ b.drop 8))).isOk
          | .error _ => false))
      | (_, .error _) => false) = true ∧ (sCont.node 0 0).nextFree = some 1 ∧ (sCont.node 0 0).check ≠ 2 ∧ iss sCont = true ∧
    Claims.wordAt sCont 0x2005000 = 1 ∧ sCont.recordCheck (sCont.vaReg 8) = none ∧ sCont.memWf = true ∧ sCont.c.l1 = [] := by decide +kernel
theorem wit_continuation : let s := { sCont with
      launches := ⟨[(0, { continuations := [(0x5000, 0)], nodes := ⟨[(0, { nd ⟨[(0, .assigned 0)]⟩ 1 with ring := 1 })]⟩, nodeCount := 1 })]⟩ }
    let s1 := s.setLaunch 0 { s.launch 0 with continuations := [] }
    (s.launch 0).continuations = [(0x5000, 0)] ∧ (s.node 0 0).nextFree = some 1 ∧ (match s1.globRead 0 0x5040 32 with
      | .ok b => ((s1.setNode 0 0 { s.node 0 0 with ring := 2 }).globWrites 0 (Claims.recordParts (s.node 0 0) 1 (leBytes 8 (4 * 256) ++ b.drop 8))).isOk
      | .error _ => false) = true := by decide +kernel

/-- What a child holds covers a take of each kind, or does not; the same for a core that a revocation takes already. -/
def coversCores (s : State) (w : Nat) : Bool := (Claims.namedCores w).all fun k => s.granted 16 k && (s.children 16).all (fun e => !s.granted e k) &&
  (s.ctx 16).revokes.all (fun r => r.due.isNone || !r.cores.contains k) && (s.ctx 0).revokes.all fun r => r.child != 16 || !r.cores.contains k
theorem wit_covered_cores : coversCores (sTree 16 8) 8 = true ∧ coversCores (sTree 16 2) 2 = false ∧ coversCores (sRev { child := 16, kind := some 0, group := 0, handle := 2, cores := [3], due := none } {}) 8 = false := by
  decide +kernel
theorem covers_iff (s : State) (w : Nat) (h : Claims.gfield w 60 4 = 0) : Claims.covered s 0 16 w ↔ coversCores s w = true := by
  simp only [Claims.covered, h, coversCores, List.all_eq_true, Bool.and_eq_true, Bool.or_eq_true, Bool.not_eq_true', Option.isNone_iff_eq_none,
    bne_iff_ne, List.contains_eq_mem, decide_eq_false_iff_not, ne_eq]
  refine forall₂_congr fun k _ => ?_
  refine ⟨fun ⟨a, b, c, d⟩ => ⟨⟨⟨a, b⟩, fun r hr => ?_⟩, fun r hr => ?_⟩, fun ⟨⟨⟨a, b⟩, c⟩, d⟩ => ⟨a, b, fun r hr hd => ?_, fun r hr hc => ?_⟩⟩
  · exact or_iff_not_imp_left.mpr fun q => c r hr q
  · by_cases q : r.child = 16
    · exact .inr (d r hr q)
    · exact .inl q
  · exact (c r hr).resolve_left hd
  · exact (d r hr).resolve_left fun q => q hc
theorem wit_covered : (let s := sTree 16 0
      Claims.covered s 0 16 (2 ^ 60 + 2 ^ 24 + 1) ∧ Claims.covered s 0 16 (2 * 2 ^ 60 + 1) ∧ Claims.covered s 0 16 (3 * 2 ^ 60 + 4) ∧
      Claims.covered s 0 16 (4 * 2 ^ 60 + 1) ∧ Claims.covered s 0 16 (5 * 2 ^ 60 + 8) ∧ ¬Claims.covered s 0 16 (2 ^ 60 + 2 * 2 ^ 24 + 1) ∧
      ¬Claims.covered s 0 16 (2 * 2 ^ 60 + 2) ∧ ¬Claims.covered s 0 16 (3 * 2 ^ 60 + 9) ∧ ¬Claims.covered s 0 16 (4 * 2 ^ 60 + 2) ∧
      ¬Claims.covered s 0 16 (5 * 2 ^ 60 + 9)) := by
  refine ⟨?_, ?_, ?_, ?_, ?_, ?_, ?_, ?_, ?_, ?_⟩
  · show Claims.namedWindow _ ∈ ((sTree 16 0).ctx 16).windows; decide +kernel
  · show Claims.gfield _ 0 32 * 65536 + Claims.children (sTree 16 0) 16 (·.qmem) ≤ ((sTree 16 0).ctx 16).qmem; decide +kernel
  · show Claims.gfield _ 0 9 ≤ ((sTree 16 0).ctx 16).bindCount; decide +kernel
  · show Claims.gfield _ 0 16 + Claims.children (sTree 16 0) 16 (fun y => y.energy.getD (Claims.gfield (4 * 2 ^ 60 + 1) 48 7) 0) ≤ _ ∧ Claims.gfield _ 16 16 + Claims.children (sTree 16 0) 16 (fun y => y.ipeak.getD (Claims.gfield (4 * 2 ^ 60 + 1) 48 7) 0) ≤ _; decide +kernel
  · show Claims.gfield _ 0 9 + Claims.children (sTree 16 0) 16 (·.share) ≤ ((sTree 16 0).ctx 16).share; decide +kernel
  · show ¬Claims.namedWindow _ ∈ ((sTree 16 0).ctx 16).windows; decide +kernel
  · show ¬Claims.gfield _ 0 32 * 65536 + Claims.children (sTree 16 0) 16 (·.qmem) ≤ ((sTree 16 0).ctx 16).qmem; decide +kernel
  · show ¬Claims.gfield _ 0 9 ≤ ((sTree 16 0).ctx 16).bindCount; decide +kernel
  · show ¬(Claims.gfield _ 0 16 + Claims.children (sTree 16 0) 16 (fun y => y.energy.getD (Claims.gfield (4 * 2 ^ 60 + 2) 48 7) 0) ≤ _ ∧ Claims.gfield _ 16 16 + Claims.children (sTree 16 0) 16 (fun y => y.ipeak.getD (Claims.gfield (4 * 2 ^ 60 + 2) 48 7) 0) ≤ _); decide +kernel
  · show ¬Claims.gfield _ 0 9 + Claims.children (sTree 16 0) 16 (·.share) ≤ ((sTree 16 0).ctx 16).share; decide +kernel

/-- Descriptors that break no rule, and ones that break a range or set a reserved bit. -/
theorem wit_descriptors : ¬Claims.badDescriptor (desc 0) (some 500) ∧ Claims.badDescriptor (desc 60001) (some 500) ∧
    Claims.badDescriptor (desc 501) (some 500) ∧
    Claims.badDescriptor ((desc 0).take 0x7F ++ [1]) none := by
  refine ⟨?_, ?_, ?_, ?_⟩
  · simp only [Claims.badDescriptor, not_or, not_exists, not_and]
    repeat' apply And.intro
    all_goals decide +kernel
  · refine .inr (.inr (.inr (.inr (.inr (.inr (.inr (.inr (.inl ?_)))))))); decide +kernel
  · refine .inr (.inr (.inr (.inr (.inr (.inr (.inr (.inr (.inr (.inl ⟨500, rfl, ?_⟩))))))))); decide +kernel
  · exact .inl (.inr (.inr (.inr (.inr (.inr (.inr (.inr (.inr (.inr (.inr (.inr (.inr (.inr (.inr ⟨0x7F, by decide, by decide, by decide +kernel⟩))))))))))))))

/-- CTXNEW of a descriptor in a page that is not resident, or not aligned to 8 bytes. -/
theorem wit_ctxnew_fault : let s := { sPage 0x2000000 {} with waves := ⟨[(0, ws [(6, 0x2000000), (7, 0x1FFFFFC)])]⟩ }
    rdy s (Claims.opsDA 4 6) = true ∧ rdy s (Claims.opsDA 4 7) = true ∧ iss s = true ∧
    (∀ p ∈ [(0x2000000, 8, 0), (0x1FFFFFC, 1, 4)], ((locateAll { stack := false, s := false, a := false, c := false } {} p.2.1 s
      ((List.range (128 / p.2.1)).map fun j => { lane := 0, lanes := 0, addr := (p.1 + p.2.1 * j) % 2 ^ 64 })).2.findIdx? fun x =>
        match x.2 with
        | .ok _ => false
        | .error f => f.reason == 0x14) = some p.2.2) := by decide +kernel

/-! ### Front ends and health, continued -/

theorem bad_of_wdog {b : List Byte} {p : Option Nat} (h : 60000 < Claims.gfield (leNat ((b.drop 0x38).take 8)) 32 32) : Claims.badDescriptor b p :=
  .inr (.inr (.inr (.inr (.inr (.inr (.inr (.inr (.inl h))))))))
/-- Front end 0 with a range and settings; front end 3 enabled with clusters 9 and 10 and half of the shares. -/
def sAble (range wdog : Nat) : State := { sFe false [] 0 with
  frontEnds := ⟨[(0, { range := BitVec.ofNat 64 range, settings := memWriteN [] 0 (desc wdog) }), (3, { enable := true, range := 0x8000000A09 })]⟩ }
theorem wit_unenabled : (∀ r ∈ [0x001, 0x5F00 + 0x100, 0x0908, 0x0B0A, 0x8100000100], Claims.Unenabled (sAble r 0) 0) ∧
    Claims.Unenabled (sAble 0x100 60001) 0 ∧ ¬Claims.Unenabled (sAble 0x100 0) 0 := by
  refine ⟨?_, .inr (.inr (.inr (.inr (bad_of_wdog (by decide +kernel))))), ?_⟩
  · intro r hr
    simp only [List.mem_cons, List.not_mem_nil, or_false] at hr
    rcases hr with rfl | rfl | rfl | rfl | rfl
    · exact .inl (by decide +kernel)
    · exact .inr (.inl (by decide +kernel))
    · exact .inr (.inr (.inl ⟨{ enable := true, range := 0x8000000A09 }, by decide +kernel⟩))
    · exact .inr (.inr (.inl ⟨{ enable := true, range := 0x8000000A09 }, by decide +kernel⟩))
    · exact .inr (.inr (.inr (.inl (by decide +kernel))))
  · have h : (List.range 128).map (fun i => memRead ((sAble 0x100 0).frontEnd 0).settings i) = desc 0 := by decide +kernel
    simp only [Claims.Unenabled, h, not_or]
    refine ⟨by decide +kernel, by decide +kernel, ?_, by decide +kernel, ?_⟩
    · rintro ⟨y, hy, -, h1⟩
      have : y = { enable := true, range := 0x8000000A09 } := List.mem_singleton.mp hy
      subst this
      exact absurd h1 (by decide +kernel)
    · simp only [Claims.badDescriptor, not_or, not_exists, not_and]
      repeat' apply And.intro
      all_goals decide +kernel
/-- Two words owed, in the order in which their launches ended. -/
theorem wit_owes : let s := { sFe true [] 1 with
      frontEnds := ⟨[(0, { enable := true, status := 3, owes := [1, 0] })]⟩
      launches := ⟨[(0, { frontEnd := some 0, ended := true, owed := some 7, completion := 0x700 }), (1, { frontEnd := some 0, ended := true, owed := some 8, completion := 0x708 })]⟩ }
    (s.ctxs.get? 0).isSome = true ∧ (s.launches.rows.map (·.1)).Nodup ∧ s.memWf = true ∧ (∀ j ∈ (s.frontEnd 0).owes, (s.launch j).frontEnd = some 0) ∧
    (s.frontEnd 0).owes = [] ++ 1 :: [0] ∧ (s.frontEnd 0).owes = [1] ++ 0 :: [] ∧ (s.launch 1).owed = some 8 ∧ (s.launch 0).owed = some 7 ∧
    (s.launch 0).completion + 8 ≤ (s.launch 1).completion := by decide +kernel
/-- A block that fixes the point of one domain. -/
theorem wit_fixed_points : let f : Tab (Nat × Nat) := ⟨[(2, (7, 1))]⟩
    f.keys.Nodup ∧ f.get? 2 = some (7, 1) ∧ f.get? 3 = none ∧ Claims.usable (sFlash true 2 3 true true) { valid := true, block := { version := 3 } } :=
  ⟨by decide, by decide, by decide, by unfold Claims.usable; decide⟩

/-! ### Power and clusters, continued -/

/-- Under the clamp at point 6: at that point, below it, in a step. A clamp step beside a step with no target, or with a higher one. -/
theorem wit_under_clamp : (∀ x ∈ [xc none 6, xc none 4, xc (some (5, 0)) 10], x.clamped = true ∧ x.clampedPoint < 12 ∧ (sPow x 1).domain 1 = x) ∧
    (xc none 6).point = 6 ∧ (xc none 4).step = none ∧ (xc none 4).point ≠ 6 ∧ (xc (some (5, 0)) 10).step ≠ none ∧
    (∀ t ∈ [none, some (9, 0)], let x := { xc (some (5, 0)) 10 with target := t }
      x.step = some (5, 0) ∧ ∀ q, x.target = some q → 5 - 1 < q.1) ∧ ((xc none 4).target = none ∧ 0 < (xc none 4).point) := by
  refine ⟨by decide +kernel, rfl, rfl, by decide, by decide, ?_, rfl, by decide⟩
  intro t ht
  simp only [List.mem_cons, List.not_mem_nil, or_false] at ht
  rcases ht with rfl | rfl
  · exact ⟨rfl, fun q hq => nomatch hq⟩
  · exact ⟨rfl, fun q hq => Option.some.inj hq ▸ by decide⟩
theorem wit_temperatures : (100 < 101 ∧ (xc none 4).clamped = true) ∧ 105 < 106 ∧ (101 ≤ 105 ∧ (xd false false).clamped = false) := by decide
theorem wit_engines_busy : (sStart 0 []).enginesBusy 0 = false ∧ ((sStart 0 []).cluster 0).gated = false ∧ ((sStart 0 []).cluster 0).busyAt + 64 ≤ (sStart 0 []).now ∧
    (sMat [mcDue] false false).enginesBusy 0 = true ∧ (sMat [mc .mzero] false false).enginesBusy 0 = false ∧
    ({ sStart 0 [] with now := 63 } : State).now < ((sStart 0 []).cluster 0).busyAt + 64 := by decide +kernel

/-! ### Conversions between formats -/

theorem wit_convert : readFp fp64 {} 0x7FF0000000000001 = .nan true ∧ readFp fp16 {} 0xFC00 = .inf true ∧ readFp fp32 {} 0xBF800000 = .fin true 8388608 (-23) := by
  decide
/-- Barriers that have begun: the counted waves are those of its first arrival. -/
theorem wit_barriers_begun : ∀ b ∈ [true, false],
    let s := { sb b with
      groups := ⟨[(0, { g0 with waves := 2, sets := ⟨[(0, { members := 3, begun := true, counted := 3, arrived := if b then 2 else 0 })]⟩ })]⟩
      launches := ⟨[(0, { lbegun := true, lcounted := [0, 1], larrived := if b then [1] else [] })]⟩ }
    (s.g.set 0).begun = true ∧ (s.g.set 0).counted.getLsbD s.w.wid = true ∧ (s.launch s.g.launch).lbegun = true ∧
    s.cur ∈ (s.launch s.g.launch).lcounted ∧ (s.g.set 0).arrived.getLsbD 1 = b ∧ ((1 ∈ (s.launch s.g.launch).larrived) ↔ b = true) := by decide
/-- The lane of a node that its launch has not read yet. -/
def sUnread (queued : Bool) : State := { sLaunch 0 3 queued false with
  launches := ⟨[(0, { table := 0x3000, header := tableHeader, nodes := ⟨[(0, unreadNode)]⟩, nodeCount := 1 })]⟩ }
theorem wit_unread : ∀ q ∈ [true, false], ((sUnread q).node 0 0).entry = [] ∧ ((sUnread q).node 0 0).check = 0 ∧ ((sUnread q).launch 0).ended = false ∧
    (match Claims.nodePage (sUnread q) 0 0x3000 0 with
      | .ok p => p.1 == tableEntry && p.2 == pageBytes 3
      | .error _ => false) = true := by decide +kernel
theorem wit_unread_base : let s := { sUnread false with ctxs := ⟨[(0, { c0 with root := 0x1000, qmem := 65536 })]⟩ }
    Claims.LowestBase (s.ctx 0).qbase ((s.ctx 0).qbase + ((s.ctx 0).qmem - Claims.children s 0 (·.qmem))) (Claims.runningQueues s 0) 1024 (s.ctx 0).qbase :=
  ⟨by decide +kernel, fun _ h => h.2.1⟩

/-! ### The selector -/

/-- Three ready waves on one core: the youngest was passed over for 32 cycles; the oldest has issued in this cycle. -/
def sThree (late issued : Bool) : State := { sStep 0x1920 0 with
  waves := ⟨[(0, { wh with placed := 1 }), (1, { wh with wid := 1, placed := 2 }), (2, { wh with wid := 2, placed := 2, slot := 1 })]⟩
  groups := ⟨[(0, { g0 with waves := 3 })]⟩
  passed := ⟨if late then [(2, 32)] else []⟩, issuedNow := if issued then [(0, 0)] else [] }
theorem wit_selector : (sThree false false).choose = some 0 ∧ (sThree true false).choose = some 2 ∧ (sThree false true).choose = some 1 ∧
    (sThree false true).turn = [] ∧ (sThree false true).slotFree 0 = false ∧ (sThree false true).slotFree 2 = true := by decide +kernel

/-! ### Ill-formed instructions, one for each check: every field at the first value that its width does not hold -/

theorem test_fields_128_128_128 : ∀ f ∈ ([
      .iadd, .isub, .imul, .imulhI32, .imulhN32, .imin, .imax, .and, .or, .xor, .andn, .shl, .shr, .sar, .rot, .imad,
      .sel, .bfxI32, .bfxN32, .bfi, .iaddI64, .isubI64, .imulI64, .lperm, .nopH1, .nopH2, .faddF32, .fsubF32, .fmulF32,
      .ffmaF32, .fdivF32, .fminF32, .fmaxF32, .ffmaF32Rn, .ffmaF32Rz, .faddF64, .fsubF64, .fmulF64, .ffmaF64, .fdivF64,
      .fminF64, .fmaxF64, .fcvtBf16F32, .fcvtF16F32, .hadd2Bf16, .hmul2Bf16, .hfma2Bf16, .hadd2F16, .hmul2F16, .hfma2F16] : List (Nat → Nat → Nat → Instr)),
    (f 128 1 1).wellFormed = false ∧ (f 1 128 1).wellFormed = false ∧ (f 1 1 128).wellFormed = false ∧ (f 127 127 127).wellFormed = true := by decide
theorem test_fields_128_128 : ∀ f ∈ ([
      .iabs, .ineg, .not, .clz, .popc, .brev, .mov, .icvtI8, .icvtI16, .icvtI64, .icvtI32, .reduceAddI32,
      .reduceMaxI32, .reduceAddF32, .reduceMaxF32, .reduceAddF64, .frcpF32, .fsqrtF32, .frsqF32, .fabsF32, .fnegF32,
      .fclassF32, .froundF32, .fsqrtF64, .fabsF64, .fnegF64, .fexpF32, .flogF32, .fsinF32, .fcosF32, .ftanhF32,
      .fcvtF64F32, .fcvtF32F64, .fcvtF32I32, .fcvtF32N32, .fcvtI32F32, .fcvtN32F32, .jseedF32, .jseedF64, .jdiffF32,
      .jdiffF64, .jintegF32, .jintegF64, .jfactF32, .jfactF64] : List (Nat → Nat → Instr)),
    (f 128 1).wellFormed = false ∧ (f 1 128).wellFormed = false ∧ (f 127 127).wellFormed = true := by decide
theorem test_fields_16_128_128 : ∀ f ∈ ([
      .icmpEq, .icmpLtI32, .icmpLtN32, .fcmpEqF32, .fcmpLtF32, .fcmpLeF32, .fcmpEqF64, .fcmpLtF64, .fcmpLeF64] : List (Nat → Nat → Nat → Instr)),
    (f 16 1 1).wellFormed = false ∧ (f 1 128 1).wellFormed = false ∧ (f 1 1 128).wellFormed = false ∧ (f 15 127 127).wellFormed = true := by decide
theorem test_fields_128_128_2048 : ∀ f ∈ ([
      .iaddImm] : List (Nat → Nat → Nat → Instr)),
    (f 128 1 1).wellFormed = false ∧ (f 1 128 1).wellFormed = false ∧ (f 1 1 2048).wellFormed = false ∧ (f 127 127 2047).wellFormed = true := by decide
theorem test_fields_128_128_32 : ∀ f ∈ ([
      .shlImm] : List (Nat → Nat → Nat → Instr)),
    (f 128 1 1).wellFormed = false ∧ (f 1 128 1).wellFormed = false ∧ (f 1 1 32).wellFormed = false ∧ (f 127 127 31).wellFormed = true := by decide
theorem test_fields_128_262144 : ∀ f ∈ ([
      .movi, .rmark] : List (Nat → Nat → Instr)),
    (f 128 1).wellFormed = false ∧ (f 1 262144).wellFormed = false ∧ (f 127 262143).wellFormed = true := by decide
theorem test_fields_128_65536 : ∀ f ∈ ([
      .lih] : List (Nat → Nat → Instr)),
    (f 128 1).wellFormed = false ∧ (f 1 65536).wellFormed = false ∧ (f 127 65535).wellFormed = true := by decide
theorem test_fields_32_32_32 : ∀ f ∈ ([
      .sadd, .ssub, .smul, .sand, .sor, .sxor, .sshl, .sshr, .scmpEq, .scmpLtI64, .scmpLtN64, .mmaOrandBits,
      .ctxgrantCores, .ctxgrantMem, .ctxgrantQmem, .ctxgrantBind, .ctxgrantEnergyIpeak, .ctxgrantBandwidth,
      .ctxgrantRoot, .ctxgrantResume] : List (Nat → Nat → Nat → Instr)),
    (f 32 1 1).wellFormed = false ∧ (f 1 32 1).wellFormed = false ∧ (f 1 1 32).wellFormed = false ∧ (f 31 31 31).wellFormed = true := by decide
theorem test_fields_32_32 : ∀ f ∈ ([
      .smov, .bind, .acq, .rel, .signal, .waitge, .mflags, .mflagsClr, .ctxnew, .pwrreqGate, .pwrreqWake, .pwrreqPoint,
      .pwrreqMode, .pwrreqHold, .pwrreqQuery] : List (Nat → Nat → Instr)),
    (f 32 1).wellFormed = false ∧ (f 1 32).wellFormed = false ∧ (f 31 31).wellFormed = true := by decide
theorem test_fields_32_32_32768 : ∀ f ∈ ([
      .saddImm, .sandImm] : List (Nat → Nat → Nat → Instr)),
    (f 32 1 1).wellFormed = false ∧ (f 1 32 1).wellFormed = false ∧ (f 1 1 32768).wellFormed = false ∧ (f 31 31 32767).wellFormed = true := by decide
theorem test_fields_32_32_64 : ∀ f ∈ ([
      .sshlImm] : List (Nat → Nat → Nat → Instr)),
    (f 32 1 1).wellFormed = false ∧ (f 1 32 1).wellFormed = false ∧ (f 1 1 64).wellFormed = false ∧ (f 31 31 63).wellFormed = true := by decide
theorem test_fields_32_1048576 : ∀ f ∈ ([
      .smovi, .slih] : List (Nat → Nat → Instr)),
    (f 32 1).wellFormed = false ∧ (f 1 1048576).wellFormed = false ∧ (f 31 1048575).wellFormed = true := by decide
theorem test_fields_128 : ∀ f ∈ ([
      .vlid, .jmp, .ret, .rdrop, .rmat, .rdemote, .spush, .spop, .spushRoltik2, .spopRoltik2, .rqcommit, .rqjoin,
      .csrrDx, .csrwDx] : List (Nat → Instr)),
    (f 128).wellFormed = false ∧ (f 127).wellFormed = true := by decide
theorem test_fields_16_16 : ∀ f ∈ ([
      .vote, .mnot, .mmov, .elect] : List (Nat → Nat → Instr)),
    (f 16 1).wellFormed = false ∧ (f 1 16).wellFormed = false ∧ (f 15 15).wellFormed = true := by decide
theorem test_fields_32_16 : ∀ f ∈ ([
      .mpop, .pmcr] : List (Nat → Nat → Instr)),
    (f 32 1).wellFormed = false ∧ (f 1 16).wellFormed = false ∧ (f 31 15).wellFormed = true := by decide
theorem test_fields_16_16_16 : ∀ f ∈ ([
      .mand, .mor, .mxor] : List (Nat → Nat → Nat → Instr)),
    (f 16 1 1).wellFormed = false ∧ (f 1 16 1).wellFormed = false ∧ (f 1 1 16).wellFormed = false ∧ (f 15 15 15).wellFormed = true := by decide
theorem test_fields_16_2097152 : ∀ f ∈ ([
      .br, .call, .brsZ, .brsNz] : List (Nat → Nat → Instr)),
    (f 16 1).wellFormed = false ∧ (f 1 2097152).wellFormed = false ∧ (f 15 2097151).wellFormed = true := by decide
theorem test_fields_16 : ∀ f ∈ ([
      .wake, .join, .leave, .bar, .grow, .shrink] : List (Nat → Instr)),
    (f 16).wellFormed = false ∧ (f 15).wellFormed = true := by decide
theorem test_fields_128_128_2 : ∀ f ∈ ([
      .fcvtF32F16] : List (Nat → Nat → Nat → Instr)),
    (f 128 1 1).wellFormed = false ∧ (f 1 128 1).wellFormed = false ∧ (f 1 1 2).wellFormed = false ∧ (f 127 127 1).wellFormed = true := by decide
theorem test_fields_128_128_8 : ∀ f ∈ ([
      .jextF32, .jextF64, .jinsF32, .jinsF64] : List (Nat → Nat → Nat → Instr)),
    (f 128 1 1).wellFormed = false ∧ (f 1 128 1).wellFormed = false ∧ (f 1 1 8).wellFormed = false ∧ (f 127 127 7).wellFormed = true := by decide
theorem test_fields_8 : ∀ f ∈ ([
      .setjord, .cbrel] : List (Nat → Instr)),
    (f 8).wellFormed = false ∧ (f 7).wellFormed = true := by decide
theorem test_fields_32 : ∀ f ∈ ([
      .jsrr, .jsrc, .unbind, .lock, .unlock, .qfence, .spcnt, .spcntRoltik2, .mzero, .predone] : List (Nat → Instr)),
    (f 32).wellFormed = false ∧ (f 31).wellFormed = true := by decide
theorem test_fields_128_32_128_4_4_4 : ∀ f ∈ ([
      .ld] : List (Nat → Nat → Nat → Nat → Nat → Nat → Instr)),
    (f 128 1 1 1 1 1).wellFormed = false ∧ (f 1 32 1 1 1 1).wellFormed = false ∧ (f 1 1 128 1 1 1).wellFormed = false ∧ (f 1 1 1 4 1 1).wellFormed = false ∧ (f 1 1 1 1 4 1).wellFormed = false ∧ (f 1 1 1 1 1 4).wellFormed = false ∧ (f 127 31 127 3 3 3).wellFormed = true := by decide
theorem test_fields_128_32_128_4_3_4 : ∀ f ∈ ([
      .st, .ldb] : List (Nat → Nat → Nat → Nat → Nat → Nat → Instr)),
    (f 128 1 1 1 1 1).wellFormed = false ∧ (f 1 32 1 1 1 1).wellFormed = false ∧ (f 1 1 128 1 1 1).wellFormed = false ∧ (f 1 1 1 4 1 1).wellFormed = false ∧ (f 1 1 1 1 3 1).wellFormed = false ∧ (f 1 1 1 1 1 4).wellFormed = false ∧ (f 127 31 127 3 2 3).wellFormed = true := by decide
theorem test_fields_32_32_128_4_4 : ∀ f ∈ ([
      .stX, .ldbX] : List (Nat → Nat → Nat → Nat → Nat → Instr)),
    (f 32 1 1 1 1).wellFormed = false ∧ (f 1 32 1 1 1).wellFormed = false ∧ (f 1 1 128 1 1).wellFormed = false ∧ (f 1 1 1 4 1).wellFormed = false ∧ (f 1 1 1 1 4).wellFormed = false ∧ (f 31 31 127 3 3).wellFormed = true := by decide
theorem test_fields_128_32_128_4_16 : ∀ f ∈ ([
      .ldr] : List (Nat → Nat → Nat → Nat → Nat → Instr)),
    (f 128 1 1 1 1).wellFormed = false ∧ (f 1 32 1 1 1).wellFormed = false ∧ (f 1 1 128 1 1).wellFormed = false ∧ (f 1 1 1 4 1).wellFormed = false ∧ (f 1 1 1 1 16).wellFormed = false ∧ (f 127 31 127 3 15).wellFormed = true := by decide
theorem test_fields_128_32_128_2_11 : ∀ f ∈ ([
      .atom] : List (Nat → Nat → Nat → Nat → Nat → Instr)),
    (f 128 1 1 1 1).wellFormed = false ∧ (f 1 32 1 1 1).wellFormed = false ∧ (f 1 1 128 1 1).wellFormed = false ∧ (f 1 1 1 2 1).wellFormed = false ∧ (f 1 1 1 1 11).wellFormed = false ∧ (f 127 31 127 1 10).wellFormed = true := by decide
theorem test_fields_128_32_128_11 : ∀ f ∈ ([
      .spatom] : List (Nat → Nat → Nat → Nat → Instr)),
    (f 128 1 1 1).wellFormed = false ∧ (f 1 32 1 1).wellFormed = false ∧ (f 1 1 128 1).wellFormed = false ∧ (f 1 1 1 11).wellFormed = false ∧ (f 127 31 127 10).wellFormed = true := by decide
theorem test_fields_128_32_128_16 : ∀ f ∈ ([
      .slock] : List (Nat → Nat → Nat → Nat → Instr)),
    (f 128 1 1 1).wellFormed = false ∧ (f 1 32 1 1).wellFormed = false ∧ (f 1 1 128 1).wellFormed = false ∧ (f 1 1 1 16).wellFormed = false ∧ (f 127 31 127 15).wellFormed = true := by decide
theorem test_fields_128_32_128 : ∀ f ∈ ([
      .sunlk] : List (Nat → Nat → Nat → Instr)),
    (f 128 1 1).wellFormed = false ∧ (f 1 32 1).wellFormed = false ∧ (f 1 1 128).wellFormed = false ∧ (f 127 31 127).wellFormed = true := by decide
theorem test_fields_32_128_4_4_4 : ∀ f ∈ ([
      .pref] : List (Nat → Nat → Nat → Nat → Nat → Instr)),
    (f 32 1 1 1 1).wellFormed = false ∧ (f 1 128 1 1 1).wellFormed = false ∧ (f 1 1 4 1 1).wellFormed = false ∧ (f 1 1 1 4 1).wellFormed = false ∧ (f 1 1 1 1 4).wellFormed = false ∧ (f 31 127 3 3 3).wellFormed = true := by decide
theorem test_fields_128_64_16_32_4_2 : ∀ f ∈ ([
      .cpy, .cpyd] : List (Nat → Nat → Nat → Nat → Nat → Nat → Instr)),
    (f 128 1 1 1 1 1).wellFormed = false ∧ (f 1 64 1 1 1 1).wellFormed = false ∧ (f 1 1 16 1 1 1).wellFormed = false ∧ (f 1 1 1 32 1 1).wellFormed = false ∧ (f 1 1 1 1 4 1).wellFormed = false ∧ (f 1 1 1 1 1 2).wellFormed = false ∧ (f 127 63 15 31 3 1).wellFormed = true := by decide
theorem test_fields_64 : ∀ f ∈ ([
      .hwait, .hfree, .pagereqSettle] : List (Nat → Instr)),
    (f 64).wellFormed = false ∧ (f 63).wellFormed = true := by decide
theorem test_fields_32_64 : ∀ f ∈ ([
      .hstat] : List (Nat → Nat → Instr)),
    (f 32 1).wellFormed = false ∧ (f 1 64).wellFormed = false ∧ (f 31 63).wellFormed = true := by decide
theorem test_fields_64_32 : ∀ f ∈ ([
      .pagereqFill, .ctxfree, .iaddC16, .isubC16, .imulC16, .andC16, .orC16, .xorC16, .shlC16, .shrC16, .sarC16,
      .movC16, .iminC16, .imaxC16, .faddF32C16, .fsubF32C16, .fmulF32C16, .fmaxF32C16, .notC16Roltik1] : List (Nat → Nat → Instr)),
    (f 64 1).wellFormed = false ∧ (f 1 32).wellFormed = false ∧ (f 63 31).wellFormed = true := by decide
theorem test_fields_8_32 : ∀ f ∈ ([
      .cbset] : List (Nat → Nat → Instr)),
    (f 8 1).wellFormed = false ∧ (f 1 32).wellFormed = false ∧ (f 7 31).wellFormed = true := by decide
theorem test_fields_32_8 : ∀ f ∈ ([
      .cbwait] : List (Nat → Nat → Instr)),
    (f 32 1).wellFormed = false ∧ (f 1 8).wellFormed = false ∧ (f 31 7).wellFormed = true := by decide
theorem test_fields_32_32_32_b : ∀ f ∈ ([
      .mmaPtBf16, .mmaPtDpw8, .mmaPtF32, .mmaMinpF32, .mmaMaxpF32, .mmaMaxtF32] : List (Nat → Nat → Nat → Bool → Instr)),
    (f 32 1 1 false).wellFormed = false ∧ (f 1 32 1 false).wellFormed = false ∧ (f 1 1 32 false).wellFormed = false ∧ (f 31 31 31 true).wellFormed = true := by decide
theorem test_fields_128_32 : ∀ f ∈ ([
      .mgather] : List (Nat → Nat → Instr)),
    (f 128 1).wellFormed = false ∧ (f 1 32).wellFormed = false ∧ (f 127 31).wellFormed = true := by decide
theorem test_fields_128_32_16 : ∀ f ∈ ([
      .rqalloc] : List (Nat → Nat → Nat → Instr)),
    (f 128 1 1).wellFormed = false ∧ (f 1 32 1).wellFormed = false ∧ (f 1 1 16).wellFormed = false ∧ (f 127 31 15).wellFormed = true := by decide
theorem test_fields_32_32_16 : ∀ f ∈ ([
      .rqinfo, .ctxstat] : List (Nat → Nat → Nat → Instr)),
    (f 32 1 1).wellFormed = false ∧ (f 1 32 1).wellFormed = false ∧ (f 1 1 16).wellFormed = false ∧ (f 31 31 15).wellFormed = true := by decide
theorem test_fields_64_32_32 : ∀ f ∈ ([
      .ctxtakeCores, .ctxtakeMem, .ctxtakeQmem, .ctxtakeBind, .ctxtakeEnergyIpeak, .ctxtakeBandwidth] : List (Nat → Nat → Nat → Instr)),
    (f 64 1 1).wellFormed = false ∧ (f 1 32 1).wellFormed = false ∧ (f 1 1 32).wellFormed = false ∧ (f 63 31 31).wellFormed = true := by decide
theorem test_fields_262144 : ∀ f ∈ ([
      .trap] : List (Nat → Instr)),
    (f 262144).wellFormed = false ∧ (f 262143).wellFormed = true := by decide
theorem test_iadd_c16_zero : (Instr.iaddC16 0 0).wellFormed = false ∧ (Instr.iaddC16 0 1).wellFormed = true := by decide
theorem test_special_numbers : (∀ n ∈ [0x04, 0x05, 0x07, 0x0D, 0x0F, 0x13, 0x17, 0x1F, 0x30], (Instr.csrr 1 n).wellFormed = false ∧
    (Instr.csrw n 1).wellFormed = false) ∧ (Instr.csrr 32 0).wellFormed = false ∧ (Instr.csrw 0 32).wellFormed = false := by decide
theorem test_xmod_fields : ∀ x ∈ ([{ vc := 128 }, { pm := 8 }, { inv := true }, { pk := 0, pp := 1 }, { pk := 1 }, { pk := 1, pp := 32 },
    { pk := 2 }, { pk := 2, pp := 8 }, { pk := 3, pp := 1 }, { pk := 4, pp := 32 }, { pk := 5 }] : List Xmod),
    (Instr.xmod x).wellFormed = false := by decide

/-! ### Words of every row of the opcode table, written out from its fixed bits and fields -/

theorem test_decode_words_1 : ∀ q ∈ ([
      (0x0ACCEC83, .iadd 89 51 86), (0x1ACCEC83, .isub 89 51 86), (0x2ACCEC83, .imul 89 51 86),
      (0x3ACCEC83, .imulhI32 89 51 86), (0x4ACCEC83, .imulhN32 89 51 86), (0x5ACCEC83, .imin 89 51 86),
      (0x6ACCEC83, .imax 89 51 86), (0x7ACCEC83, .and 89 51 86), (0x8ACCEC83, .or 89 51 86), (0x9ACCEC83, .xor 89 51 86),
      (0xAACCEC83, .andn 89 51 86), (0xBACCEC83, .shl 89 51 86), (0xCACCEC83, .shr 89 51 86), (0xDACCEC83, .sar 89 51 86),
      (0xEACCEC83, .rot 89 51 86), (0xFACCEC83, .imad 89 51 86), (0x00159985, .iabs 51 86), (0x10159985, .ineg 51 86),
      (0x20159985, .not 51 86), (0x30159985, .clz 51 86), (0x40159985, .popc 51 86), (0x50159985, .brev 51 86),
      (0x60159985, .mov 51 86), (0x7ACCEC85, .sel 89 51 86), (0x8ACCEC85, .bfxI32 89 51 86), (0x9ACCEC85, .bfxN32 89 51 86)] : List (Nat × Instr)),
    decode 3 (leBytes 4 q.1) = some (q.2.row, 4) := by decide +kernel
theorem test_decode_words_2 : ∀ q ∈ ([
      (0xAACCEC85, .bfi 89 51 86), (0xB0159985, .icvtI8 51 86), (0xC0159985, .icvtI16 51 86), (0xD0159985, .icvtI64 51 86),
      (0xE0159985, .icvtI32 51 86), (0x0ACCC487, .icmpEq 9 51 86), (0x1ACCC487, .icmpLtI32 9 51 86),
      (0x2ACCC487, .icmpLtN32 9 51 86), (0x3ACCEC87, .iaddI64 89 51 86), (0x4ACCEC87, .isubI64 89 51 86),
      (0x5ACCEC87, .imulI64 89 51 86), (0x8ACCEC89, .iaddImm 89 51 1110), (0x02CCEC8B, .shlImm 89 51 22),
      (0x8015998D, .movi 51 131158), (0x2015998F, .lih 51 32854), (0x002D3C91, .sadd 25 19 22), (0x102D3C91, .ssub 25 19 22),
      (0x202D3C91, .smul 25 19 22), (0x302D3C91, .sand 25 19 22), (0x402D3C91, .sor 25 19 22), (0x502D3C91, .sxor 25 19 22),
      (0x602D3C91, .sshl 25 19 22), (0x702D3C91, .sshr 25 19 22), (0x80016991, .smov 19 22), (0x902D3C91, .scmpEq 25 19 22),
      (0xA02D3C91, .scmpLtI64 25 19 22)] : List (Nat × Instr)),
    decode 3 (leBytes 4 q.1) = some (q.2.row, 4) := by decide +kernel
theorem test_decode_words_3 : ∀ q ∈ ([
      (0xB02D3C91, .scmpLtN64 25 19 22), (0x80AD3C93, .saddImm 25 19 16470), (0x80AD3C95, .sandImm 25 19 16470),
      (0x002D3C97, .sshlImm 25 19 22), (0x80056999, .smovi 19 524374), (0x8005699B, .slih 19 524374), (0x00002B1D, .vlid 86),
      (0x1ACCEC9D, .lperm 89 51 86), (0x2001819D, .vote 3 6), (0x3001899D, .mpop 19 6), (0x4015999D, .reduceAddI32 51 86),
      (0x5015999D, .reduceMaxI32 51 86), (0x6015999D, .reduceAddF32 51 86), (0x7015999D, .reduceMaxF32 51 86),
      (0x8015999D, .reduceAddF64 51 86), (0x00C0C49F, .mand 9 3 6), (0x10C0C49F, .mor 9 3 6), (0x20C0C49F, .mxor 9 3 6),
      (0x3001819F, .mnot 3 6), (0x4001819F, .mmov 3 6), (0x8002B1A1, .br 3 1048662), (0x8002B1A3, .call 3 1048662),
      (0x8002B1A5, .brsZ 3 1048662), (0x8002B1A7, .brsNz 3 1048662), (0x00158029, .jmp 86), (0x10158029, .ret 86)] : List (Nat × Instr)),
    decode 3 (leBytes 4 q.1) = some (q.2.row, 4) := by decide +kernel
theorem test_decode_words_4 : ∀ q ∈ ([
      (0x20000029, .exit), (0x30000029, .yield), (0x40000029, .sleep), (0x50000329, .wake 6), (0x600181A9, .elect 3 6),
      (0x70000029, .nop), (0x80000329, .join 6), (0x90000329, .leave 6), (0xA0000329, .bar 6), (0xB0000029, .lbar),
      (0xEACCECA9, .nopH1 89 51 86), (0xFACCECA9, .nopH2 89 51 86), (0x0ACCECB1, .faddF32 89 51 86),
      (0x1ACCECB1, .fsubF32 89 51 86), (0x2ACCECB1, .fmulF32 89 51 86), (0x3ACCECB1, .ffmaF32 89 51 86),
      (0x4ACCECB1, .fdivF32 89 51 86), (0x5ACCECB1, .fminF32 89 51 86), (0x6ACCECB1, .fmaxF32 89 51 86),
      (0x701599B1, .frcpF32 51 86), (0x801599B1, .fsqrtF32 51 86), (0x901599B1, .frsqF32 51 86),
      (0xA01599B1, .fabsF32 51 86), (0xB01599B1, .fnegF32 51 86), (0xC01599B1, .fclassF32 51 86),
      (0xD01599B1, .froundF32 51 86)] : List (Nat × Instr)),
    decode 3 (leBytes 4 q.1) = some (q.2.row, 4) := by decide +kernel
theorem test_decode_words_5 : ∀ q ∈ ([
      (0xEACCECB1, .ffmaF32Rn 89 51 86), (0xFACCECB1, .ffmaF32Rz 89 51 86), (0x0ACCECB3, .faddF64 89 51 86),
      (0x1ACCECB3, .fsubF64 89 51 86), (0x2ACCECB3, .fmulF64 89 51 86), (0x3ACCECB3, .ffmaF64 89 51 86),
      (0x4ACCECB3, .fdivF64 89 51 86), (0x5ACCECB3, .fminF64 89 51 86), (0x6ACCECB3, .fmaxF64 89 51 86),
      (0x801599B3, .fsqrtF64 51 86), (0xA01599B3, .fabsF64 51 86), (0xB01599B3, .fnegF64 51 86),
      (0x001599B5, .fexpF32 51 86), (0x101599B5, .flogF32 51 86), (0x201599B5, .fsinF32 51 86), (0x301599B5, .fcosF32 51 86),
      (0x401599B5, .ftanhF32 51 86), (0x8ACCC4B5, .fcmpEqF32 9 51 86), (0x9ACCC4B5, .fcmpLtF32 9 51 86),
      (0xAACCC4B5, .fcmpLeF32 9 51 86), (0xCACCC4B5, .fcmpEqF64 9 51 86), (0xDACCC4B5, .fcmpLtF64 9 51 86),
      (0xEACCC4B5, .fcmpLeF64 9 51 86), (0x001599B7, .fcvtF64F32 51 86), (0x101599B7, .fcvtF32F64 51 86),
      (0x201599B7, .fcvtF32I32 51 86)] : List (Nat × Instr)),
    decode 3 (leBytes 4 q.1) = some (q.2.row, 4) := by decide +kernel
theorem test_decode_words_6 : ∀ q ∈ ([
      (0x301599B7, .fcvtF32N32 51 86), (0x401599B7, .fcvtI32F32 51 86), (0x501599B7, .fcvtN32F32 51 86),
      (0x6ACCECB7, .fcvtBf16F32 89 51 86), (0x7ACCECB7, .fcvtF16F32 89 51 86), (0x800CECB7, .fcvtF32F16 89 51 0),
      (0x0ACCECB9, .hadd2Bf16 89 51 86), (0x1ACCECB9, .hmul2Bf16 89 51 86), (0x2ACCECB9, .hfma2Bf16 89 51 86),
      (0x4ACCECB9, .hadd2F16 89 51 86), (0x5ACCECB9, .hmul2F16 89 51 86), (0x6ACCECB9, .hfma2F16 89 51 86),
      (0x001599BB, .jseedF32 51 86), (0x101599BB, .jseedF64 51 86), (0x20CCECBB, .jextF32 89 51 6),
      (0x30CCECBB, .jextF64 89 51 6), (0x40CCECBB, .jinsF32 89 51 6), (0x50CCECBB, .jinsF64 89 51 6),
      (0x601599BB, .jdiffF32 51 86), (0x701599BB, .jdiffF64 51 86), (0x801599BB, .jintegF32 51 86),
      (0x901599BB, .jintegF64 51 86), (0xA01599BB, .jfactF32 51 86), (0xB01599BB, .jfactF64 51 86), (0x0000033D, .setjord 6),
      (0x10000B3D, .jsrr 22)] : List (Nat × Instr)),
    decode 3 (leBytes 4 q.1) = some (q.2.row, 4) := by decide +kernel
theorem test_decode_words_7 : ∀ q ∈ ([
      (0x2001603D, .jsrc 22), (0xB428C0C1, .ld 1 3 5 1 3 2), (0xA428C0C3, .st 1 3 5 1 2 2), (0xBC0642C3, .stX 5 25 0 3 2),
      (0xA40141C5, .ldb 3 5 0 1 2 2), (0xBC0642C5, .ldbX 5 25 0 3 2), (0x6EC941C7, .ldr 3 5 89 3 6),
      (0x6EC941C9, .atom 3 5 89 1 6), (0x699E42CB, .spatom 5 25 51 6), (0x699E42CD, .slock 5 25 51 6),
      (0x0AB4ECCF, .sunlk 89 19 86), (0xB428C051, .pref 3 5 1 3 2), (0x002D3053, .bind 19 22), (0x10016053, .unbind 22),
      (0x202D3053, .acq 19 22), (0x302D3053, .rel 19 22), (0x40016053, .lock 22), (0x50016053, .unlock 22),
      (0x602D3053, .signal 19 22), (0x702D3053, .waitge 19 22), (0x80000053, .fenceW), (0x800000D3, .fenceG),
      (0x80000153, .fenceC), (0x800001D3, .fenceD), (0x80000253, .fenceS), (0x90000053, .ifence)] : List (Nat × Instr)),
    decode 3 (leBytes 4 q.1) = some (q.2.row, 4) := by decide +kernel
theorem test_decode_words_8 : ∀ q ∈ ([
      (0xA0016053, .qfence 22), (0x00002B55, .rdrop 86), (0x10002B55, .rmat 86), (0x20002B55, .rdemote 86),
      (0x30018055, .grow 6), (0x40018055, .shrink 6), (0x801599D7, .rmark 51 131158), (0x7950C0E1, .cpy 1 3 5 25 3 0),
      (0x7950C0E3, .cpyd 1 3 5 25 3 0), (0x00000B65, .hwait 22), (0x100589E5, .hstat 19 22), (0x20000B65, .hfree 22),
      (0x300599E5, .pagereqFill 51 22), (0x40000B65, .pagereqSettle 22), (0x500581E5, .cbset 3 22),
      (0x600189E5, .cbwait 19 6), (0x70000365, .cbrel 6), (0x00158067, .spush 86), (0x10002B67, .spop 86),
      (0x20000B67, .spcnt 22), (0x02C4E2E9, .mmaPtBf16 5 19 22 true), (0x12C4E2E9, .mmaPtDpw8 5 19 22 true),
      (0x22C4E2E9, .mmaPtF32 5 19 22 true), (0x32C4E2E9, .mmaMinpF32 5 19 22 true), (0x42C4E2E9, .mmaMaxpF32 5 19 22 true),
      (0x52C4E2E9, .mmaMaxtF32 5 19 22 true)] : List (Nat × Instr)),
    decode 3 (leBytes 4 q.1) = some (q.2.row, 4) := by decide +kernel
theorem test_decode_words_9 : ∀ q ∈ ([
      (0x62C4CCE9, .mmaOrandBits 25 19 22), (0x02CCC06B, .mgather 51 22), (0x1005806B, .mzero 22),
      (0x200589EB, .mflags 19 22), (0x300589EB, .mflagsClr 19 22), (0x00C4ECED, .rqalloc 89 19 6),
      (0x1015806D, .rqcommit 86), (0x2015806D, .rqjoin 86), (0x30C4CCED, .rqinfo 25 19 6), (0x000589EF, .ctxnew 19 22),
      (0x12C4CCEF, .ctxgrantCores 25 19 22), (0x12C4CCEF, .ctxgrantMem 25 19 22), (0x12C4CCEF, .ctxgrantQmem 25 19 22),
      (0x12C4CCEF, .ctxgrantBind 25 19 22), (0x12C4CCEF, .ctxgrantEnergyIpeak 25 19 22),
      (0x12C4CCEF, .ctxgrantBandwidth 25 19 22), (0x12C4CCEF, .ctxgrantRoot 25 19 22),
      (0x12C4CCEF, .ctxgrantResume 25 19 22), (0x22C4CCEF, .ctxtakeCores 25 19 22), (0x22C4CCEF, .ctxtakeMem 25 19 22),
      (0x22C4CCEF, .ctxtakeQmem 25 19 22), (0x22C4CCEF, .ctxtakeBind 25 19 22), (0x22C4CCEF, .ctxtakeEnergyIpeak 25 19 22),
      (0x22C4CCEF, .ctxtakeBandwidth 25 19 22), (0x30C4CCEF, .ctxstat 25 19 6), (0x400599EF, .ctxfree 51 22)] : List (Nat × Instr)),
    decode 3 (leBytes 4 q.1) = some (q.2.row, 4) := by decide +kernel
theorem test_decode_words_10 : ∀ q ∈ ([
      (0x00000071, .tret), (0x10058071, .predone 22), (0x200AC9F1, .csrr 19 43), (0x20012B71, .csrrDx 86),
      (0x300581F1, .csrw 3 22), (0x30158271, .csrwDx 86), (0x400189F1, .pmcr 19 6), (0x500589F1, .pwrreqGate 19 22),
      (0x500589F1, .pwrreqWake 19 22), (0x500589F1, .pwrreqPoint 19 22), (0x500589F1, .pwrreqMode 19 22),
      (0x500589F1, .pwrreqHold 19 22), (0x500589F1, .pwrreqQuery 19 22), (0x80158073, .trap 131158),
      (0xAC38C9FD, .xmod { vc := 86, dem := true, eb := true, ea := true, pp := 3, pk := 1, inv := false, pm := 3 })] : List (Nat × Instr)),
    decode 3 (leBytes 4 q.1) = some (q.2.row, 4) := by decide +kernel
theorem test_decode_roltik2 : ∀ q ∈ ([
      (0x0158002B, .spushRoltik2 86), (0x0002B0AB, .spopRoltik2 86), (0x0000B12B, .spcntRoltik2 22)] : List (Nat × Instr)),
    decode 2 (leBytes 4 q.1) = some (q.2.row, 4) := by decide +kernel
theorem test_decode_compressed : ∀ q ∈ ([
      (0xB660, .iaddC16 51 22), (0xB662, .isubC16 51 22), (0xB664, .imulC16 51 22), (0xB666, .andC16 51 22),
      (0xB668, .orC16 51 22), (0xB66A, .xorC16 51 22), (0xB66C, .shlC16 51 22), (0xB66E, .shrC16 51 22),
      (0xB670, .sarC16 51 22), (0xB672, .movC16 51 22), (0xB674, .iminC16 51 22), (0xB676, .imaxC16 51 22),
      (0xB678, .faddF32C16 51 22), (0xB67A, .fsubF32C16 51 22), (0xB67C, .fmulF32C16 51 22), (0xB67E, .fmaxF32C16 51 22)] : List (Nat × Instr)),
    decode 3 (leBytes 2 q.1) = some (q.2.row, 2) := by decide +kernel
theorem test_decode_roltik1 : ∀ q ∈ ([
      (0xB67E, .notC16Roltik1 51 22)] : List (Nat × Instr)),
    decode 1 (leBytes 2 q.1) = some (q.2.row, 2) := by decide +kernel
theorem test_decode_examples : (∀ q ∈ ([
      (0x2AF3428D, .movi 5 0xABCD), (0x048D028F, .lih 5 0x1234), (0x000FF219, .smovi 4 0xFF), (0xFFFFC121, .br 2 (2 ^ 21 - 8)),
      (0x28110441, .ld 8 4 2 2 2 0), (0x58110447, .ldr 8 4 2 2 5), (0x4810C34D, .slock 6 3 2 4), (0x7C0103C5, .ldbX 7 4 0 3 1),
      (0x300101E5, .pagereqFill 3 4), (0x00100657, .rmark 12 0x40), (0x00C16269, .mmaPtBf16 4 5 6 true), (0x302102ED, .rqinfo 5 4 1),
      (0x20C1416F, .ctxtakeCores 2 5 6), (0x30018171, .csrw 2 6), (0x4000C271, .pmcr 4 3), (0x00014073, .trap 5)] : List (Nat × Instr)),
    decode 3 (leBytes 4 q.1) = some (q.2, 4)) ∧ decode 2 (leBytes 4 0x203041B1) = some (.ffmaF32 8 12 16, 4) := by decide +kernel
theorem test_decode_refuses : (∀ w ∈ [0], decode 3 (leBytes 2 w) = none) ∧
    (∀ w ∈ [0x1FC0007D, 0x10010071 + 2 ^ 7, 0x000000F1], decode 3 (leBytes 4 w) = none) := by decide +kernel

/-! ### Single effects, with the values of the specification's examples and tables -/

/-- The lane `l` of a register after one instruction. -/
def after (i : Instr) (s : State) (r l : Nat) : Option Word :=
  match exec i s with
  | .next t => some (lane (t.w.vreg r) l)
  | _ => none
/-- Two registers with the same word in every lane. -/
def sTwo (a b : Word) : State := dev { wh with v := ⟨[(2, lanesOf fun _ => a), (3, lanesOf fun _ => b)]⟩ } g0
/-- R284: sums keep 32 bits; a shift count is the low 8 bits of the operand, and 32 or more leaves no bit or the sign. -/
theorem test_add_wraps : after (.iadd 1 2 3) (sTwo 0xFFFFFFFF 2) 1 31 = some 1 := by decide +kernel
theorem test_shift_counts : after (.shl 1 2 3) (sTwo 0x80000001 32) 1 0 = some 0 ∧ after (.sar 1 2 3) (sTwo 0x80000000 0xFF) 1 0 = some 0xFFFFFFFF ∧
    after (.shr 1 2 3) (sTwo 0x80000000 0x11F) 1 0 = some 1 ∧ after (.rot 1 2 3) (sTwo 0x80000001 33) 1 0 = some 3 := by decide +kernel
theorem test_float : after (.faddF32 1 2 3) (sTwo 0x3F800000 0x40000000) 1 7 = some 0x40400000 ∧
    after (.fdivF32 1 2 3) (sTwo 0x3F800000 0) 1 7 = some 0x7F800000 ∧ after (.fmaxF32 1 2 3) (sTwo 0x80000000 0) 1 7 = some 0 := by
  decide +kernel
/-- R219's example: of 1,966,080 bytes contexts with shares 96, 64 and 0 receive what the table says. -/
theorem test_bandwidth_example : serveWithin 1966080 1966080 [(0, 96, 2000000), (1, 64, 1000000), (2, 0, 1000000)] =
    [(0, 2000000 - 983040, 983040), (1, 1000000 - 737280, 737280), (2, 1000000 - 245760, 245760)] := by decide +kernel
/-- A word placed at the fetch of the next step runs in that step, from reset. -/
theorem test_first_step : (match step (State.reset.withFetchWord 32 0x2AF3428D) with
    | .next t => decide (lane (t.w.vreg 5) 0 = 0xABCD) && decide ((lane t.w.dx 0) = 4)
    | _ => false) = true := by decide +kernel

end Sys2Proof.Tests
end

section
/-!
Rounding to a whole number and into a format of IEEE 754 (R8, R67 to R72). The exact value may be a real number `x` × 2^`e`
for which the whole number `m` stands, so that quotients and roots are covered as well as finite binary values.
-/

namespace Sys2Proof.Machine

/-! ### Rounding to a whole number -/

/-- RM puts the whole number `n` in place of a magnitude `a` of a value with the sign `neg` (R8, R71). -/
def RoundsTo (rm : Nat) (neg : Bool) (a : ℝ) (n : Nat) : Prop :=
  if Claims.away rm neg = true then a ≤ n ∧ (n : ℝ) < a + 1
  else if rm = 0 then |(n : ℝ) - a| ≤ 1 / 2 ∧ (|(n : ℝ) - a| = 1 / 2 → n % 2 = 0)
  else (n : ℝ) ≤ a ∧ a < n + 1

/-- RM rounds a magnitude `a` to the even number `c` or beyond it. -/
def Reaches (rm : Nat) (neg : Bool) (a : ℝ) (c : Nat) : Prop :=
  if Claims.away rm neg = true then (c : ℝ) - 1 < a else if rm = 0 then (c : ℝ) - 1 / 2 ≤ a else (c : ℝ) ≤ a

theorem away_zero (neg : Bool) : Claims.away 0 neg = false := rfl
theorem away_one (neg : Bool) : Claims.away 1 neg = false := rfl
theorem away_two (neg : Bool) : Claims.away 2 neg = neg := by cases neg <;> rfl
theorem away_three (neg : Bool) : Claims.away 3 neg = !neg := by cases neg <;> rfl

/-- The rules of the modes, once for every mode: away from zero, to nearest, toward zero. -/
theorem rounding_mode_cases {P : Prop} {rm : Nat} {neg : Bool}
    (haway : Claims.away rm neg = true → rm ≠ 0 → P) (hnear : Claims.away rm neg = false → rm = 0 → P)
    (htoward : Claims.away rm neg = false → rm ≠ 0 → P) : P := by
  rcases Bool.eq_false_or_eq_true (Claims.away rm neg) with h | h
  · refine haway h ?_
    rintro rfl
    simp [away_zero] at h
  · exact if h0 : rm = 0 then hnear h h0 else htoward h h0

theorem roundsTo_of_away {rm : Nat} {neg : Bool} {a : ℝ} {n : Nat} (h : Claims.away rm neg = true) :
    RoundsTo rm neg a n ↔ a ≤ n ∧ (n : ℝ) < a + 1 := by simp [RoundsTo, h]
theorem roundsTo_nearest {neg : Bool} {a : ℝ} {n : Nat} :
    RoundsTo 0 neg a n ↔ |(n : ℝ) - a| ≤ 1 / 2 ∧ (|(n : ℝ) - a| = 1 / 2 → n % 2 = 0) := by
  simp [RoundsTo, away_zero]
theorem roundsTo_of_toward {rm : Nat} {neg : Bool} {a : ℝ} {n : Nat} (h : Claims.away rm neg = false) (h0 : rm ≠ 0) :
    RoundsTo rm neg a n ↔ (n : ℝ) ≤ a ∧ a < n + 1 := by simp [RoundsTo, h, h0]
theorem reaches_of_away {rm : Nat} {neg : Bool} {a : ℝ} {c : Nat} (h : Claims.away rm neg = true) :
    Reaches rm neg a c ↔ (c : ℝ) - 1 < a := by simp [Reaches, h]
theorem reaches_nearest {neg : Bool} {a : ℝ} {c : Nat} : Reaches 0 neg a c ↔ (c : ℝ) - 1 / 2 ≤ a := by
  simp [Reaches, away_zero]
theorem reaches_of_toward {rm : Nat} {neg : Bool} {a : ℝ} {c : Nat} (h : Claims.away rm neg = false) (h0 : rm ≠ 0) :
    Reaches rm neg a c ↔ (c : ℝ) ≤ a := by simp [Reaches, h, h0]

theorem reaches_of_le {rm : Nat} {neg : Bool} {a : ℝ} {c : Nat} (h : (c : ℝ) ≤ a) : Reaches rm neg a c := by
  unfold Reaches
  split_ifs <;> linarith

theorem not_reaches_of_le {rm : Nat} {neg : Bool} {a : ℝ} {c : Nat} (h : a ≤ c - 1) : ¬Reaches rm neg a c := by
  unfold Reaches
  split_ifs <;> linarith

theorem roundsTo_self (rm : Nat) (neg : Bool) (n : Nat) : RoundsTo rm neg n n := by
  unfold RoundsTo
  split_ifs <;> norm_num

/-- A rounded magnitude is less than one unit off. -/
theorem RoundsTo.abs_sub_lt {rm : Nat} {neg : Bool} {a : ℝ} {n : Nat} (h : RoundsTo rm neg a n) : |(n : ℝ) - a| < 1 := by
  unfold RoundsTo at h
  rw [abs_lt]
  split_ifs at h with h1 h2
  · constructor <;> linarith [h.1, h.2]
  · have := abs_le.mp h.1
    constructor <;> linarith [this.1, this.2]
  · constructor <;> linarith [h.1, h.2]

/-- Rounding does not cross a whole number from above. -/
theorem RoundsTo.le_of_le {rm : Nat} {neg : Bool} {a : ℝ} {n c : Nat} (h : RoundsTo rm neg a n) (hc : (c : ℝ) ≤ a) : c ≤ n := by
  have hlt : (c : ℝ) < n + 1 := by linarith [(abs_lt.mp h.abs_sub_lt).1]
  exact_mod_cast Nat.lt_succ_iff.mp (by exact_mod_cast hlt)

/-- Rounding does not cross a whole number from below. -/
theorem RoundsTo.le_of_ge {rm : Nat} {neg : Bool} {a : ℝ} {n c : Nat} (h : RoundsTo rm neg a n) (hc : a ≤ c) : n ≤ c := by
  have hlt : (n : ℝ) < c + 1 := by linarith [(abs_lt.mp h.abs_sub_lt).2]
  exact_mod_cast Nat.lt_succ_iff.mp (by exact_mod_cast hlt)

/-- An even number is reached exactly from its threshold on: ties go to it. -/
theorem RoundsTo.le_iff_reaches {rm : Nat} {neg : Bool} {a : ℝ} {n c : Nat} (h : RoundsTo rm neg a n) (hc : c % 2 = 0) :
    c ≤ n ↔ Reaches rm neg a c := by
  have hle : c ≤ n ↔ (c : ℝ) ≤ n := by norm_cast
  have hlt : n < c ↔ (n : ℝ) + 1 ≤ c := by norm_cast
  refine rounding_mode_cases (rm := rm) (neg := neg) ?_ ?_ ?_
  · intro ha _
    rw [roundsTo_of_away ha] at h
    rw [reaches_of_away ha]
    refine ⟨fun hcn => ?_, fun hca => not_lt.mp fun hn => ?_⟩
    · linarith [hle.mp hcn, h.2]
    · linarith [hlt.mp hn, h.1]
  · rintro - rfl
    rw [roundsTo_nearest, abs_le] at h
    rw [reaches_nearest]
    obtain ⟨⟨hlo, hhi⟩, htie⟩ := h
    refine ⟨fun hcn => ?_, fun hca => not_lt.mp fun hn => ?_⟩
    · linarith [hle.mp hcn]
    · have hna : (n : ℝ) - a = -(1 / 2) := by linarith [hlt.mp hn]
      have hcn : (c : ℝ) = n + 1 := by linarith [hlt.mp hn]
      have hcn : c = n + 1 := by exact_mod_cast hcn
      have := htie (by rw [hna, abs_neg, abs_of_pos (by norm_num)])
      omega
  · intro ha h0
    rw [roundsTo_of_toward ha h0] at h
    rw [reaches_of_toward ha h0]
    refine ⟨fun hcn => ?_, fun hca => not_lt.mp fun hn => ?_⟩
    · linarith [hle.mp hcn, h.1]
    · linarith [hlt.mp hn, h.2]

/-- A number rounded to an even one is, in units of two, rounded to its half. -/
theorem RoundsTo.half {rm : Nat} {neg : Bool} {a : ℝ} {n : Nat} (h : RoundsTo rm neg a (2 * n)) :
    RoundsTo rm neg (a / 2) n := by
  unfold RoundsTo at h ⊢
  push_cast at h
  split_ifs at h ⊢ with h1 h2
  · constructor <;> linarith [h.1, h.2]
  · have hhalf : |(n : ℝ) - a / 2| = |2 * n - a| / 2 := by
      rw [show (n : ℝ) - a / 2 = (2 * n - a) / 2 by ring, abs_div, abs_two]
    exact ⟨by linarith [h.1], fun ht => by linarith [h.1]⟩
  · constructor <;> linarith [h.1, h.2]

/-- The whole part `q` and the fraction `t` of a magnitude, rounded up when RM asks for it. -/
theorem roundsTo_of_fraction {rm : Nat} {neg up : Bool} {q : Nat} {t : ℝ} (ht0 : 0 ≤ t) (ht1 : t < 1)
    (haway : Claims.away rm neg = true → (up = true ↔ t ≠ 0))
    (hnear : rm = 0 → (up = true ↔ 1 / 2 < t ∨ t = 1 / 2 ∧ q % 2 = 1))
    (htoward : Claims.away rm neg = false → rm ≠ 0 → up = false) :
    RoundsTo rm neg (q + t) (if up then q + 1 else q) := by
  refine rounding_mode_cases (rm := rm) (neg := neg) ?_ ?_ ?_
  · intro ha _
    rw [roundsTo_of_away ha]
    cases up with
    | true =>
      have : 0 < t := lt_of_le_of_ne ht0 (Ne.symm ((haway ha).mp rfl))
      rw [if_pos rfl]
      push_cast
      constructor <;> linarith
    | false =>
      have : t = 0 := by simpa using haway ha
      simp [this]
  · rintro - rfl
    rw [roundsTo_nearest]
    cases up with
    | true =>
      have hup := (hnear rfl).mp rfl
      have habs : |((q + 1 : Nat) : ℝ) - (q + t)| = 1 - t := by
        rw [abs_of_nonneg] <;> push_cast <;> linarith
      rw [if_pos rfl, habs]
      refine ⟨by rcases hup with h | h <;> linarith [h], fun h => ?_⟩
      rcases hup with h' | ⟨_, hq⟩
      · linarith
      · omega
    | false =>
      have hup : ¬(1 / 2 < t ∨ t = 1 / 2 ∧ q % 2 = 1) := fun h => by simpa using (hnear rfl).mpr h
      have habs : |(q : ℝ) - (q + t)| = t := by
        rw [show (q : ℝ) - (q + t) = -t by ring, abs_neg, abs_of_nonneg ht0]
      rw [if_neg (by simp), habs]
      push Not at hup
      exact ⟨hup.1, fun h => by have := hup.2 h; omega⟩
  · intro ha h0
    rw [roundsTo_of_toward ha h0, htoward ha h0, if_neg (by simp)]
    constructor <;> linarith

/-! ### The model's rounding of a significand -/

/-- The whole number `m` stands for the real number `x`: it is `x`, or odd, with at least `f` + 4 bits, and `x` lies between
its two neighbours. Rounding away at least two of its bits then does not tell `m` from `x` (R69, R322). -/
def Stands (f m : Nat) (x : ℝ) : Prop := x = m ∨ m % 2 = 1 ∧ 2 ^ (f + 3) ≤ m ∧ |x - m| < 1

theorem stands_self (f m : Nat) : Stands f m m := .inl rfl

theorem Stands.two_pow_log2_le {f m : Nat} {x : ℝ} (h : Stands f m x) (hm : m ≠ 0) : (2 : ℝ) ^ Nat.log2 m ≤ x := by
  have hlog := Nat.log2_self_le hm
  rcases h with rfl | ⟨hodd, hbig, hx⟩
  · exact_mod_cast hlog
  · have hf : Nat.log2 m ≠ 0 := by
      have := (Nat.le_log2 hm).mpr hbig
      omega
    have hle : 2 ^ Nat.log2 m + 1 ≤ m := by
      have := Nat.two_pow_mod_two_eq_zero.mpr (Nat.pos_of_ne_zero hf)
      omega
    have hle : (2 : ℝ) ^ Nat.log2 m + 1 ≤ m := by exact_mod_cast hle
    linarith [(abs_lt.mp hx).1]

theorem Stands.lt_two_pow_log2 {f m : Nat} {x : ℝ} (h : Stands f m x) : x < (2 : ℝ) ^ (Nat.log2 m + 1) := by
  have hlog : m < 2 ^ (Nat.log2 m + 1) := Nat.lt_log2_self
  rcases h with rfl | ⟨-, -, hx⟩
  · exact_mod_cast hlog
  · have hle : (m : ℝ) + 1 ≤ 2 ^ (Nat.log2 m + 1) := by exact_mod_cast hlog
    linarith [(abs_lt.mp hx).2]

/-- The remainder modulo 2^`sh`, and the real number that it stands for, compare alike with 0 and with the half. -/
theorem Stands.remainder {f m sh : Nat} {x : ℝ} (h : Stands f m x) (hsh : x = m ∨ 2 ≤ sh) :
    ∃ ρ : ℝ, x = (m / 2 ^ sh : Nat) * 2 ^ sh + ρ ∧ 0 ≤ ρ ∧ ρ < 2 ^ sh ∧ (ρ = 0 ↔ m % 2 ^ sh = 0) ∧
      (2 ^ sh < 2 * ρ ↔ 2 ^ sh < 2 * (m % 2 ^ sh)) ∧ (2 * ρ = 2 ^ sh ↔ 2 * (m % 2 ^ sh) = 2 ^ sh) := by
  have hdiv : (m : ℝ) = (m / 2 ^ sh : Nat) * 2 ^ sh + (m % 2 ^ sh : Nat) := by exact_mod_cast (Nat.div_add_mod' m (2 ^ sh)).symm
  have hmod : m % 2 ^ sh < 2 ^ sh := Nat.mod_lt _ (by positivity)
  by_cases hx : x = m
  · refine ⟨(m % 2 ^ sh : Nat), hx.trans hdiv, by positivity, by exact_mod_cast hmod, by norm_cast, by norm_cast, by norm_cast⟩
  · obtain ⟨hodd, -, hlt⟩ := h.resolve_left hx
    obtain ⟨k, rfl⟩ := Nat.exists_eq_add_of_le' (hsh.resolve_left hx)
    have hpow : 2 ^ (k + 2) = 4 * 2 ^ k := by ring
    have hr : m % 2 ^ (k + 2) % 2 = 1 := by
      rw [Nat.mod_mod_of_dvd _ (dvd_pow_self 2 (by omega)), hodd]
    obtain ⟨hlo, hhi⟩ := abs_lt.mp hlt
    set r := m % 2 ^ (k + 2)
    have hpowR : (2 : ℝ) ^ (k + 2) = 4 * 2 ^ k := by ring
    have hle : (r : ℝ) + 1 ≤ 2 ^ (k + 2) := by exact_mod_cast hmod
    have hpos : (1 : ℝ) ≤ r := by exact_mod_cast (by omega : 1 ≤ r)
    refine ⟨r + (x - m), by linarith, by linarith, by linarith, ⟨fun h => by linarith, fun h => by omega⟩, ?_, ?_⟩
    · refine ⟨fun h => not_le.mp fun hn => ?_, fun h => ?_⟩
      · have : (r : ℝ) + 1 ≤ 2 * 2 ^ k := by exact_mod_cast (by omega : r + 1 ≤ 2 * 2 ^ k)
        linarith
      · have : 2 * 2 ^ k + 1 ≤ (r : ℝ) := by exact_mod_cast (by omega : 2 * 2 ^ k + 1 ≤ r)
        linarith
    · refine ⟨fun h => ?_, fun h => by omega⟩
      rcases le_or_gt r (2 * 2 ^ k) with hn | hn
      · have : (r : ℝ) + 1 ≤ 2 * 2 ^ k := by exact_mod_cast (by omega : r + 1 ≤ 2 * 2 ^ k)
        linarith
      · have : 2 * 2 ^ k + 1 ≤ (r : ℝ) := by exact_mod_cast hn
        linarith

/-- A significand without its low `sh` bits is rounded up. -/
def roundsUp (rm : Nat) (neg : Bool) (m sh : Nat) : Bool :=
  Claims.away rm neg && decide (m % 2 ^ sh ≠ 0) ||
    rm == 0 && (decide (2 ^ sh < 2 * (m % 2 ^ sh)) || decide (2 * (m % 2 ^ sh) = 2 ^ sh) && decide (m / 2 ^ sh % 2 = 1))

theorem roundShift_eq {rm : Nat} (hrm : rm < 4) (neg : Bool) (m sh : Nat) :
    roundShift rm neg m sh =
      (if roundsUp rm neg m sh then m / 2 ^ sh + 1 else m / 2 ^ sh, decide (m % 2 ^ sh ≠ 0)) := by
  interval_cases rm <;> simp [roundShift, roundsUp, away_zero, away_one, away_two, away_three]

theorem roundsUp_of_mod_eq_zero {rm m sh : Nat} {neg : Bool} (h : m % 2 ^ sh = 0) : roundsUp rm neg m sh = false := by
  simp [roundsUp, h, (Nat.two_pow_pos sh).ne]

/-- The whole part of a shifted significand, rounded as RM asks; inexact exactly when that changes the value. -/
theorem roundShift_spec {rm f m sh : Nat} {neg : Bool} {x : ℝ} (hrm : rm < 4) (h : Stands f m x) (hsh : x = m ∨ 2 ≤ sh) :
    RoundsTo rm neg (x / 2 ^ sh) (roundShift rm neg m sh).1 ∧
      ((roundShift rm neg m sh).2 = false ↔ ((roundShift rm neg m sh).1 : ℝ) = x / 2 ^ sh) := by
  obtain ⟨ρ, hx, hρ0, hρ1, hzero, hlt, heq⟩ := h.remainder hsh
  have hpos : (0 : ℝ) < 2 ^ sh := by positivity
  have hsplit : x / 2 ^ sh = (m / 2 ^ sh : Nat) + ρ / 2 ^ sh := by rw [hx]; field_simp
  have ht0 : ρ / 2 ^ sh = 0 ↔ m % 2 ^ sh = 0 := by rw [← hzero, div_eq_zero_iff]; simp [hpos.ne']
  have htlt : 1 / 2 < ρ / 2 ^ sh ↔ 2 ^ sh < 2 * (m % 2 ^ sh) := by
    rw [← hlt, lt_div_iff₀ hpos]; constructor <;> intro h <;> linarith
  have hteq : ρ / 2 ^ sh = 1 / 2 ↔ 2 * (m % 2 ^ sh) = 2 ^ sh := by
    rw [← heq, div_eq_iff hpos.ne']; constructor <;> intro h <;> linarith
  have hnonneg : 0 ≤ ρ / 2 ^ sh := div_nonneg hρ0 hpos.le
  have hlt1 : ρ / 2 ^ sh < 1 := (div_lt_one hpos).mpr hρ1
  rw [hsplit, roundShift_eq hrm]
  generalize ρ / 2 ^ sh = t at ht0 htlt hteq hnonneg hlt1 ⊢
  constructor
  · refine roundsTo_of_fraction hnonneg hlt1 (fun ha => ?_) ?_ (fun ha h0 => ?_)
    · have h0 : rm ≠ 0 := fun h => by simp [h, away_zero] at ha
      simp [roundsUp, ha, h0, ht0]
    · rintro rfl
      rw [htlt, hteq]
      simp [roundsUp, away_zero]
    · simp [roundsUp, ha, h0]
  · by_cases hr : m % 2 ^ sh = 0
    · simp [roundsUp_of_mod_eq_zero hr, hr, ht0.mpr hr]
    · have hpos : 0 < t := hnonneg.lt_of_ne fun h => hr (ht0.mp h.symm)
      cases roundsUp rm neg m sh
      · simp [hr, hpos.ne']
      · simp [hr, hlt1.ne']

/-- `x` × 2^`e` in units of 2^`q`, with all but `f` + 1 of the bits of its significand rounded away at the least. -/
theorem roundAt_spec {rm f m : Nat} {neg : Bool} {x : ℝ} {e q : Int} (hrm : rm < 4) (hm : m ≠ 0) (h : Stands f m x)
    (hq : (Nat.log2 m : Int) + e - f ≤ q) :
    RoundsTo rm neg (x * 2 ^ e / 2 ^ q) (roundAt rm neg m e q).1 ∧
      ((roundAt rm neg m e q).2 = false ↔ ((roundAt rm neg m e q).1 : ℝ) = x * 2 ^ e / 2 ^ q) := by
  have hbig : x = m ∨ e + 3 ≤ q := h.imp id fun ⟨_, hbig, _⟩ => by
    have := (Nat.le_log2 hm).mpr hbig
    omega
  unfold roundAt
  split_ifs with hqe
  · obtain rfl : x = m := hbig.resolve_right (by omega)
    have hscale : (m : ℝ) * 2 ^ e / 2 ^ q = (m * 2 ^ (e - q).toNat : Nat) := by
      obtain ⟨k, hk⟩ := Int.eq_ofNat_of_zero_le (sub_nonneg.mpr hqe)
      rw [mul_div_assoc, ← zpow_sub₀ two_ne_zero, hk]
      simp
    rw [hscale]
    exact ⟨roundsTo_self _ _ _, by simp⟩
  · obtain ⟨k, hk⟩ := Int.eq_ofNat_of_zero_le (show 0 ≤ q - e by omega)
    have hscale : x * 2 ^ e / 2 ^ q = x / 2 ^ k := by
      rw [show q = e + k by omega, zpow_add₀ two_ne_zero, zpow_natCast]
      field_simp
    rw [hscale, hk]
    exact roundShift_spec hrm h (hbig.imp id fun h => by omega)

end Sys2Proof.Machine
end

section
/-!
Rounding into a format of IEEE 754 (R67 to R72): its patterns, its finite values, and the rounded exponent that decides
overflow and tininess.
-/

namespace Sys2Proof.Machine

/-! ### Formats and their patterns -/

/-- A format of IEEE 754 (R67): both upper exponent codes as there, and the bias that its exponent width gives. -/
structure Fmt.Ieee (F : Fmt) : Prop where
  special : F.special = 0
  bias_pos : 0 < F.bias
  fw_pos : 0 < F.fw
  two_pow_ew : 2 ^ F.ew = 2 * F.bias + 2

theorem ieee_of_mem {F : Fmt} (h : F ∈ [fp64, fp32, bf16, fp16, e5m2]) : F.Ieee := by
  simp only [List.mem_cons, List.not_mem_nil, or_false] at h
  rcases h with rfl | rfl | rfl | rfl | rfl <;> constructor <;> decide

/-- The parts of a pattern: its sign, its exponent code `E` and its fraction `f`. -/
theorem pattern_parts {F : Fmt} {neg : Bool} {E f : Nat} (hE : E < 2 ^ F.ew) (hf : f < 2 ^ F.fw) :
    let y := F.zero neg + E * 2 ^ F.fw + f
    decide (y / F.signBit % 2 = 1) = neg ∧ y / 2 ^ F.fw % 2 ^ F.ew = E ∧ y % 2 ^ F.fw = f ∧ y < 2 * F.signBit := by
  intro y
  have hsign : F.signBit = 2 ^ F.ew * 2 ^ F.fw := Nat.pow_add ..
  have hzero : F.zero neg = neg.toNat * 2 ^ F.ew * 2 ^ F.fw := by cases neg <;> simp [Fmt.zero, hsign]
  have hfw : 0 < 2 ^ F.fw := by positivity
  have hy : y = f + (E + neg.toNat * 2 ^ F.ew) * 2 ^ F.fw := by simp only [y, hzero]; ring
  have hhigh : y / 2 ^ F.fw = E + neg.toNat * 2 ^ F.ew := by
    rw [hy, Nat.add_mul_div_right _ _ hfw, Nat.div_eq_of_lt hf, Nat.zero_add]
  have htop : y / F.signBit = neg.toNat := by
    rw [hsign, Nat.mul_comm, ← Nat.div_div_eq_div_mul, hhigh, Nat.add_mul_div_right _ _ (by positivity),
      Nat.div_eq_of_lt hE, Nat.zero_add]
  refine ⟨by rw [htop]; cases neg <;> rfl, ?_, ?_, ?_⟩
  · rw [hhigh, Nat.add_mul_mod_self_right, Nat.mod_eq_of_lt hE]
  · rw [hy, Nat.add_mul_mod_self_right, Nat.mod_eq_of_lt hf]
  · rw [← Nat.div_lt_iff_lt_mul (by rw [hsign]; positivity), htop]
    exact neg.toNat_lt

theorem pattern_lt {F : Fmt} (neg : Bool) {E f : Nat} (hE : E < 2 ^ F.ew) (hf : f < 2 ^ F.fw) :
    F.zero neg + E * 2 ^ F.fw + f < 2 * F.signBit := by
  obtain ⟨-, -, -, hlt⟩ := pattern_parts (neg := neg) hE hf
  exact hlt

theorem unpack_subnormal {F : Fmt} (hF : F.Ieee) (neg : Bool) {f : Nat} (hf : f < 2 ^ F.fw) :
    unpack F (F.zero neg + f) = .fin neg f (F.emin - F.fw) := by
  have hew := hF.two_pow_ew
  have h := pattern_parts (F := F) (neg := neg) (E := 0) (by omega) hf
  simp only [Nat.zero_mul, Nat.add_zero] at h
  obtain ⟨hs, hE, hfr, -⟩ := h
  unfold unpack
  simp only [hs, hE, hfr, hF.special]
  simp [hew]

theorem unpack_normal {F : Fmt} (hF : F.Ieee) (neg : Bool) {E f : Nat} (hE0 : E ≠ 0) (hE : E + 1 < 2 ^ F.ew) (hf : f < 2 ^ F.fw) :
    unpack F (F.zero neg + E * 2 ^ F.fw + f) = .fin neg (2 ^ F.fw + f) ((E : Int) - F.bias - F.fw) := by
  obtain ⟨hs, hEx, hfr, -⟩ := pattern_parts (F := F) (neg := neg) (E := E) (by omega) hf
  unfold unpack
  simp only [hs, hEx, hfr, hF.special]
  simp [hE0, show E ≠ 2 ^ F.ew - 1 by omega]

/-- A finite value of a format: a significand of `fw` + 1 bits in units no smaller than those of the subnormals. -/
theorem unpack_fin_bounds {F : Fmt} (hF : F.Ieee) {y : Nat} {neg : Bool} {m : Nat} {e : Int} (h : unpack F y = .fin neg m e) :
    m < 2 ^ (F.fw + 1) ∧ F.emin - F.fw ≤ e := by
  have hfrac : y % 2 ^ F.fw < 2 ^ F.fw := Nat.mod_lt _ (by positivity)
  have htop : 2 ^ (F.fw + 1) = 2 * 2 ^ F.fw := by ring
  unfold unpack at h
  simp only [hF.special] at h
  split_ifs at h <;> simp only [Num.fin.injEq, Fmt.emin] at h ⊢ <;> omega

theorem zero_mod_two {F : Fmt} (hF : F.Ieee) (neg : Bool) : F.zero neg % 2 = 0 := by
  have := hF.fw_pos
  have := Nat.two_pow_mod_two_eq_zero (n := F.ew + F.fw) |>.mpr (by omega)
  cases neg <;> simp [Fmt.zero, Fmt.signBit, *]

/-! ### The value of a sign and a magnitude -/

/-- ±1. -/
def signOf (neg : Bool) : ℝ := if neg then -1 else 1

theorem valueOf_real (neg : Bool) (m : Nat) (e : Int) :
    ((Claims.valueOf neg m e : Rat) : ℝ) = signOf neg * (m * (2 : ℝ) ^ e) := by
  cases neg <;> simp [Claims.valueOf, signOf]

theorem signOf_mul_self (neg : Bool) : signOf neg * signOf neg = 1 := by cases neg <;> norm_num [signOf]
theorem abs_signOf_mul (neg : Bool) (a : ℝ) : |signOf neg * a| = |a| := by cases neg <;> simp [signOf]
theorem signOf_mul_neg_iff {neg : Bool} {a : ℝ} (ha : 0 < a) : signOf neg * a < 0 ↔ neg = true := by
  cases neg <;> simp [signOf, ha, ha.le]

/-! ### The value that RM asks for -/

/-- To nearest, no whole number is nearer, and where another one is as near the rounded one is even. -/
theorem RoundsTo.nearest_int {neg : Bool} {a : ℝ} {n : Nat} (h : RoundsTo 0 neg a n) (k : Int) :
    |(n : ℝ) - a| ≤ |(k : ℝ) - a| ∧ (|(n : ℝ) - a| = |(k : ℝ) - a| → (k : ℝ) ≠ n → n % 2 = 0) := by
  obtain ⟨hle, htie⟩ := roundsTo_nearest.mp h
  by_cases hk : k = n
  · simp [hk]
  · have hdist : (1 : ℝ) ≤ |(k : ℝ) - n| := by exact_mod_cast Int.one_le_abs (sub_ne_zero.mpr hk)
    have htri : |(k : ℝ) - n| ≤ |(k : ℝ) - a| + |(n : ℝ) - a| := by
      rw [abs_sub_comm (n : ℝ) a]
      exact abs_sub_le _ _ _
    exact ⟨by linarith, fun heq _ => htie (by linarith)⟩

/-- Of the magnitudes `n` and `b`, RM asks for `n` in place of `a` (R8, R71): it is no less near, and even where both are as
near; or it lies in the direction that RM gives a value of the sign, with `b` not between `a` and it. -/
def Prefers (rm : Nat) (neg : Bool) (a b : ℝ) (n : Nat) : Prop :=
  (rm = 0 → |(n : ℝ) - a| ≤ |b - a| ∧ (|(n : ℝ) - a| = |b - a| → b ≠ n → n % 2 = 0)) ∧
  (Claims.away rm neg = true → a ≤ n ∧ (a ≤ b → (n : ℝ) ≤ b)) ∧
  (Claims.away rm neg = false → rm ≠ 0 → (n : ℝ) ≤ a ∧ (b ≤ a → b ≤ n))

/-- Among whole numbers, and numbers below a whole number under `a`, the rounded one is what RM asks for. -/
theorem RoundsTo.prefers {rm : Nat} {neg : Bool} {a b : ℝ} {n : Nat} (h : RoundsTo rm neg a n)
    (hb : (∃ k : Int, b = k) ∨ ∃ c : Nat, b < c ∧ (c : ℝ) ≤ a) : Prefers rm neg a b n := by
  refine ⟨?_, fun ha => ?_, fun ha h0 => ?_⟩
  · rintro rfl
    rcases hb with ⟨k, rfl⟩ | ⟨c, hbc, hca⟩
    · exact h.nearest_int k
    · have hc : |(n : ℝ) - a| ≤ |(c : ℝ) - a| := by exact_mod_cast (h.nearest_int c).1
      rw [abs_sub_comm (c : ℝ), abs_of_nonneg (sub_nonneg.mpr hca)] at hc
      rw [abs_sub_comm b, abs_of_nonneg (by linarith : 0 ≤ a - b)]
      exact ⟨by linarith, fun heq => by linarith⟩
  · rw [roundsTo_of_away ha] at h
    refine ⟨h.1, fun hab => ?_⟩
    rcases hb with ⟨k, rfl⟩ | ⟨c, hbc, hca⟩
    · have : (n : ℝ) < k + 1 := by linarith [h.2]
      exact_mod_cast Int.lt_add_one_iff.mp (by exact_mod_cast this)
    · linarith
  · have hle := (roundsTo_of_toward ha h0).mp h
    refine ⟨hle.1, fun hba => ?_⟩
    rcases hb with ⟨k, rfl⟩ | ⟨c, hbc, hca⟩
    · have : (k : ℝ) < n + 1 := by linarith [hle.2]
      exact_mod_cast Int.lt_add_one_iff.mp (by exact_mod_cast this)
    · have : (c : ℝ) ≤ n := by exact_mod_cast h.le_of_le hca
      linarith

/-- A finite value of a format, with a sign put before it, is a multiple of a unit, or lies below the significands of
`fw` + 1 bits in that unit, where the units get smaller. -/
theorem format_value_in_units {F : Fmt} (hF : F.Ieee) {Q : Int} (hQ : F.emin - F.fw ≤ Q) {y : Nat} {neg : Bool} {m : Nat}
    {e : Int} (h : unpack F y = .fin neg m e) (s : Bool) :
    (∃ k : Int, signOf s * (Claims.valueOf neg m e : Rat) / (2 : ℝ) ^ Q = k) ∨
      F.emin - F.fw < Q ∧ signOf s * (Claims.valueOf neg m e : Rat) / (2 : ℝ) ^ Q < (2 ^ F.fw : Nat) := by
  obtain ⟨hm, he⟩ := unpack_fin_bounds hF h
  rw [valueOf_real]
  rcases le_or_gt Q e with hQe | hQe
  · left
    obtain ⟨j, hj⟩ := Int.eq_ofNat_of_zero_le (sub_nonneg.mpr hQe)
    have hscale : (2 : ℝ) ^ e / (2 : ℝ) ^ Q = 2 ^ j := by rw [← zpow_sub₀ two_ne_zero, hj]; exact zpow_natCast _ _
    refine ⟨(if s = neg then 1 else -1) * (m * 2 ^ j), ?_⟩
    rw [mul_div_assoc, mul_div_assoc, mul_div_assoc, hscale]
    cases s <;> cases neg <;> simp [signOf]
  · right
    refine ⟨by omega, ?_⟩
    have hpos : (0 : ℝ) < 2 ^ Q := by positivity
    rw [div_lt_iff₀ hpos]
    have hle : signOf s * (signOf neg * (m * (2 : ℝ) ^ e)) ≤ m * 2 ^ e := by
      refine (le_abs_self _).trans (le_of_eq ?_)
      rw [abs_signOf_mul, abs_signOf_mul, abs_of_nonneg (by positivity)]
    have hmR : (m : ℝ) < 2 ^ (F.fw + 1) := by exact_mod_cast hm
    calc _ ≤ (m : ℝ) * 2 ^ e := hle
      _ < 2 ^ (F.fw + 1) * 2 ^ e := by gcongr
      _ = (2 ^ F.fw : Nat) * (2 : ℝ) ^ (e + 1) := by rw [zpow_add_one₀ two_ne_zero]; push_cast; ring
      _ ≤ (2 ^ F.fw : Nat) * (2 : ℝ) ^ Q := by gcongr <;> [norm_num; omega]

/-- What RM asks for of magnitudes `a` and `b` in units of `u`, said of the values with their sign. -/
theorem nearest_scaled {rm : Nat} {neg : Bool} {a b u w : ℝ} {n p : Nat} (hu : 0 < u) (ha : 0 < a)
    (hw : w = signOf neg * (b * u)) (hp : n % 2 = 0 → p % 2 = 0)
    (h : Prefers rm neg a b n) :
    let v := signOf neg * (a * u)
    let x := signOf neg * (n * u)
    (rm = 0 → |x - v| ≤ |w - v| ∧ (|x - v| = |w - v| → w ≠ x → p % 2 = 0)) ∧
    (rm = 1 → |x| ≤ |v| ∧ 0 ≤ x * v ∧ (0 ≤ w * v → |w| ≤ |v| → |w| ≤ |x|)) ∧
    (rm = 2 → x ≤ v ∧ (w ≤ v → w ≤ x)) ∧
    (rm = 3 → v ≤ x ∧ (v ≤ w → x ≤ w)) := by
  intro v x
  obtain ⟨hnear, haway, htoward⟩ := h
  have hdist : ∀ c d : ℝ, |signOf neg * (c * u) - signOf neg * (d * u)| = |c - d| * u := fun c d => by
    rw [← mul_sub, abs_signOf_mul, ← sub_mul, abs_mul, abs_of_pos hu]
  have hprod : ∀ c d : ℝ, signOf neg * (c * u) * (signOf neg * (d * u)) = c * d * (u * u) := fun c d => by
    linear_combination (c * u * d * u) * signOf_mul_self neg
  have hmag : ∀ c : ℝ, |signOf neg * (c * u)| = |c| * u := fun c => by
    rw [abs_signOf_mul, abs_mul, abs_of_pos hu]
  subst hw
  refine ⟨?_, ?_, ?_, ?_⟩
  · rintro rfl
    rw [hdist, hdist]
    obtain ⟨hle, htie⟩ := hnear rfl
    refine ⟨by gcongr, fun heq hne => hp (htie (mul_right_cancel₀ hu.ne' heq) ?_)⟩
    rintro rfl
    exact hne rfl
  · rintro rfl
    obtain ⟨hle, hmax⟩ := htoward (away_one neg) (by decide)
    rw [hprod, hprod, hmag, hmag, hmag, Nat.abs_cast, abs_of_pos ha]
    refine ⟨by gcongr, by positivity, fun hb hba => ?_⟩
    have hb0 : 0 ≤ b := by
      by_contra hneg
      have : b * a * (u * u) < 0 := mul_neg_of_neg_of_pos (mul_neg_of_neg_of_pos (not_le.mp hneg) ha) (by positivity)
      linarith
    rw [abs_of_nonneg hb0] at hba ⊢
    have := hmax (le_of_mul_le_mul_right hba hu)
    gcongr
  · rintro rfl
    cases neg
    · obtain ⟨hle, hmax⟩ := htoward rfl (by decide)
      simpa [signOf, v, x, hu] using And.intro hle hmax
    · obtain ⟨hle, hmin⟩ := haway rfl
      simpa [signOf, v, x, hu] using And.intro hle hmin
  · rintro rfl
    cases neg
    · obtain ⟨hle, hmin⟩ := haway rfl
      simpa [signOf, v, x, hu] using And.intro hle hmin
    · obtain ⟨hle, hmax⟩ := htoward rfl (by decide)
      simpa [signOf, v, x, hu] using And.intro hle hmax

/-- A magnitude rounded in a unit in which every value of the format from its binade up is whole gives what RM asks for. -/
theorem nearest_of_roundsTo {F : Fmt} (hF : F.Ieee) {rm : Nat} {neg : Bool} {A : ℝ} (hA : 0 < A) {Q : Int}
    {n p : Nat} (hQ : F.emin - F.fw ≤ Q) (hbinade : F.emin - F.fw < Q → (2 ^ F.fw : Nat) * (2 : ℝ) ^ Q ≤ A)
    (h : RoundsTo rm neg (A / 2 ^ Q) n) (hp : n % 2 = 0 → p % 2 = 0) :
    Claims.Nearest F rm (signOf neg * A) (signOf neg * (n * 2 ^ Q)) p := by
  intro y n2 m2 e2 _ hy w
  have hpos : (0 : ℝ) < 2 ^ Q := by positivity
  have hprefers := h.prefers (b := signOf neg * w / 2 ^ Q)
    ((format_value_in_units hF hQ hy neg).imp id fun ⟨hlt, hw⟩ => ⟨_, hw, (le_div_iff₀ hpos).mpr (hbinade hlt)⟩)
  obtain ⟨a, rfl⟩ : ∃ a, A = a * 2 ^ Q := ⟨A / 2 ^ Q, by field_simp⟩
  obtain ⟨b, hb⟩ : ∃ b, w = signOf neg * (b * 2 ^ Q) :=
    ⟨signOf neg * w / 2 ^ Q, by field_simp; rw [sq, signOf_mul_self, mul_one]⟩
  have hbw : signOf neg * w / 2 ^ Q = b := by
    rw [hb, ← mul_assoc, signOf_mul_self, one_mul]
    field_simp
  rw [hbw, mul_div_cancel_right₀ _ hpos.ne'] at hprefers
  generalize (2 : ℝ) ^ Q = u at *
  exact nearest_scaled hpos (pos_of_mul_pos_left hA hpos.le) hb hp hprefers

end Sys2Proof.Machine
end

section
/-!
The model's rounding of a finite value, `roundFin`, is what R69, R71 and R72 ask for.
-/

namespace Sys2Proof.Machine

/-! ### The rounded exponent -/

/-- The exponent of a value's leading bit. -/
def topExp (m : Nat) (e : Int) : Int := (Nat.log2 m : Int) + e
/-- The significand of `fw` + 1 bits that a value is rounded to with unbounded exponent, 2^(`fw` + 1) when it carries. -/
def roundedSig (F : Fmt) (rm : Nat) (neg : Bool) (m : Nat) (e : Int) : Nat := (roundAt rm neg m e (topExp m e - F.fw)).1
/-- The exponent of the value rounded with unbounded exponent. -/
def roundedExp (F : Fmt) (rm : Nat) (neg : Bool) (m : Nat) (e : Int) : Int :=
  if roundedSig F rm neg m e = 2 ^ (F.fw + 1) then topExp m e + 1 else topExp m e

theorem roundFin_zero (F : Fmt) (R : Rounding) (neg : Bool) (e : Int) : roundFin F R neg 0 e = (F.zero neg, 0) := rfl

theorem roundFin_tiny {F : Fmt} {R : Rounding} {neg : Bool} {m : Nat} {e : Int} (hm : m ≠ 0)
    (h : roundedExp F R.rm neg m e < F.emin) :
    roundFin F R neg m e = if R.ftz then (F.zero neg, 24) else
      (F.zero neg + (roundAt R.rm neg m e (F.emin - F.fw)).1,
        if (roundAt R.rm neg m e (F.emin - F.fw)).2 then 24 else 0) := by
  unfold roundedExp roundedSig topExp at h
  simp only [roundFin, if_neg hm, if_pos h]
  rfl

theorem roundFin_huge {F : Fmt} {R : Rounding} {neg : Bool} {m : Nat} {e : Int} (hm : m ≠ 0)
    (hlow : F.emin ≤ roundedExp F R.rm neg m e) (h : (2 : Int) ^ F.ew - 1 ≤ roundedExp F R.rm neg m e + F.bias) :
    roundFin F R neg m e = (overflowed F R.rm neg, 20) := by
  unfold roundedExp roundedSig topExp at h hlow
  simp only [roundFin, if_neg hm, if_neg (not_lt.mpr hlow), if_pos h]
  rfl

theorem roundFin_normal {F : Fmt} {R : Rounding} {neg : Bool} {m : Nat} {e : Int} (hm : m ≠ 0)
    (hlow : F.emin ≤ roundedExp F R.rm neg m e) (h : roundedExp F R.rm neg m e + F.bias < (2 : Int) ^ F.ew - 1) :
    let sig := roundedSig F R.rm neg m e
    roundFin F R neg m e =
      (F.zero neg + (roundedExp F R.rm neg m e + F.bias).toNat * 2 ^ F.fw +
        ((if sig = 2 ^ (F.fw + 1) then 2 ^ F.fw else sig) - 2 ^ F.fw),
        if (roundAt R.rm neg m e (topExp m e - F.fw)).2 then 16 else 0) := by
  unfold roundedExp roundedSig topExp at h hlow ⊢
  simp only [roundFin, if_neg hm, if_neg (not_lt.mpr hlow), if_neg (not_le.mpr h)]
  rfl

theorem overflowed_eq {rm : Nat} (hrm : rm < 4) (F : Fmt) (neg : Bool) :
    overflowed F rm neg = if rm = 0 ∨ Claims.away rm neg = true then F.inf neg else F.big neg := by
  interval_cases rm <;> cases neg <;> rfl

section
variable {F : Fmt} {rm : Nat} {neg : Bool} {m : Nat} {e : Int} {x : ℝ}

theorem Stands.pos (h : Stands F.fw m x) (hm : m ≠ 0) : 0 < x := lt_of_lt_of_le (by positivity) (h.two_pow_log2_le hm)

/-- The value lies in the binade of its leading bit. -/
theorem Stands.binade (h : Stands F.fw m x) (hm : m ≠ 0) :
    (2 : ℝ) ^ topExp m e ≤ x * 2 ^ e ∧ x * 2 ^ e < 2 ^ (topExp m e + 1) := by
  have he : (0 : ℝ) < 2 ^ e := by positivity
  have hlo := h.two_pow_log2_le hm
  have hhi := h.lt_two_pow_log2
  unfold topExp
  constructor
  · rw [zpow_add₀ two_ne_zero, zpow_natCast]
    gcongr
  · rw [show (Nat.log2 m : Int) + e + 1 = (Nat.log2 m + 1 : Nat) + e by push_cast; ring, zpow_add₀ two_ne_zero, zpow_natCast]
    gcongr

theorem div_two_zpow_le_iff {a c : ℝ} {q : Int} : a / 2 ^ q ≤ c ↔ a ≤ c * 2 ^ q := div_le_iff₀ (by positivity)
theorem le_div_two_zpow_iff {a c : ℝ} {q : Int} : c ≤ a / 2 ^ q ↔ c * 2 ^ q ≤ a := le_div_iff₀ (by positivity)
theorem two_pow_mul_zpow (k : Nat) (q : Int) : ((2 ^ k : Nat) : ℝ) * (2 : ℝ) ^ q = 2 ^ (k + q : Int) := by
  rw [zpow_add₀ two_ne_zero]
  simp

theorem roundedSig_roundsTo (hrm : rm < 4) (h : Stands F.fw m x) (hm : m ≠ 0) :
    RoundsTo rm neg (x * 2 ^ e / 2 ^ (topExp m e - F.fw)) (roundedSig F rm neg m e) :=
  (roundAt_spec hrm hm h le_rfl).1

theorem roundedSig_bounds (hrm : rm < 4) (h : Stands F.fw m x) (hm : m ≠ 0) :
    2 ^ F.fw ≤ roundedSig F rm neg m e ∧ roundedSig F rm neg m e ≤ 2 ^ (F.fw + 1) := by
  have hr := roundedSig_roundsTo (neg := neg) (e := e) hrm h hm
  obtain ⟨hlo, hhi⟩ := h.binade (e := e) hm
  refine ⟨hr.le_of_le (le_div_two_zpow_iff.mpr ?_), hr.le_of_ge (div_two_zpow_le_iff.mpr ?_)⟩
  · rwa [two_pow_mul_zpow, add_sub_cancel]
  · rw [two_pow_mul_zpow, Nat.cast_succ, add_right_comm, add_sub_cancel]
    exact hhi.le

/-- The rounded exponent is beyond `B` exactly when the value reaches the end of the binade of `B`. -/
theorem lt_roundedExp_iff (hrm : rm < 4) (h : Stands F.fw m x) (hm : m ≠ 0) (B : Int) :
    B < roundedExp F rm neg m e ↔ Reaches rm neg (x * 2 ^ e / 2 ^ (B - F.fw)) (2 ^ (F.fw + 1)) := by
  obtain ⟨hlo, hhi⟩ := h.binade (e := e) hm
  obtain ⟨-, hsig⟩ := roundedSig_bounds (neg := neg) (e := e) hrm h hm
  unfold roundedExp
  rcases lt_trichotomy B (topExp m e) with hB | rfl | hB
  · refine iff_of_true (by split_ifs <;> omega) (reaches_of_le (le_div_two_zpow_iff.mpr ?_))
    rw [two_pow_mul_zpow]
    exact (zpow_le_zpow_right₀ one_le_two (by push_cast; omega)).trans hlo
  · rw [← (roundedSig_roundsTo hrm h hm).le_iff_reaches (Nat.two_pow_mod_two_eq_zero.mpr (by omega))]
    split_ifs <;> omega
  · refine iff_of_false (by split_ifs <;> omega) (not_reaches_of_le (div_two_zpow_le_iff.mpr ?_))
    have hle : ((2 ^ F.fw : Nat) : ℝ) ≤ ((2 ^ (F.fw + 1) : Nat) : ℝ) - 1 := by
      have : (1 : ℝ) ≤ 2 ^ F.fw := one_le_pow₀ (by norm_num)
      push_cast
      rw [pow_succ]
      linarith
    calc x * 2 ^ e ≤ (2 : ℝ) ^ (topExp m e + 1) := hhi.le
      _ ≤ (2 : ℝ) ^ (F.fw + (B - F.fw) : Int) := zpow_le_zpow_right₀ one_le_two (by omega)
      _ = ((2 ^ F.fw : Nat) : ℝ) * (2 : ℝ) ^ (B - F.fw) := (two_pow_mul_zpow _ _).symm
      _ ≤ _ := by gcongr

end

/-! ### Overflow and tininess -/

/-- A value overflows exactly when it reaches the end of the last binade (R69). -/
theorem huge_iff_reaches (F : Fmt) (rm : Nat) (neg : Bool) (v : ℝ) :
    Claims.Huge F rm neg v ↔ Reaches rm neg (|v| / 2 ^ ((F.bias : Int) - F.fw)) (2 ^ (F.fw + 1)) := by
  have hu : (0 : ℝ) < 2 ^ ((F.bias : Int) - F.fw) := by positivity
  have htop : ((Claims.largest F : Rat) : ℝ) = (2 ^ (F.fw + 1) - 1) * 2 ^ ((F.bias : Int) - F.fw) := by
    unfold Claims.largest
    push_cast
    rw [zpow_sub₀ two_ne_zero, zpow_neg, zpow_natCast, zpow_natCast]
    field_simp
    ring
  unfold Claims.Huge Reaches
  simp only [htop]
  push_cast
  generalize (2 : ℝ) ^ ((F.bias : Int) - F.fw) = u at hu ⊢
  split_ifs
  · rw [lt_div_iff₀ hu]
  · rw [le_div_iff₀ hu]; ring_nf
  · rw [le_div_iff₀ hu]; ring_nf

/-- A value is tiny exactly when it does not reach the end of the binade below the smallest normal value (R69). -/
theorem tiny_iff_not_reaches (F : Fmt) (rm : Nat) (neg : Bool) (v : ℝ) :
    Claims.Tiny F rm neg v ↔ ¬Reaches rm neg (|v| / 2 ^ (F.emin - 1 - F.fw)) (2 ^ (F.fw + 1)) := by
  have hu : (0 : ℝ) < 2 ^ (F.emin - 1 - F.fw) := by positivity
  have hlow : ((Claims.smallest F : Rat) : ℝ) = 2 ^ (F.fw + 1) * 2 ^ (F.emin - 1 - F.fw) := by
    unfold Claims.smallest Fmt.emin
    push_cast
    rw [← zpow_natCast, ← zpow_add₀ two_ne_zero]
    congr 1
    push_cast
    ring
  have hulp : ((Claims.smallest F : Rat) : ℝ) * (2 : ℝ) ^ (-(F.fw : Int) - 1) = 2 ^ (F.emin - 1 - F.fw) := by
    unfold Claims.smallest Fmt.emin
    push_cast
    rw [← zpow_add₀ two_ne_zero]
    congr 1
    ring
  unfold Claims.Tiny Reaches
  push_cast
  rw [hulp, hlow]
  generalize (2 : ℝ) ^ (F.emin - 1 - F.fw) = u at hu ⊢
  split_ifs
  · rw [not_lt, div_le_iff₀ hu]; ring_nf
  · rw [not_le, div_lt_iff₀ hu]; ring_nf
  · rw [not_le, div_lt_iff₀ hu]

section
variable {F : Fmt} {rm : Nat} {neg : Bool} {m : Nat} {e : Int} {x : ℝ}

theorem abs_signed_value (h : Stands F.fw m x) (hm : m ≠ 0) : |signOf neg * (x * 2 ^ e)| = x * 2 ^ e := by
  have := h.pos hm
  rw [abs_signOf_mul, abs_of_pos (by positivity)]

theorem huge_iff (hrm : rm < 4) (h : Stands F.fw m x) (hm : m ≠ 0) :
    Claims.Huge F rm neg (signOf neg * (x * 2 ^ e)) ↔ (F.bias : Int) < roundedExp F rm neg m e := by
  rw [huge_iff_reaches, abs_signed_value h hm, lt_roundedExp_iff hrm h hm]

theorem tiny_iff (hrm : rm < 4) (h : Stands F.fw m x) (hm : m ≠ 0) :
    Claims.Tiny F rm neg (signOf neg * (x * 2 ^ e)) ↔ roundedExp F rm neg m e < F.emin := by
  rw [tiny_iff_not_reaches, abs_signed_value h hm, ← lt_roundedExp_iff hrm h hm]
  omega

end

/-! ### Finite results -/

/-- A significand up to 2^`fw` in the units of the subnormals, as a pattern. -/
theorem unpack_low {F : Fmt} (hF : F.Ieee) (neg : Bool) {n : Nat} (hn : n ≤ 2 ^ F.fw) :
    F.zero neg + n < 2 * F.signBit ∧ ∃ k e, unpack F (F.zero neg + n) = .fin neg k e ∧
      (k : ℝ) * 2 ^ e = n * 2 ^ (F.emin - F.fw) := by
  have hew := hF.two_pow_ew
  have hbias := hF.bias_pos
  have hpos : 0 < 2 ^ F.fw := by positivity
  rcases hn.lt_or_eq with hlt | rfl
  · have hpat := pattern_lt neg (E := 0) (by omega) hlt
    exact ⟨by simpa using hpat, n, _, unpack_subnormal hF neg hlt, rfl⟩
  · have hpat := pattern_lt neg (E := 1) (by omega) hpos
    have hun := unpack_normal hF neg (E := 1) one_ne_zero (by omega) hpos
    rw [Nat.one_mul, Nat.add_zero] at hpat hun
    exact ⟨hpat, _, _, hun, rfl⟩

/-- A significand of `fw` + 1 bits with an exponent in the range of the normal values, as a pattern. -/
theorem unpack_high {F : Fmt} (hF : F.Ieee) (neg : Bool) {E : Int} {n : Nat} (hlow : F.emin ≤ E) (hE : E ≤ F.bias)
    (hn : 2 ^ F.fw ≤ n) (hn' : n < 2 ^ (F.fw + 1)) :
    let p := F.zero neg + (E + F.bias).toNat * 2 ^ F.fw + (n - 2 ^ F.fw)
    p < 2 * F.signBit ∧ unpack F p = .fin neg n (E - F.fw) ∧ p % 2 = n % 2 := by
  intro p
  have hew := hF.two_pow_ew
  have htop : 2 ^ (F.fw + 1) = 2 * 2 ^ F.fw := by ring
  unfold Fmt.emin at hlow
  refine ⟨pattern_lt neg (by omega) (by omega), ?_, ?_⟩
  · rw [unpack_normal hF neg (by omega) (by omega) (by omega)]
    congr 1 <;> omega
  · have hz := zero_mod_two hF neg
    have hfw := Nat.two_pow_mod_two_eq_zero.mpr hF.fw_pos
    have hmul : (E + F.bias).toNat * 2 ^ F.fw % 2 = 0 := by rw [Nat.mul_mod, hfw]; rfl
    omega

/-- What `Claims.Rounded` asks of a finite result. -/
def FiniteResult (F : Fmt) (rm : Nat) (neg : Bool) (v : ℝ) (tiny : Prop) (r : Nat × Nat) : Prop :=
  r.1 < 2 * F.signBit ∧ ∃ (k : Nat) (e : Int), unpack F r.1 = .fin neg k e ∧
    Claims.Nearest F rm v (Claims.valueOf neg k e : Rat) r.1 ∧
    (((Claims.valueOf neg k e : Rat) : ℝ) = v → r.2 = 0) ∧
    (((Claims.valueOf neg k e : Rat) : ℝ) ≠ v → tiny → r.2 = 24) ∧
    (((Claims.valueOf neg k e : Rat) : ℝ) ≠ v → ¬tiny → r.2 = 16)

/-- A pattern whose value is the magnitude, rounded to a whole number in a unit of the format, is a finite result. -/
theorem finiteResult_of_roundsTo {F : Fmt} (hF : F.Ieee) {rm : Nat} {neg : Bool} {A : ℝ} (hA : 0 < A) {Q : Int} {n k p c : Nat}
    {e : Int} {nx : Bool} {tiny : Prop} (hQ : F.emin - F.fw ≤ Q)
    (hbinade : F.emin - F.fw < Q → (2 ^ F.fw : Nat) * (2 : ℝ) ^ Q ≤ A)
    (h : RoundsTo rm neg (A / 2 ^ Q) n) (hp : n % 2 = 0 → p % 2 = 0) (hlt : p < 2 * F.signBit)
    (hun : unpack F p = .fin neg k e) (hval : (k : ℝ) * 2 ^ e = n * 2 ^ Q)
    (hnx : nx = false ↔ (n : ℝ) = A / 2 ^ Q) (htiny : tiny → c = 24) (hnormal : ¬tiny → c = 16) :
    FiniteResult F rm neg (signOf neg * A) tiny (p, if nx then c else 0) := by
  have hsign : signOf neg ≠ 0 := left_ne_zero_of_mul_eq_one (signOf_mul_self neg)
  have hiff : ((Claims.valueOf neg k e : Rat) : ℝ) = signOf neg * A ↔ nx = false := by
    rw [valueOf_real, hval, mul_right_inj' hsign, hnx, eq_div_iff (by positivity)]
  have hnearest : Claims.Nearest F rm (signOf neg * A) (Claims.valueOf neg k e : Rat) p := by
    rw [valueOf_real, hval]
    exact nearest_of_roundsTo hF hA hQ hbinade h hp
  refine ⟨hlt, k, e, hun, hnearest, fun hv => by simp [hiff.mp hv], fun hv ht => ?_, fun hv ht => ?_⟩
  · simp [Bool.eq_true_of_not_eq_false (mt hiff.mpr hv), htiny ht]
  · simp [Bool.eq_true_of_not_eq_false (mt hiff.mpr hv), hnormal ht]

section
variable {F : Fmt} {R : Rounding} {neg : Bool} {m : Nat} {e : Int} {x : ℝ}

theorem roundedExp_of_carry {rm : Nat} (h : roundedSig F rm neg m e = 2 ^ (F.fw + 1)) :
    roundedExp F rm neg m e = topExp m e + 1 := if_pos h
theorem roundedExp_of_ne {rm : Nat} (h : roundedSig F rm neg m e ≠ 2 ^ (F.fw + 1)) :
    roundedExp F rm neg m e = topExp m e := if_neg h
theorem topExp_le_roundedExp (F : Fmt) (rm : Nat) (neg : Bool) (m : Nat) (e : Int) :
    topExp m e ≤ roundedExp F rm neg m e ∧ roundedExp F rm neg m e ≤ topExp m e + 1 := by
  unfold roundedExp
  split_ifs <;> omega

/-- A tiny value that is not flushed is rounded in the unit of the subnormals. -/
theorem finiteResult_tiny (hF : F.Ieee) (hrm : R.rm < 4) (h : Stands F.fw m x) (hm : m ≠ 0)
    (htiny : roundedExp F R.rm neg m e < F.emin) (hftz : R.ftz = false) :
    FiniteResult F R.rm neg (signOf neg * (x * 2 ^ e)) (roundedExp F R.rm neg m e < F.emin) (roundFin F R neg m e) := by
  have hA : 0 < x * 2 ^ e := by have := h.pos hm; positivity
  have htop := (topExp_le_roundedExp F R.rm neg m e).1
  obtain ⟨hr, hnx⟩ := roundAt_spec (neg := neg) (e := e) (q := F.emin - F.fw) hrm hm h (by unfold topExp at htop; omega)
  have hle : (roundAt R.rm neg m e (F.emin - F.fw)).1 ≤ 2 ^ F.fw := by
    refine hr.le_of_ge (div_two_zpow_le_iff.mpr ?_)
    rw [two_pow_mul_zpow, add_sub_cancel]
    exact (h.binade hm).2.le.trans (zpow_le_zpow_right₀ one_le_two (by omega))
  obtain ⟨hlt, k, e', hun, hval⟩ := unpack_low hF neg hle
  rw [roundFin_tiny hm htiny, if_neg (by simp [hftz])]
  refine finiteResult_of_roundsTo hF hA le_rfl (fun hlt => absurd hlt (lt_irrefl _)) hr ?_ hlt hun hval hnx (fun _ => rfl)
    (absurd htiny)
  have := zero_mod_two hF neg
  omega

/-- A value in the range of the normal ones is rounded in the unit of its binade. -/
theorem finiteResult_normal (hF : F.Ieee) (hrm : R.rm < 4) (h : Stands F.fw m x) (hm : m ≠ 0)
    (hlow : F.emin ≤ roundedExp F R.rm neg m e) (hhigh : roundedExp F R.rm neg m e ≤ F.bias) :
    FiniteResult F R.rm neg (signOf neg * (x * 2 ^ e)) (roundedExp F R.rm neg m e < F.emin) (roundFin F R neg m e) := by
  have hA : 0 < x * 2 ^ e := by have := h.pos hm; positivity
  have hew : (2 : Int) ^ F.ew = 2 * F.bias + 2 := by exact_mod_cast hF.two_pow_ew
  obtain ⟨hsig, hsig'⟩ := roundedSig_bounds (neg := neg) (e := e) hrm h hm
  have hr := roundedSig_roundsTo (neg := neg) (e := e) hrm h hm
  have hnx := (roundAt_spec (neg := neg) (e := e) hrm hm h le_rfl).2
  have hnx : (roundAt R.rm neg m e (topExp m e - F.fw)).2 = false ↔
      (roundedSig F R.rm neg m e : ℝ) = x * 2 ^ e / 2 ^ (topExp m e - F.fw) := (roundAt_spec hrm hm h le_rfl).2
  have hbinade : ((2 ^ F.fw : Nat) : ℝ) * (2 : ℝ) ^ (topExp m e - F.fw) ≤ x * 2 ^ e := by
    rw [two_pow_mul_zpow, add_sub_cancel]
    exact (h.binade hm).1
  have hnottiny : roundedExp F R.rm neg m e < F.emin → 16 = 24 := fun ht => absurd hlow (not_le.mpr ht)
  rw [roundFin_normal hm hlow (by omega)]
  by_cases hcarry : roundedSig F R.rm neg m e = 2 ^ (F.fw + 1)
  · have hE := roundedExp_of_carry hcarry
    obtain ⟨hlt, hun, hpar⟩ := unpack_high hF neg hlow hhigh le_rfl (Nat.pow_lt_pow_succ one_lt_two)
    have heven := Nat.two_pow_mod_two_eq_zero.mpr hF.fw_pos
    rw [if_pos hcarry]
    rw [hcarry] at hr hnx
    rcases le_or_gt F.emin (topExp m e) with htop | htop
    · refine finiteResult_of_roundsTo hF hA (by omega) (fun _ => hbinade) hr (fun _ => hpar.trans heven) hlt hun ?_
        hnx hnottiny (fun _ => rfl)
      rw [hE, two_pow_mul_zpow, two_pow_mul_zpow]
      push_cast
      ring_nf
    · have hQ : F.emin - F.fw = topExp m e - F.fw + 1 := by omega
      have hhalf : x * 2 ^ e / (2 : ℝ) ^ (F.emin - F.fw) = x * 2 ^ e / 2 ^ (topExp m e - F.fw) / 2 := by
        rw [hQ, zpow_add_one₀ two_ne_zero, div_mul_eq_div_div]
      rw [pow_succ'] at hr hnx
      refine finiteResult_of_roundsTo hF hA le_rfl (fun hlt => absurd hlt (lt_irrefl _)) (n := 2 ^ F.fw) ?_
        (fun _ => hpar.trans heven) hlt hun (by rw [show roundedExp F R.rm neg m e = F.emin by omega]) ?_ hnottiny (fun _ => rfl)
      · rw [hhalf]
        exact hr.half
      · rw [hhalf, hnx, eq_div_iff two_ne_zero]
        push_cast
        rw [mul_comm]
  · obtain ⟨hlt, hun, hpar⟩ := unpack_high hF neg hlow hhigh hsig (lt_of_le_of_ne hsig' hcarry)
    have hE := roundedExp_of_ne hcarry
    rw [if_neg hcarry]
    refine finiteResult_of_roundsTo hF hA (by omega) (fun _ => hbinade) hr (fun hn => hpar.trans hn) hlt hun (by rw [hE])
      hnx hnottiny (fun _ => rfl)

end

/-- `roundFin` rounds every non-zero value `x` × 2^`e` for which `m` stands. -/
theorem roundFin_rounded_of_stands {F : Fmt} (hF : F.Ieee) {R : Rounding} (hrm : R.rm < 4) (neg : Bool) {m : Nat} (hm : m ≠ 0)
    (e : Int) {x : ℝ} (h : Stands F.fw m x) :
    Claims.Rounded F R (signOf neg * (x * 2 ^ e)) (roundFin F R neg m e) := by
  have hx := h.pos hm
  have hneg : decide (signOf neg * (x * 2 ^ e) < 0) = neg := by simp [signOf_mul_neg_iff (by positivity : 0 < x * 2 ^ e)]
  have hew : (2 : Int) ^ F.ew = 2 * F.bias + 2 := by exact_mod_cast hF.two_pow_ew
  have hemin : F.emin = 1 - F.bias := rfl
  unfold Claims.Rounded
  simp only [hneg, huge_iff hrm h hm, tiny_iff hrm h hm]
  refine ⟨fun hhuge => ?_, fun htiny hftz => ?_, fun hhuge hflush => ?_⟩
  · rw [roundFin_huge hm (by omega) (by omega), overflowed_eq hrm]
  · rw [roundFin_tiny hm htiny, if_pos hftz]
  · rcases lt_or_ge (roundedExp F R.rm neg m e) F.emin with htiny | hlow
    · exact finiteResult_tiny hF hrm h hm htiny (Bool.eq_false_of_not_eq_true fun hftz => hflush ⟨htiny, hftz⟩)
    · exact finiteResult_normal hF hrm h hm hlow (not_lt.mp hhuge)

/-- `roundFin` rounds every non-zero finite value (R69, R71, R72). -/
theorem roundFin_rounded {F : Fmt} (hF : F.Ieee) {R : Rounding} (hrm : R.rm < 4) (neg : Bool) {m : Nat} (hm : m ≠ 0) (e : Int) :
    Claims.Rounded F R (Claims.valueOf neg m e : Rat) (roundFin F R neg m e) := by
  rw [valueOf_real]
  exact roundFin_rounded_of_stands hF hrm neg hm e (stands_self _ m)

end Sys2Proof.Machine
end

section
/-!
The single-step operations (R68 to R72): what each gives for NaNs, for infinities and for finite operands, whose exact result
is rounded once.
-/

namespace Sys2Proof.Machine

/-! ### Exact results rounded once -/

theorem valueOf_eq_zero_iff {neg : Bool} {m : Nat} {e : Int} : Claims.valueOf neg m e = 0 ↔ m = 0 := by
  have he : (2 : Rat) ^ e ≠ 0 := by positivity
  cases neg <;> simp [Claims.valueOf, he]

theorem signOf_bne (s t : Bool) : signOf (s != t) = signOf s * signOf t := by cases s <;> cases t <;> norm_num [signOf]

/-- A value for which `m` stands is delivered rounded, a zero with its sign and no flag. -/
theorem gives_roundFin {c : Fp} (hF : c.F.Ieee) (hrm : c.R.rm < 4) (neg : Bool) {m : Nat} (e : Int) {x : ℝ}
    (h : Stands c.F.fw m x) : Claims.Gives c (signOf neg * (x * 2 ^ e)) neg (roundFin c.F c.R neg m e) := by
  rcases eq_or_ne m 0 with rfl | hm
  · have hx : x = 0 := by simpa [Stands] using h
    exact ⟨fun _ => roundFin_zero .., fun hv => absurd (by simp [hx]) hv⟩
  · have := h.pos hm
    have hsign : signOf neg ≠ 0 := left_ne_zero_of_mul_eq_one (signOf_mul_self neg)
    exact ⟨fun hv => absurd hv (by positivity), fun _ => roundFin_rounded_of_stands hF hrm neg hm e h⟩

/-- A finite value in units of 2^`q`. -/
theorem scaled_real (neg : Bool) (m : Nat) {e q : Int} (h : q ≤ e) :
    (scaled neg m e q : ℝ) * 2 ^ q = signOf neg * (m * 2 ^ e) := by
  obtain ⟨k, rfl⟩ := Int.le.dest h
  rw [zpow_add₀ two_ne_zero, zpow_natCast]
  cases neg <;> simp [scaled, signOf] <;> ring

theorem signOf_mul_natAbs (z : Int) : signOf (decide (z < 0)) * (z.natAbs : ℝ) = z := by
  rw [Nat.cast_natAbs]
  rcases lt_or_ge z 0 with hz | hz
  · simp [signOf, hz, abs_of_neg hz]
  · simp [signOf, not_lt.mpr hz, abs_of_nonneg hz]

/-- A whole number of units is rounded once, with a chosen sign of zero. -/
theorem gives_units {c : Fp} (hF : c.F.Ieee) (hrm : c.R.rm < 4) (zero : Bool) (z q : Int) :
    Claims.Gives c (z * 2 ^ q) zero
      (deliver c.F c.R (if z = 0 then .fin zero 0 0 else .fin (decide (z < 0)) z.natAbs q)) := by
  split_ifs with hz
  · exact ⟨fun _ => rfl, fun hv => absurd (by simp [hz]) hv⟩
  · have hround := roundFin_rounded_of_stands hF hrm (decide (z < 0)) (Int.natAbs_ne_zero.mpr hz) q (stands_self _ _)
    rw [← mul_assoc, signOf_mul_natAbs] at hround
    have hzR : (z : ℝ) ≠ 0 := by exact_mod_cast hz
    exact ⟨fun hv => absurd hv (by positivity), fun _ => hround⟩

/-- The sum of two finite values is rounded once; an exact zero of opposite signs has the sign that RM gives it (R71). -/
theorem gives_sumFin {c : Fp} (hF : c.F.Ieee) (hrm : c.R.rm < 4) (s : Bool) (m : Nat) (e : Int) (t : Bool) (n : Nat) (f : Int) :
    Claims.Gives c (signOf s * (m * 2 ^ e) + signOf t * (n * 2 ^ f)) (if s = t then s else c.R.rm == 2)
      (deliver c.F c.R (sumFin c.R.rm s m e t n f)) := by
  have hsum : signOf s * (m * (2 : ℝ) ^ e) + signOf t * (n * 2 ^ f) =
      ((scaled s m e (min e f) + scaled t n f (min e f) : Int) : ℝ) * 2 ^ min e f := by
    rw [← scaled_real s m (min_le_left e f), ← scaled_real t n (min_le_right e f)]
    push_cast
    ring
  rw [hsum]
  exact gives_units hF hrm _ _ _

/-- A whole part of at least `f` + 3 bits, doubled, with a last bit that stands for what is missing. -/
theorem stands_sticky {f q : Nat} {y : ℝ} {isExact : Prop} [Decidable isExact] (hlo : (q : ℝ) ≤ y) (hhi : y < q + 1)
    (hexact : isExact ↔ y = q) (hbig : y ≠ q → 2 ^ (f + 2) ≤ q) : Stands f (2 * q + if isExact then 0 else 1) (2 * y) := by
  split_ifs with h
  · left
    rw [hexact.mp h]
    push_cast
    ring
  · have hne := mt hexact.mpr h
    have hpow : 2 ^ (f + 3) = 2 * 2 ^ (f + 2) := by ring
    have := hbig hne
    have hlt : (q : ℝ) < y := lt_of_le_of_ne hlo (Ne.symm hne)
    refine .inr ⟨by omega, by omega, ?_⟩
    push_cast
    rw [abs_lt]
    constructor <;> linarith

/-- The quotient's whole part stands, with its last bit, for the quotient. -/
theorem stands_quotient {f m n k : Nat} (hn : n ≠ 0) (hk : k = f + 4 + Nat.log2 n) :
    Stands f (2 * (m * 2 ^ k / n) + if m * 2 ^ k % n = 0 then 0 else 1) (2 * ((m * 2 ^ k : ℝ) / n)) := by
  have hnpos : (0 : ℝ) < n := by positivity
  have hdiv : ((m * 2 ^ k : ℝ)) / n = (m * 2 ^ k / n : Nat) + ((m * 2 ^ k % n : Nat) : ℝ) / n := by
    rw [div_eq_iff hnpos.ne', add_mul, div_mul_cancel₀ _ hnpos.ne']
    exact_mod_cast (Nat.div_add_mod' (m * 2 ^ k) n).symm
  have hr : ((m * 2 ^ k % n : Nat) : ℝ) / n < 1 := by
    rw [div_lt_one hnpos]
    exact_mod_cast Nat.mod_lt _ (Nat.pos_of_ne_zero hn)
  refine stands_sticky ?_ ?_ ?_ fun hne => ?_
  · rw [hdiv]
    have : 0 ≤ ((m * 2 ^ k % n : Nat) : ℝ) / n := by positivity
    linarith
  · linarith
  · rw [hdiv, add_eq_left, div_eq_zero_iff]
    simp [hn]
  · have hm : 1 ≤ m := Nat.one_le_iff_ne_zero.mpr fun h => hne (by simp [h])
    have hlog : n < 2 ^ (Nat.log2 n + 1) := Nat.lt_log2_self
    rw [Nat.le_div_iff_mul_le (Nat.pos_of_ne_zero hn)]
    calc 2 ^ (f + 2) * n ≤ 2 ^ (f + 2) * 2 ^ (Nat.log2 n + 1) := by gcongr
      _ ≤ 1 * 2 ^ k := by
        rw [← Nat.pow_add, one_mul]
        exact Nat.pow_le_pow_right (by decide) (by omega)
      _ ≤ m * 2 ^ k := by gcongr

theorem isqrtFrom_bounds (x : Nat) : ∀ n r : Nat, r * r ≤ x → x < (r + 2 ^ n) * (r + 2 ^ n) →
    isqrtFrom x n r * isqrtFrom x n r ≤ x ∧ x < (isqrtFrom x n r + 1) * (isqrtFrom x n r + 1)
  | 0, _, hlo, hhi => ⟨hlo, hhi⟩
  | n + 1, r, hlo, hhi => by
    rw [isqrtFrom]
    split_ifs with h
    · exact isqrtFrom_bounds x n _ h (by rwa [Nat.add_assoc, ← Nat.two_mul, ← Nat.pow_succ'])
    · exact isqrtFrom_bounds x n r hlo (not_le.mp h)

theorem isqrt_eq_sqrt (x : Nat) : isqrt x = Nat.sqrt x := by
  have hx : x < 2 ^ (Nat.log2 x / 2 + 1) * 2 ^ (Nat.log2 x / 2 + 1) := by
    rw [← Nat.pow_add]
    exact Nat.lt_log2_self.trans_le (Nat.pow_le_pow_right (by decide) (by omega))
  obtain ⟨hlo, hhi⟩ := isqrtFrom_bounds x (Nat.log2 x / 2 + 1) 0 (Nat.zero_le _) (by simpa using hx)
  exact Nat.eq_sqrt.mpr ⟨hlo, hhi⟩

/-- The root's whole part stands, with its last bit, for the root. -/
theorem stands_root {f x : Nat} (hx : 2 ^ (2 * (f + 4)) ≤ x) :
    Stands f (2 * isqrt x + if isqrt x * isqrt x = x then 0 else 1) (2 * √(x : ℝ)) := by
  rw [isqrt_eq_sqrt]
  refine stands_sticky ?_ ?_ ?_ fun _ => ?_
  · exact Real.nat_sqrt_le_real_sqrt
  · exact Real.real_sqrt_lt_nat_sqrt_succ
  · rw [Real.sqrt_eq_iff_mul_self_eq (by positivity) (by positivity)]
    norm_cast
    exact eq_comm
  · rw [Nat.le_sqrt, ← Nat.pow_add]
    exact (Nat.pow_le_pow_right (by decide) (by omega)).trans hx

end Sys2Proof.Machine
end

section
/-!
The single-step operations on patterns (R68 to R72), and the obligation on rounding.
-/

namespace Sys2Proof.Machine

/-! ### NaN operands -/

@[simp] theorem deliver_nan (F : Fmt) (R : Rounding) (nv : Bool) : deliver F R (.nan nv) = (F.nan, if nv then 1 else 0) := rfl
@[simp] theorem deliver_inf (F : Fmt) (R : Rounding) (neg : Bool) : deliver F R (.inf neg false) = (F.inf neg, 0) := rfl
@[simp] theorem deliver_inf_of_zero_divisor (F : Fmt) (R : Rounding) (neg : Bool) :
    deliver F R (.inf neg true) = (F.inf neg, 2) := rfl
@[simp] theorem deliver_zero (F : Fmt) (R : Rounding) (neg : Bool) (e : Int) :
    deliver F R (.fin neg 0 e) = (F.zero neg, 0) := roundFin_zero F R neg e

@[simp] theorem isZero_fin (s : Bool) (m : Nat) (e : Int) : (Num.fin s m e).isZero = decide (m = 0) := by cases m <;> rfl

@[simp] theorem isZero_inf (s : Bool) : (Num.inf s).isZero = false := rfl

theorem eq_nan_of_isNan {u : Num} (h : u.isNan = true) : u = .nan u.isSig := by
  cases u with
  | nan g => rfl
  | inf s => cases h
  | fin s m e => cases h

section
variable {u v : Num} (h : u.isNan = true ∨ v.isNan = true)
include h

theorem addNum_of_nan (rm : Nat) : addNum rm u v = .nan (u.isSig || v.isSig) := by
  rcases h with h | h <;> rw [eq_nan_of_isNan h]
  · rfl
  · cases u <;> rfl
theorem mulNum_of_nan : mulNum u v = .nan (u.isSig || v.isSig) := by
  rcases h with h | h <;> rw [eq_nan_of_isNan h]
  · rfl
  · cases u <;> rfl
theorem divNum_of_nan (fw : Nat) : divNum fw u v = .nan (u.isSig || v.isSig) := by
  rcases h with h | h <;> rw [eq_nan_of_isNan h]
  · rfl
  · cases u <;> rfl

end

theorem sqrtNum_of_nan {u : Num} (h : u.isNan = true) (fw : Nat) : sqrtNum fw u = .nan u.isSig := by
  rw [eq_nan_of_isNan h]
  rfl
theorem fmaNum_of_nan {u v w : Num} (h : u.isNan = true ∨ v.isNan = true ∨ w.isNan = true) (rm : Nat) :
    fmaNum rm u v w = .nan (u.isSig || v.isSig || w.isSig) :=
  if_pos (by simpa [or_assoc] using h)

/-! ### Infinities and products -/

theorem mulNum_comm (u v : Num) : mulNum u v = mulNum v u := by
  cases u <;> cases v <;>
    simp [mulNum, Bool.or_comm, bne_comm, Nat.mul_comm, Int.add_comm, Num.isSig, Num.neg?]

theorem fmaNum_comm (rm : Nat) (u v w : Num) : fmaNum rm u v w = fmaNum rm v u w := by
  unfold fmaNum
  rw [mulNum_comm u v, Bool.or_comm u.isSig, Bool.or_comm u.isNan]

theorem not_isNan_of_mulNum {u v : Num} (h : ∀ g, mulNum u v ≠ .nan g) : u.isNan = false ∧ v.isNan = false := by
  constructor <;> refine Bool.eq_false_of_not_eq_true fun hn => h _ (mulNum_of_nan ?_)
  · exact .inl hn
  · exact .inr hn

section
variable {u v w : Num} (hw : w.isNan = false)
include hw

/-- An infinite product is the first term of the sum. -/
theorem fmaNum_of_mul_inf {s dz : Bool} (h : mulNum u v = .inf s dz) (rm : Nat) : fmaNum rm u v w = addNum rm (.inf s) w := by
  obtain ⟨hu, hv⟩ := not_isNan_of_mulNum (u := u) (v := v) (by simp [h])
  simp [fmaNum, hu, hv, hw, h]
/-- A finite product is the first term of the sum. -/
theorem fmaNum_of_mul_fin {s : Bool} {m : Nat} {e : Int} (h : mulNum u v = .fin s m e) (rm : Nat) :
    fmaNum rm u v w = addNum rm (.fin s m e) w := by
  obtain ⟨hu, hv⟩ := not_isNan_of_mulNum (u := u) (v := v) (by simp [h])
  simp [fmaNum, hu, hv, hw, h]
/-- An invalid product of operands that are no NaNs is invalid. -/
theorem fmaNum_of_mul_nan {g : Bool} (hu : u.isNan = false) (hv : v.isNan = false) (h : mulNum u v = .nan g) (rm : Nat) :
    fmaNum rm u v w = .nan true := by
  simp [fmaNum, hu, hv, hw, h]

end

theorem mulNum_inf_fin (s t : Bool) (n : Nat) (f : Int) :
    mulNum (.inf s) (.fin t n f) = if n = 0 then .nan true else .inf (s != t) false := by
  simp [mulNum, Num.neg?]

theorem addNum_fin (rm : Nat) (s t : Bool) (m n : Nat) (e f : Int) :
    addNum rm (.fin s m e) (.fin t n f) = sumFin rm s m e t n f := rfl
theorem mulNum_fin (s t : Bool) (m n : Nat) (e f : Int) :
    mulNum (.fin s m e) (.fin t n f) = .fin (s != t) (m * n) (e + f) := rfl

/-- The quotient of finite values, with the last bit for its remainder. -/
theorem divNum_fin {n : Nat} (hn : n ≠ 0) (fw : Nat) (s t : Bool) (m : Nat) (e f : Int) :
    let k := fw + 4 + Nat.log2 n
    divNum fw (.fin s m e) (.fin t n f) =
      .fin (s != t) (2 * (m * 2 ^ k / n) + if m * 2 ^ k % n = 0 then 0 else 1) (e - f - (k : Int) - 1) := if_neg hn
theorem divNum_fin_zero (fw : Nat) (s t : Bool) (m : Nat) (e f : Int) :
    divNum fw (.fin s m e) (.fin t 0 f) = if m = 0 then .nan true else .inf (s != t) true := rfl

theorem sqrtNum_zero (fw : Nat) (s : Bool) (e : Int) : sqrtNum fw (.fin s 0 e) = .fin s 0 0 := rfl
theorem sqrtNum_neg {m : Nat} (hm : m ≠ 0) (fw : Nat) (e : Int) : sqrtNum fw (.fin true m e) = .nan true := if_neg hm
/-- The extra bits under a root, which make its exponent even. -/
def rootShift (fw : Nat) (e : Int) : Nat := 2 * (fw + 4) + if e % 2 = 0 then 0 else 1
/-- The extra bits are enough for the root of any format. -/
theorem two_pow_le_mul_rootShift {m : Nat} (hm : m ≠ 0) (fw : Nat) (e : Int) : 2 ^ (2 * (fw + 4)) ≤ m * 2 ^ rootShift fw e :=
  (Nat.pow_le_pow_right (by decide) (by unfold rootShift; omega)).trans (Nat.le_mul_of_pos_left _ (Nat.pos_of_ne_zero hm))
/-- The root of a positive value, with the last bit for its remainder. -/
theorem sqrtNum_pos {m : Nat} (hm : m ≠ 0) (fw : Nat) (e : Int) :
    let x := m * 2 ^ rootShift fw e
    sqrtNum fw (.fin false m e) =
      .fin false (2 * isqrt x + if isqrt x * isqrt x = x then 0 else 1) ((e - (rootShift fw e : Int)) / 2 - 1) := if_neg hm

/-- A sum of infinities, where they may have opposite signs (R69). -/
theorem deliver_addNum_inf_inf (F : Fmt) (R : Rounding) (rm : Nat) (s t : Bool) :
    deliver F R (addNum rm (.inf s) (.inf t)) = if s = t then (F.inf s, 0) else (F.nan, 1) := by
  change deliver F R (if s = t then .inf s false else .nan true) = _
  split_ifs <;> simp

/-! ### What is read -/

/-- A finite operand, as the model's sign, significand and exponent, and as a real number. -/
theorem reads_real {c : Fp} {x : Nat} {s : Bool} {v : Rat} (h : Claims.Reads c x s v) :
    ∃ m e, c.read x = .fin s m e ∧ (v : ℝ) = signOf s * (m * 2 ^ e) ∧ (v = 0 ↔ m = 0) := by
  obtain ⟨m, e, hx, rfl⟩ := h
  exact ⟨m, e, hx, valueOf_real s m e, valueOf_eq_zero_iff⟩

theorem signed_mul (s t : Bool) (m n : Nat) (e f : Int) :
    signOf s * (m * (2 : ℝ) ^ e) * (signOf t * (n * 2 ^ f)) = signOf (s != t) * ((m * n : Nat) * 2 ^ (e + f)) := by
  rw [signOf_bne, zpow_add₀ two_ne_zero]
  push_cast
  ring

section
variable {c : Fp} {x y z : Nat}

/-! ### Operations with an infinite operand -/

theorem Fp.ops_inf_inf {s t : Bool} (hx : c.read x = .inf s) (hy : c.read y = .inf t) :
    c.add x y = (if s = t then (c.F.inf s, 0) else (c.F.nan, 1)) ∧ c.mul x y = (c.F.inf (s != t), 0) ∧
      c.div x y = (c.F.nan, 1) := by
  unfold Fp.add Fp.mul Fp.div
  rw [hx, hy]
  exact ⟨deliver_addNum_inf_inf .., rfl, rfl⟩

theorem Fp.ops_inf_fin {s t : Bool} {v : Rat} (hx : c.read x = .inf s) (hy : Claims.Reads c y t v) :
    c.add x y = (c.F.inf s, 0) ∧ c.add y x = (c.F.inf s, 0) ∧ c.div x y = (c.F.inf (s != t), 0) ∧
      c.div y x = (c.F.zero (s != t), 0) ∧ c.mul x y = c.mul y x ∧
      c.mul x y = if v = 0 then (c.F.nan, 1) else (c.F.inf (s != t), 0) := by
  obtain ⟨n, f, hy, -, hv⟩ := reads_real hy
  unfold Fp.add Fp.mul Fp.div
  rw [hx, hy, mulNum_comm (.fin t n f), mulNum_inf_fin]
  refine ⟨rfl, rfl, rfl, ?_, rfl, ?_⟩
  · rw [bne_comm]
    exact deliver_zero ..
  · simp only [hv]
    split_ifs <;> rfl

theorem Fp.sqrt_inf {s : Bool} (hx : c.read x = .inf s) : c.sqrt x = if s then (c.F.nan, 1) else (c.F.inf false, 0) := by
  unfold Fp.sqrt
  rw [hx]
  cases s <;> rfl

/-- A fused product that is infinite. -/
theorem Fp.fma_inf_product {s t : Bool}
    (h : (c.read x = .inf s ∧ ∃ u, Claims.Reads c y t u ∧ u ≠ 0) ∨ c.read x = .inf s ∧ c.read y = .inf t) :
    (∀ n, c.read z = .inf n → c.fma x y z = if n = (s != t) then (c.F.inf n, 0) else (c.F.nan, 1)) ∧
      ∀ n w, Claims.Reads c z n w → c.fma x y z = (c.F.inf (s != t), 0) := by
  have hmul : mulNum (c.read x) (c.read y) = .inf (s != t) false := by
    rcases h with ⟨hx, u, hy, hu⟩ | ⟨hx, hy⟩
    · obtain ⟨n, f, hy, -, hv⟩ := reads_real hy
      rw [hx, hy, mulNum_inf_fin, if_neg (mt hv.mpr hu)]
    · rw [hx, hy]
      rfl
  unfold Fp.fma
  refine ⟨fun n hz => ?_, fun n w hz => ?_⟩
  · rw [fmaNum_of_mul_inf (by rw [hz]; rfl) hmul, hz, deliver_addNum_inf_inf]
    by_cases h : n = (s != t)
    · simp [h]
    · simp [h, Ne.symm h]
  · obtain ⟨m, e, hz, -, -⟩ := reads_real hz
    rw [fmaNum_of_mul_inf (by rw [hz]; rfl) hmul, hz]
    rfl

/-- A fused product of an infinity and a zero is invalid. -/
theorem Fp.fma_inf_zero {s t : Bool} (hx : c.read x = .inf s) (hy : Claims.Reads c y t 0) (hz : (c.read z).isNan = false) :
    c.fma x y z = (c.F.nan, 1) := by
  obtain ⟨n, f, hy, -, hv⟩ := reads_real hy
  unfold Fp.fma
  rw [fmaNum_of_mul_nan hz (g := true) (by rw [hx]; rfl) (by rw [hy]; rfl)
    (by rw [hx, hy, mulNum_inf_fin, if_pos (hv.mp rfl)])]
  rfl

/-! ### Operations on finite operands -/

/-- The quotient of finite values, in terms of the quotient of whole numbers that the model forms. -/
theorem quotient_in_units (s t : Bool) (m : Nat) {n : Nat} (hn : n ≠ 0) (e f : Int) (k : Nat) :
    signOf s * (m * (2 : ℝ) ^ e) / (signOf t * (n * 2 ^ f)) =
      signOf (s != t) * (2 * ((m * 2 ^ k : ℝ) / n) * 2 ^ (e - f - (k : Int) - 1)) := by
  have hsq := signOf_mul_self t
  have ht : signOf t ≠ 0 := left_ne_zero_of_mul_eq_one hsq
  have hnR : (n : ℝ) ≠ 0 := by exact_mod_cast hn
  rw [signOf_bne, zpow_sub₀ two_ne_zero, zpow_sub₀ two_ne_zero, zpow_sub₀ two_ne_zero, zpow_natCast, zpow_one]
  field_simp
  linear_combination (-(signOf s * m)) * hsq

/-- The root of a positive value, in terms of the whole number under the model's root. -/
theorem sqrt_in_units (m fw : Nat) (e : Int) :
    √(signOf false * (m * (2 : ℝ) ^ e)) =
      signOf false * (2 * √((m * 2 ^ rootShift fw e : Nat) : ℝ) * 2 ^ ((e - (rootShift fw e : Int)) / 2 - 1)) := by
  have heven : e = rootShift fw e + 2 * ((e - (rootShift fw e : Int)) / 2) := by
    unfold rootShift
    split_ifs <;> omega
  generalize hh : (e - (rootShift fw e : Int)) / 2 = h at heven ⊢
  have hval : m * (2 : ℝ) ^ e = ((m * 2 ^ rootShift fw e : Nat) : ℝ) * (2 ^ h) ^ 2 := by
    conv_lhs => rw [heven, zpow_add₀ two_ne_zero, zpow_natCast, mul_comm 2 h, zpow_mul]
    push_cast
    rw [← mul_assoc]
    norm_cast
  rw [hval, zpow_sub_one₀ two_ne_zero]
  simp only [signOf, Bool.false_eq_true, if_false, one_mul]
  rw [Real.sqrt_mul (by positivity), Real.sqrt_sq (by positivity)]
  ring

theorem Fp.div_zero {s t : Bool} {v u : Rat} (hx : Claims.Reads c x s v) (hy : Claims.Reads c y t u) (hu0 : u = 0) :
    c.div x y = if v = 0 then (c.F.nan, 1) else (c.F.inf (s != t), 2) := by
  obtain ⟨m, e, hx, -, hm⟩ := reads_real hx
  obtain ⟨n, f, hy, -, hn⟩ := reads_real hy
  unfold Fp.div
  rw [hx, hy, hn.mp hu0, divNum_fin_zero]
  simp only [hm]
  split_ifs <;> simp

theorem Fp.fma_fin_inf {s t n : Bool} {v u : Rat} (hx : Claims.Reads c x s v) (hy : Claims.Reads c y t u)
    (hz : c.read z = .inf n) : c.fma x y z = (c.F.inf n, 0) := by
  obtain ⟨m, e, hx, -⟩ := reads_real hx
  obtain ⟨k, f, hy, -⟩ := reads_real hy
  unfold Fp.fma
  rw [hx, hy, hz, fmaNum_of_mul_fin rfl (mulNum_fin ..)]
  rfl

section
variable (hF : c.F.Ieee) (hrm : c.R.rm < 4) {s t : Bool} {v u : Rat} (hx : Claims.Reads c x s v) (hy : Claims.Reads c y t u)
include hF hrm hx

theorem Fp.sqrt_fin : (v = 0 → c.sqrt x = (c.F.zero s, 0)) ∧ (v < 0 → c.sqrt x = (c.F.nan, 1)) ∧
    (0 < v → Claims.Rounded c.F c.R (√(v : ℝ)) (c.sqrt x)) := by
  obtain ⟨m, e, hx, hv, hm⟩ := reads_real hx
  unfold Fp.sqrt
  rw [hx]
  refine ⟨fun h0 => ?_, fun hlt => ?_, fun hpos => ?_⟩
  · rw [hm.mp h0, sqrtNum_zero]
    exact deliver_zero ..
  · have hlt' : (v : ℝ) < 0 := by exact_mod_cast hlt
    have hm0 := mt hm.mpr hlt.ne
    rw [hv, signOf_mul_neg_iff (by positivity)] at hlt'
    rw [hlt', sqrtNum_neg hm0]
    rfl
  · have hpos' : (0 : ℝ) < v := by exact_mod_cast hpos
    have hm0 := mt hm.mpr hpos.ne'
    have hA : 0 < m * (2 : ℝ) ^ e := by positivity
    obtain rfl : s = false := by
      by_contra hs
      have := (signOf_mul_neg_iff (neg := s) hA).mpr (Bool.eq_true_of_not_eq_false hs)
      linarith
    have hroot : 0 < isqrt (m * 2 ^ rootShift c.F.fw e) := by
      rw [isqrt_eq_sqrt]
      exact Nat.sqrt_pos.mpr (by positivity)
    rw [hv, sqrtNum_pos hm0, sqrt_in_units m c.F.fw e]
    exact roundFin_rounded_of_stands hF hrm false (by omega) _ (stands_root (two_pow_le_mul_rootShift hm0 c.F.fw e))

include hy

theorem Fp.add_fin : Claims.Gives c ((v + u : Rat) : ℝ) (if s = t then s else c.R.rm == 2) (c.add x y) := by
  obtain ⟨m, e, hx, hv, -⟩ := reads_real hx
  obtain ⟨n, f, hy, hu, -⟩ := reads_real hy
  unfold Fp.add
  rw [hx, hy, Rat.cast_add, hv, hu]
  exact gives_sumFin hF hrm s m e t n f

theorem Fp.mul_fin : Claims.Gives c ((v * u : Rat) : ℝ) (s != t) (c.mul x y) := by
  obtain ⟨m, e, hx, hv, -⟩ := reads_real hx
  obtain ⟨n, f, hy, hu, -⟩ := reads_real hy
  unfold Fp.mul
  rw [hx, hy, Rat.cast_mul, hv, hu, signed_mul]
  exact gives_roundFin hF hrm (s != t) (e + f) (stands_self _ (m * n))

theorem Fp.div_fin (hu0 : u ≠ 0) : Claims.Gives c ((v / u : Rat) : ℝ) (s != t) (c.div x y) := by
  obtain ⟨m, e, hx, hv, -⟩ := reads_real hx
  obtain ⟨n, f, hy, hu, hn⟩ := reads_real hy
  have hn0 := mt hn.mpr hu0
  unfold Fp.div
  rw [hx, hy, Rat.cast_div, hv, hu, divNum_fin hn0, quotient_in_units s t m hn0]
  exact gives_roundFin hF hrm (s != t) _ (stands_quotient hn0 rfl)

theorem Fp.fma_fin {n : Bool} {w : Rat} (hz : Claims.Reads c z n w) :
    Claims.Gives c ((v * u + w : Rat) : ℝ) (if n = (s != t) then n else c.R.rm == 2) (c.fma x y z) := by
  obtain ⟨m, e, hx, hv, -⟩ := reads_real hx
  obtain ⟨k, f, hy, hu, -⟩ := reads_real hy
  obtain ⟨l, g, hz, hw, -⟩ := reads_real hz
  have hsum := gives_sumFin hF hrm (s != t) (m * k) (e + f) n l g
  unfold Fp.fma
  rw [hx, hy, hz, fmaNum_of_mul_fin rfl (mulNum_fin ..), addNum_fin, Rat.cast_add, Rat.cast_mul, hv, hu, hw, signed_mul]
  by_cases h : n = (s != t)
  · simpa [h] using hsum
  · rw [if_neg (Ne.symm h)] at hsum
    rwa [if_neg h]

end
end

/-! ### The obligation -/

theorem ieee_of_mem_vector {F : Fmt} (h : F ∈ [fp64, fp32, bf16, fp16]) : F.Ieee :=
  ieee_of_mem (List.mem_append_left [e5m2] h)

/-- Settles O13: the rounded significand and the rounded exponent decide overflow and tininess as the exact value does, a last
bit standing for the remainders of quotients and roots; NaNs and infinities are the cases of each operation. -/
theorem roundingIsCorrect : Obligations.RoundingIsCorrect := by
  unfold Obligations.RoundingIsCorrect
  refine ⟨fun F R neg m e hF hrm hm => roundFin_rounded (ieee_of_mem hF) hrm neg hm e, fun c x y z hmem hrm => ?_⟩
  have hF := ieee_of_mem_vector hmem
  refine ⟨fun h => ⟨?_, ?_, ?_⟩, fun h => ?_, fun h => ?_, ?_, fun s t hx hy => Fp.ops_inf_inf hx hy,
    fun s t v hx hy => Fp.ops_inf_fin hx hy, fun s hx => Fp.sqrt_inf hx, fun s t v u hx hy => ?_,
    fun s t h => Fp.fma_inf_product h, fun s t hx hy hz => Fp.fma_inf_zero hx hy hz, fun s v hx => Fp.sqrt_fin hF hrm hx⟩
  · simp [Fp.add, addNum_of_nan h]
  · simp [Fp.mul, mulNum_of_nan h]
  · simp [Fp.div, divNum_of_nan h]
  · simp [Fp.fma, fmaNum_of_nan h, or_assoc]
  · simp [Fp.sqrt, sqrtNum_of_nan h]
  · simp [Fp.fma, fmaNum_comm _ (c.read x)]
  · exact ⟨Fp.add_fin hF hrm hx hy, Fp.mul_fin hF hrm hx hy, Fp.div_fin hF hrm hx hy, Fp.div_zero hx hy,
      fun n hz => Fp.fma_fin_inf hx hy hz, fun n w hz => Fp.fma_fin hF hrm hx hy hz⟩

end Sys2Proof.Machine
end

section
/-! # The end of a group whose context was hung (O51)

A group that is ending does not only wait for its operations: where its context was hung, its teardown first withdraws the
operations of its core's engine queues that have not started (R118). Work that was open before the teardown is then no longer
open after it, and the group ends in the same step. -/

namespace Sys2Proof.Machine

/-- A copy of group 0 that waits at the head of an engine queue for its one counted slice. -/
def waitingCopy : EngineOp :=
  { drain := false, group := 0, launch := 0, set := 0, num := 0, handle := 0, recAddr := 0, layout := {}, buf := 0, counted := [0] }

/-- Group 0 is ending, its context was hung, and its copy still waits in queue 0 of its core. -/
def hungEndingGroup : State :=
  { groups := ⟨[(0, { phase := .ending })]⟩, ctxs := ⟨[(0, { hung := true })]⟩
    clusters := ⟨[(0, { engines := ⟨[(0, [waitingCopy])]⟩ })]⟩ }

/-- The phase of group 0 after a step, `queued` where the step goes nowhere. -/
def phaseAfter (i : Instr) (s : State) : GroupPhase :=
  match exec i s with
  | .next t => (t.group 0).phase
  | _ => .queued

theorem phaseAfter_next {i : Instr} {s t : State} (h : exec i s = .next t) : phaseAfter i s = (t.group 0).phase := by
  simp [phaseAfter, h]

theorem hungEndingGroup_work_open : hungEndingGroup.workDone 0 = false := by decide

theorem hungEndingGroup_ends : phaseAfter (.groupTeardown 0) hungEndingGroup = .ended := by decide

/-- Refutes O51: the teardown of a group whose context was hung withdraws its waiting copy, so the group ends although its work
was open before the step. -/
theorem not_groupsAndLaunchesEnd : ¬ Obligations.GroupsAndLaunchesEnd := by
  unfold Obligations.GroupsAndLaunchesEnd
  rintro ⟨teardown, -, -, -⟩
  obtain ⟨t, hnext, hgroups, -⟩ :=
    ((teardown 0 hungEndingGroup).2 (by decide) (by decide) (by decide)).1 hungEndingGroup_work_open
  have hends : (t.group 0).phase = .ended := by rw [← phaseAfter_next hnext, hungEndingGroup_ends]
  have hstays : (t.group 0).phase = .ending := by simp only [State.group, hgroups]; decide
  simp [hends] at hstays

end Sys2Proof.Machine
end

section
/-! # MZERO on a memory that is not in its canonical form (O36)

The statement bounds what MZERO_EXECUTE writes in every state, also in one whose buffer is no canonical memory (rows rising,
`memWf`). A row that does not stand in its place is hidden behind a row with a higher address; clearing the tile removes the
higher row, and the hidden byte appears. -/

namespace Sys2Proof.Machine

/-- MZERO of group 0 on tile 1. -/
def zeroTileOne : MatCmd := { group := 0, wave := none, op := .mzero, tile := 16384 }

/-- The row of address 0 stands behind the row of the first byte of tile 1, so byte 0 reads as unwritten. -/
def hiddenByte : State := { cores := ⟨[(0, { c := [(16384, 1), (0, 1)], matrixQ := [zeroTileOne] })]⟩ }

/-- A byte of buffer C of core 0 after a step, 0 where the step goes nowhere. -/
def byteAfter (i : Instr) (s : State) (a : Nat) : Byte :=
  match exec i s with
  | .next t => Claims.bufByte t 0 .c a
  | _ => 0

theorem byteAfter_next {i : Instr} {s t : State} (h : exec i s = .next t) (a : Nat) :
    byteAfter i s a = Claims.bufByte t 0 .c a := by
  simp [byteAfter, h]

theorem hiddenByte_before : Claims.bufByte hiddenByte 0 .c 0 = 0 := by decide

theorem hiddenByte_after : byteAfter (.mzeroExecute 0 0) hiddenByte 0 = 1 := by decide

/-- Refutes O36: MZERO of tile 1 changes byte 0, which lies outside the tile, because the state's buffer is not canonical and
the clause on MZERO does not ask for it. -/
theorem not_matrixResults : ¬ Obligations.MatrixResults := by
  unfold Obligations.MatrixResults
  rintro ⟨-, -, -, matrixMoves, -⟩
  obtain ⟨t, hnext, hbytes, -⟩ := (matrixMoves 0 0 hiddenByte zeroTileOne (by decide) (by decide) rfl).1 rfl
  have hout : Claims.bufByte t 0 .c 0 = Claims.bufByte hiddenByte 0 .c 0 := by
    rw [hbytes 0, if_neg (by decide)]
  rw [← byteAfter_next hnext, hiddenByte_after, hiddenByte_before] at hout
  exact absurd hout (by decide)

end Sys2Proof.Machine
end

section
/-! # A drain onto its own page table (O34)

A drain's units are placed as they are written: a unit that lands on the page table of its own context changes where the next
unit goes. The statement takes every place from the state before the drain. Here the first unit clears the entry that maps the
page of the second, which then is not mapped, and the drain fails halfway though every unit could be reached when it began. -/

namespace Sys2Proof.Machine

/-- A drain of two FP32 elements from S: to 0x3008, the table entry of the page 0x10000, and to 0x13008 in that page. -/
def drainOntoTable : EngineOp :=
  { drain := true, group := 0, launch := 0, set := 0, num := 0, handle := 0, recAddr := 0, buf := 0, started := true
    layout := { base := 0x3008, format := 0, ctype := 1, dims := [(2, 0x4000, 2)] }
    slices := [{ wid := 0, starts := [0], d := 0 }] }

/-- Context 0 maps its first two pages as they stand: the top table lies at 0x1000, the middle one at 0x20000 and the bottom one
at 0x3000, in the first page. The drain is at the head of queue 0. -/
def selfMapped : State :=
  { hbm := [(0x1000, 1), (0x1002, 2), (0x3000, 0x17), (0x3008, 0x17), (0x300A, 1), (0x20000, 1), (0x20001, 0x30)]
    ctxs := ⟨[(0, { root := 0x1000 })]⟩
    clusters := ⟨[(0, { engines := ⟨[(0, [drainOntoTable])]⟩ })]⟩ }

/-- The code of a handle after a step, 0 where the step goes nowhere. -/
def codeAfter (i : Instr) (s : State) (g h : Nat) : Nat :=
  match exec i s with
  | .next t => (t.handle g h).st.code
  | _ => 0

theorem codeAfter_next {i : Instr} {s t : State} (h : exec i s = .next t) (g k : Nat) :
    codeAfter i s g k = (t.handle g k).st.code := by
  simp [codeAfter, h]

theorem selfMapped_memWf : selfMapped.memWf = true := by decide

/-- Before the drain both of its units have a place. -/
theorem selfMapped_no_fault : selfMapped.engineFault drainOntoTable = none := by decide

theorem selfMapped_tensorPieces :
    selfMapped.tensorPieces drainOntoTable = [(0x3008, .phys 0x3008 0, 4), (0x13008, .phys 0x13008 0, 4)] := by decide

theorem selfMapped_no_buffer : ∀ p ∈ selfMapped.tensorPieces drainOntoTable, ∀ u x, p.2.1 ≠ .buf u x := by
  simp [selfMapped_tensorPieces]

theorem selfMapped_drain_fails : codeAfter (.copyOperationComplete 0 0 0) selfMapped 0 0 = 1 := by decide

/-- Refutes O34: a drain whose first unit overwrites the table entry of its second unit's page ends as FAILED, where the clause
on drains of one slice has it complete. -/
theorem not_engineMoves : ¬ Obligations.EngineMoves := by
  unfold Obligations.EngineMoves
  rintro ⟨moves, -⟩
  obtain ⟨-, -, -, -, -, drains, -⟩ := moves 0 0 0 selfMapped drainOntoTable (by decide)
  obtain ⟨t, hnext, ⟨-, -, hcode⟩, -⟩ := drains rfl rfl (by decide) (by decide) selfMapped_memWf selfMapped_no_fault (by decide)
    (by decide) (by decide) (by decide) (by decide) (by decide) selfMapped_no_buffer { wid := 0, starts := [0], d := 0 } [] rfl
    (by decide) (by decide) rfl
  have hfails : (t.handle 0 0).st.code = 1 := by rw [← codeAfter_next hnext, selfMapped_drain_fails]
  exact absurd (hfails.symm.trans hcode) (by decide)

end Sys2Proof.Machine
end

section
/-! # The agenda

Much of the machine only puts moves on the agenda: units look at their work again, front ends and queues are woken. `Posts` says
so once; what such an operation leaves is then read off, field by field. -/

namespace Sys2Proof.Machine

/-- From `s` to `t` moves were put on the agenda, and nothing else happened. -/
structure Posts (s t : State) : Prop where
  same : t = { s with agenda := t.agenda }
  kept : ∀ q ∈ s.agenda, q ∈ t.agenda

theorem mem_insertDue {t : Nat} {e : Event} {l : List (Nat × Event)} {q : Nat × Event} :
    q ∈ insertDue t e l ↔ q = (t, e) ∨ q ∈ l := by
  induction l with
  | nil => simp [insertDue]
  | cons p l ih =>
    simp only [insertDue]
    split_ifs
    · rw [List.mem_cons, ih, List.mem_cons]; tauto
    · rw [List.mem_cons, List.mem_cons]

theorem State.mem_post {s : State} {d : Nat} {e : Event} {q : Nat × Event} :
    q ∈ (s.post d e).agenda ↔ q = (s.now + d, e) ∨ q ∈ s.agenda := mem_insertDue

/-- A move that is put on the agenda is due. -/
theorem State.due_post (s : State) (d : Nat) (e : Event) : Claims.Due (s.post d e) e :=
  ⟨(s.now + d, e), State.mem_post.mpr (.inl rfl), rfl⟩

theorem State.due_postOnce (s : State) (d : Nat) (e : Event) : Claims.Due (s.postOnce d e) e := by
  unfold State.postOnce
  split_ifs with h
  · obtain ⟨q, hq, he⟩ := List.any_eq_true.mp h
    exact ⟨q, hq, by simpa using he⟩
  · exact s.due_post d e

namespace Posts

theorem refl (s : State) : Posts s s := ⟨rfl, fun _ h => h⟩

theorem trans {s t u : State} (h : Posts s t) (k : Posts t u) : Posts s u :=
  ⟨by rw [k.same, h.same], fun q hq => k.kept q (h.kept q hq)⟩

theorem foldl {α : Type} {f : State → α → State} (h : ∀ s a, Posts s (f s a)) (l : List α) (s : State) :
    Posts s (l.foldl f s) := by
  induction l generalizing s with
  | nil => exact refl s
  | cons a l ih => exact (h s a).trans (ih _)

/-- What was due stays due. -/
theorem due {s t : State} (h : Posts s t) {e : Event} : Claims.Due s e → Claims.Due t e :=
  fun ⟨q, hq, he⟩ => ⟨q, h.kept q hq, he⟩

section
variable {s t : State} (h : Posts s t)
include h

theorem now : t.now = s.now := by rw [h.same]
theorem cur : t.cur = s.cur := by rw [h.same]
theorem hbm : t.hbm = s.hbm := by rw [h.same]
theorem host : t.host = s.host := by rw [h.same]
theorem uncorr : t.uncorr = s.uncorr := by rw [h.same]
theorem waves : t.waves = s.waves := by rw [h.same]
theorem groups : t.groups = s.groups := by rw [h.same]
theorem cores : t.cores = s.cores := by rw [h.same]
theorem clusters : t.clusters = s.clusters := by rw [h.same]
theorem domains : t.domains = s.domains := by rw [h.same]
theorem ctxs : t.ctxs = s.ctxs := by rw [h.same]
theorem launches : t.launches = s.launches := by rw [h.same]
theorem frontEnds : t.frontEnds = s.frontEnds := by rw [h.same]
theorem starts : t.starts = s.starts := by rw [h.same]
theorem w : t.w = s.w := by rw [h.same]; rfl
theorem g : t.g = s.g := by rw [h.same]; rfl
theorem wave (k : Nat) : t.wave k = s.wave k := by rw [h.same]; rfl
theorem group (k : Nat) : t.group k = s.group k := by rw [h.same]; rfl
theorem core (k : Nat) : t.core k = s.core k := by rw [h.same]; rfl
theorem cluster (k : Nat) : t.cluster k = s.cluster k := by rw [h.same]; rfl
theorem domain (k : Nat) : t.domain k = s.domain k := by rw [h.same]; rfl
theorem ctx (k : Nat) : t.ctx k = s.ctx k := by rw [h.same]; rfl
theorem launch (k : Nat) : t.launch k = s.launch k := by rw [h.same]; rfl
theorem frontEnd (k : Nat) : t.frontEnd k = s.frontEnd k := by rw [h.same]; rfl
end

end Posts

/-! ### The operations that only put moves on the agenda -/

theorem State.posts_post (s : State) (d : Nat) (e : Event) : Posts s (s.post d e) :=
  ⟨rfl, fun _ h => State.mem_post.mpr (.inr h)⟩

theorem State.posts_postOnce (s : State) (d : Nat) (e : Event) : Posts s (s.postOnce d e) := by
  unfold State.postOnce
  split_ifs
  · exact .refl s
  · exact s.posts_post d e

theorem State.posts_pokeGate (s : State) (d : Nat) : Posts s (s.pokeGate d) := by
  unfold State.pokeGate
  split_ifs
  · exact s.posts_postOnce 1 _
  · exact .refl s

theorem State.posts_pokeGatherer (s : State) : Posts s s.pokeGatherer := s.posts_postOnce 1 _

theorem State.posts_pokeQueue (s : State) (cl : Nat) : Posts s (s.pokeQueue cl) := by
  unfold State.pokeQueue
  split_ifs
  · exact .refl s
  · exact s.posts_postOnce 1 _

theorem State.posts_pokeQueues (s : State) : Posts s s.pokeQueues := .foldl State.posts_pokeQueue _ s

theorem State.posts_pokePairs (s : State) : Posts s s.pokePairs :=
  .foldl (fun s _ => .foldl (fun s _ => s.posts_postOnce 1 _) _ s) _ s

theorem State.posts_qFell (s : State) (core : Nat) : Posts s (s.qFell core) := by
  unfold State.qFell
  split_ifs
  · exact s.posts_postOnce 0 _
  · exact .refl s

theorem State.posts_noteStop (s : State) (g : Nat) : Posts s (s.noteStop g) := by
  unfold State.noteStop
  split_ifs
  · exact s.posts_postOnce 0 _
  · exact .refl s

/-- A move may follow, or may not. -/
theorem Posts.orPost {s t : State} (h : Posts s t) (c : Prop) [Decidable c] (d : Nat) (e : Event) :
    Posts s (if c then t else t.postOnce d e) := by
  split_ifs
  · exact h
  · exact h.trans (t.posts_postOnce d e)

theorem State.posts_pokeArray (s : State) (core : Nat) : Posts s (s.pokeArray core) := by
  unfold State.pokeArray
  refine Posts.orPost (.foldl (fun s' g => ?_) _ s) _ 1 _
  split
  · exact s'.posts_postOnce 1 _
  · exact .refl s'

theorem State.posts_pokeEngines (s : State) (cl : Nat) : Posts s (s.pokeEngines cl) := by
  unfold State.pokeEngines
  refine .foldl (fun s p => ?_) _ s
  split
  · exact .foldl (fun s e => s.posts_postOnce 1 e) _ s
  · exact .refl s

theorem State.posts_poke (s : State) (core : Nat) : Posts s (s.poke core) :=
  (s.posts_pokeArray core).trans (State.posts_pokeEngines _ _)

end Sys2Proof.Machine
end

section
/-! # Operating points (O47)

A change of the operating point is a step that begins (`beginChange`), switches its frequency and slews its voltage in the order
that its direction gives, and ends (`endStep`). -/

namespace Sys2Proof.Machine

@[simp] theorem State.domain_setDomain_same (s : State) (d : Nat) (x : Domain) : (s.setDomain d x).domain d = x := by
  simp [State.domain_setDomain]

@[simp] theorem State.setDomain_setDomain (s : State) (d : Nat) (x y : Domain) :
    (s.setDomain d x).setDomain d y = s.setDomain d y := by
  simp [State.setDomain]

@[simp] theorem State.setDomain_now (s : State) (d : Nat) (x : Domain) : (s.setDomain d x).now = s.now := rfl

@[simp] theorem State.post_domain (s : State) (n : Nat) (e : Event) (d : Nat) : (s.post n e).domain d = s.domain d := rfl

/-! ### Floors and slews -/

theorem State.belowFloor_iff (s : State) (d p n : Nat) : s.belowFloor d p n = true ↔ Claims.below s d p n := by
  exact decide_eq_true_iff

theorem State.belowFloor_eq_false (s : State) (d p n : Nat) : s.belowFloor d p n = false ↔ ¬Claims.below s d p n := by
  rw [← State.belowFloor_iff, Bool.not_eq_true]

theorem slewTime_volts (p n q m : Nat) :
    slewTime (pointVolts p n) (pointVolts q m) = Claims.slew (Claims.volts p n) (Claims.volts q m) := by
  unfold slewTime Claims.slew pointVolts Claims.volts
  split_ifs <;> omega

theorem raises_iff (x : Domain) (p n : Nat) : raises x p n = true ↔ x.point < p ∨ (x.point = p ∧ n < x.underv) := by
  simp [raises]

/-! ### The beginning and the end of a step -/

/-- The step that begins, in a domain. -/
def Domain.stepping (x : Domain) (p n : Nat) : Domain :=
  { x with step := some (p, n), target := none, slewed := false, switched := false }

theorem State.posts_beginChange (s : State) (d p n : Nat) :
    Posts (s.setDomain d ((s.domain d).stepping p n)) (s.beginChange d p n) := by
  unfold State.beginChange
  dsimp only
  split_ifs <;> exact State.posts_post _ _ _

theorem State.domain_beginChange (s : State) (d p n : Nat) : (s.beginChange d p n).domain d = (s.domain d).stepping p n := by
  rw [(s.posts_beginChange d p n).domain, State.domain_setDomain_same]

/-- A change that begins from a point and undervolt is a change as the claims have it: in a state with the time, the point and
the undervolt of this one. -/
theorem State.beginChange_changing {s s0 : State} {d : Nat} (hnow : s.now = s0.now)
    (hpoint : (s.domain d).point = (s0.domain d).point) (hunderv : (s.domain d).underv = (s0.domain d).underv) (p n : Nat) :
    Claims.Changing s0 (s.beginChange d p n) d p n := by
  refine ⟨?_, ?_, ?_, ?_, ?_, ?_⟩
  iterate 3 rw [State.domain_beginChange]; rfl
  · rw [State.domain_beginChange]; exact hpoint
  · rw [State.domain_beginChange]; exact hunderv
  · rw [← hpoint, ← hunderv, ← hnow, ← slewTime_volts]
    unfold State.beginChange
    simp only [raises_iff]
    split_ifs <;> exact State.mem_post.mpr (.inl rfl)

theorem State.setDomain_beginChange_changing (s : State) {d : Nat} {y : Domain} (hpoint : y.point = (s.domain d).point)
    (hunderv : y.underv = (s.domain d).underv) (p n : Nat) :
    Claims.Changing s ((s.setDomain d y).beginChange d p n) d p n :=
  @State.beginChange_changing (s.setDomain d y) s d rfl (by rw [State.domain_setDomain_same, hpoint])
    (by rw [State.domain_setDomain_same, hunderv]) p n

theorem State.startChange_of_step {s : State} {d : Nat} (h : (s.domain d).step ≠ none) (p n : Nat) :
    s.startChange d p n = s.setDomain d { s.domain d with target := some (p, n) } := by
  simp [State.startChange, Option.isSome_iff_ne_none, h]

theorem State.startChange_there {s : State} {d p n : Nat} (h : (s.domain d).step = none) (hp : (s.domain d).point = p)
    (hn : (s.domain d).underv = n) : s.startChange d p n = s := by
  simp [State.startChange, h, hp, hn]

theorem State.startChange_begins {s : State} {d p n : Nat} (h : (s.domain d).step = none)
    (hne : (s.domain d).point ≠ p ∨ (s.domain d).underv ≠ n) : s.startChange d p n = s.beginChange d p n := by
  have : ¬((s.domain d).point = p ∧ (s.domain d).underv = n) := by tauto
  simp [State.startChange, h, this]

/-- A step with nothing waiting behind it is over. -/
theorem State.endStep_idle {s : State} {d : Nat} (hmode : (s.domain d).mode = none) (htarget : (s.domain d).target = none) :
    s.endStep d = s.setDomain d { s.domain d with step := none, target := none } := by
  simp [State.endStep, hmode, htarget]

/-- The target that came meanwhile follows. -/
theorem State.endStep_target {s : State} {d q m : Nat} (h : (s.domain d).target = some (q, m))
    (hne : (s.domain d).point ≠ q ∨ (s.domain d).underv ≠ m) :
    s.endStep d = (s.setDomain d { s.domain d with step := none, target := none }).beginChange d q m := by
  have : ¬((s.domain d).point = q ∧ (s.domain d).underv = m) := by tauto
  simp [State.endStep, h, this]

/-! ### Gates and wakes -/

/-- The FIFOs of some cores are emptied. -/
def State.emptySpines (s : State) (l : List Nat) : State := l.foldl (fun s c => s.setSpine c {}) s

/-- The clusters of a list wait for their start events. -/
def State.gateClusters (s : State) (l : List Nat) : State :=
  l.foldl (fun s c => s.setCluster c { s.cluster c with gated := true }) s

theorem State.core_setSpine (s : State) (n k : Nat) (x : Spine) :
    (s.setSpine n x).core k = if k = n then { s.core n with spine := x } else s.core k := State.core_setCore _ _ _ _

theorem State.core_emptySpines (s : State) (l : List Nat) (k : Nat) :
    (s.emptySpines l).core k = if k ∈ l then { s.core k with spine := {} } else s.core k := by
  unfold State.emptySpines
  induction l generalizing s with
  | nil => simp
  | cons c l ih =>
    rw [List.foldl_cons, ih, State.core_setSpine]
    by_cases hk : k = c
    · subst hk; simp
    · simp [hk]

theorem State.emptySpines_eq (s : State) (l : List Nat) : s.emptySpines l = { s with cores := (s.emptySpines l).cores } := by
  unfold State.emptySpines
  induction l generalizing s with
  | nil => rfl
  | cons c l ih => rw [List.foldl_cons, ih]; rfl

theorem State.gateClusters_eq (s : State) (l : List Nat) :
    s.gateClusters l = { s with clusters := (s.gateClusters l).clusters } := by
  unfold State.gateClusters
  induction l generalizing s with
  | nil => rfl
  | cons c l ih => rw [List.foldl_cons, ih]; rfl

theorem State.cluster_gateClusters (s : State) (l : List Nat) (k : Nat) :
    (s.gateClusters l).cluster k = if k ∈ l then { s.cluster k with gated := true } else s.cluster k := by
  unfold State.gateClusters
  induction l generalizing s with
  | nil => simp
  | cons c l ih =>
    rw [List.foldl_cons, ih, State.cluster_setCluster]
    by_cases hk : k = c
    · subst hk; simp
    · simp [hk]

/-- The state of a domain whose gate is granted. -/
def State.gateGranted (s : State) (d : Nat) : State :=
  ((s.setDomain d { s.domain d with gatePending := false, gated := true }).gateClusters (domainClusters d)).emptySpines (domainCores d)

theorem State.domain_gateGranted (s : State) (d e : Nat) : (s.gateGranted d).domain e =
    if e = d then { s.domain d with gatePending := false, gated := true } else s.domain e := by
  rw [State.gateGranted, State.emptySpines_eq, State.gateClusters_eq]
  exact State.domain_setDomain _ _ _ _

theorem State.cluster_gateGranted (s : State) (d c : Nat) : (s.gateGranted d).cluster c =
    if c ∈ domainClusters d then { s.cluster c with gated := true } else s.cluster c := by
  rw [State.gateGranted, State.emptySpines_eq]
  exact State.cluster_gateClusters _ _ _

theorem State.core_gateGranted (s : State) (d k : Nat) : (s.gateGranted d).core k =
    if k ∈ domainCores d then { s.core k with spine := {} } else s.core k := by
  rw [State.gateGranted, State.core_emptySpines, State.gateClusters_eq]
  rfl

theorem execGateGrant_granted {s : State} {d : Nat} (hp : (s.domain d).gatePending = true) (hg : (s.domain d).gated = false)
    (hr : s.domainResident d = false) (hs : s.domainSpine d = false) : execGateGrant d s = .next (s.gateGranted d) := by
  unfold execGateGrant
  simp only [hp, hg, hr, hs]
  rfl

theorem execGateGrant_waits {s : State} {d : Nat}
    (h : (s.domain d).gatePending = false ∨ s.domainResident d = true ∨ s.domainSpine d = true) :
    execGateGrant d s = .next s := by
  unfold execGateGrant
  rcases h with h | h | h <;> simp [h]

/-- What a granted gate leaves, as the claims have it. -/
theorem State.gateGranted_spec (s : State) (d : Nat) :
    (s.gateGranted d).domain d = { s.domain d with gatePending := false, gated := true } ∧
      (∀ c ∈ domainClusters d, ((s.gateGranted d).cluster c).gated = true) ∧
      ∀ c ∈ domainCores d, ((s.gateGranted d).core c).spine.entries = [] := by
  refine ⟨?_, fun c hc => ?_, fun c hc => ?_⟩
  · rw [State.domain_gateGranted, if_pos rfl]
  · rw [State.cluster_gateGranted, if_pos hc]
  · rw [State.core_gateGranted, if_pos hc]

theorem domainWakeComplete_wakes {d : Nat} {s : State} (hg : (s.domain d).gated = true) (hw : (s.domain d).waking = true) :
    ∃ t, exec (.domainWakeComplete d) s = .next t ∧
      t.domain d = { s.domain d with gated := false, waking := false } ∧ (∀ c ∈ domainCores d, (t.core c).spine.entries = []) ∧
      t.starts = s.starts ++ (domainClusters d).map (fun c => { cluster := c }) ∧ Claims.Due t .startEventAdmission := by
  let a : State := (s.setDomain d { s.domain d with gated := false, waking := false }).emptySpines (domainCores d)
  let b : State := { a with starts := a.starts ++ (domainClusters d).map fun c => { cluster := c } }
  have ha : a = { s.setDomain d { s.domain d with gated := false, waking := false } with cores := a.cores } :=
    State.emptySpines_eq _ _
  have hb : Posts (b.postOnce 0 .startEventAdmission) (((b.postOnce 0 .startEventAdmission).pokeQueues.pokeGatherer).pokeGate d) :=
    ((State.posts_pokeQueues _).trans (State.posts_pokeGatherer _)).trans (State.posts_pokeGate _ _)
  have hall := (b.posts_postOnce 0 .startEventAdmission).trans hb
  refine ⟨((b.postOnce 0 .startEventAdmission).pokeQueues.pokeGatherer).pokeGate d, ?_, ?_, fun c hc => ?_, ?_, ?_⟩
  · show execDomainWakeComplete d s = _
    unfold execDomainWakeComplete
    simp only [hg, hw]
    rfl
  · rw [hall.domain]
    show a.domain d = _
    rw [ha]
    exact State.domain_setDomain_same _ _ _
  · rw [hall.core]
    show (a.core c).spine.entries = []
    rw [State.core_emptySpines, if_pos hc]
  · rw [hall.starts]
    show a.starts ++ _ = _
    rw [ha]
    rfl
  · exact hb.due (State.due_postOnce _ _ _)

/-! ### A step -/

theorem voltageSlewComplete_raise {d p n : Nat} {s : State} (hstep : (s.domain d).step = some (p, n))
    (hslew : (s.domain d).slewed = false) (hsw : (s.domain d).switched = false) :
    exec (.voltageSlewComplete d) s =
      .next ((s.setDomain d { s.domain d with slewed := true, underv := n }).post 2000 (.frequencySwitch d)) := by
  show execVoltageSlewComplete d s = _
  simp [execVoltageSlewComplete, hstep, hslew, hsw, Config.usCycles]

theorem frequencySwitch_lowering {d p n : Nat} {s : State} (hstep : (s.domain d).step = some (p, n))
    (hslew : (s.domain d).slewed = false) (hsw : (s.domain d).switched = false) :
    exec (.frequencySwitch d) s = .next ((s.setDomain d { s.domain d with switched := true, point := p }).post
      (Claims.slew (Claims.volts (s.domain d).point (s.domain d).underv) (Claims.volts p n)) (.voltageSlewComplete d)) := by
  show execFrequencySwitch d s = _
  simp [execFrequencySwitch, hstep, hslew, hsw, slewTime_volts]

theorem frequencySwitch_ends {d p n : Nat} {s : State} (hstep : (s.domain d).step = some (p, n))
    (hslew : (s.domain d).slewed = true) (hsw : (s.domain d).switched = false) :
    exec (.frequencySwitch d) s = .next ((s.setDomain d { s.domain d with switched := true, point := p }).endStep d) := by
  show execFrequencySwitch d s = _
  simp [execFrequencySwitch, hstep, hslew, hsw]

theorem voltageSlewComplete_ends {d p n : Nat} {s : State} (hstep : (s.domain d).step = some (p, n))
    (hslew : (s.domain d).slewed = false) (hsw : (s.domain d).switched = true) :
    exec (.voltageSlewComplete d) s = .next ((s.setDomain d { s.domain d with slewed := true, underv := n }).endStep d) := by
  show execVoltageSlewComplete d s = _
  simp [execVoltageSlewComplete, hstep, hslew, hsw]

/-! ### The governor -/

/-- With `stalled` of 20,000 cycles the governor sees what the claims call high and low. -/
theorem stalled_high (stalled : Nat) : 60 * 20000 ≤ 100 * stalled ↔ 12000 ≤ stalled := by omega
theorem stalled_low (stalled : Nat) : 100 * stalled ≤ 25 * 20000 ↔ stalled ≤ 5000 := by omega

theorem governorSample_off {d stalled : Nat} {s : State} (h : (s.domain d).auto = false ∨ (s.domain d).step ≠ none) :
    exec (.governorSample d stalled) s = .next s := by
  show execGovernorSample d stalled s = _
  rcases h with h | h <;> simp [execGovernorSample, h, Option.isSome_iff_ne_none]

section
variable {d stalled : Nat} {s : State} (hauto : (s.domain d).auto = true) (hstep : (s.domain d).step = none)
include hauto hstep

theorem governorSample_lowers (hhi : (s.domain d).point ≤ (s.domain d).hi) (hhigh : 12000 ≤ stalled)
    (hlo : (s.domain d).lo < (s.domain d).point) :
    exec (.governorSample d stalled) s = .next (if s.belowFloor d ((s.domain d).point - 1) (s.domain d).underv then s
      else s.startChange d ((s.domain d).point - 1) (s.domain d).underv) := by
  show execGovernorSample d stalled s = _
  have : min ((s.domain d).point - 1) (s.domain d).hi = (s.domain d).point - 1 := by omega
  simp [execGovernorSample, hauto, hstep, hhigh, hlo, this]

theorem governorSample_raises (hlo : (s.domain d).lo ≤ (s.domain d).point) (hlow : stalled ≤ 5000)
    (hhi : (s.domain d).point < (s.domain d).hi) (hclamp : (s.domain d).clamped = false) :
    exec (.governorSample d stalled) s = .next (if s.belowFloor d ((s.domain d).point + 1) (s.domain d).underv then s
      else s.startChange d ((s.domain d).point + 1) (s.domain d).underv) := by
  show execGovernorSample d stalled s = _
  have hmax : max ((s.domain d).point + 1) (s.domain d).lo = (s.domain d).point + 1 := by omega
  have hno : ¬(12000 ≤ stalled ∧ (s.domain d).lo < (s.domain d).point) := by omega
  simp [execGovernorSample, hauto, hstep, hlow, hhi, hclamp, hno, hmax]

theorem governorSample_still (hhigh : ¬(12000 ≤ stalled ∧ (s.domain d).lo < (s.domain d).point))
    (hlow : ¬(stalled ≤ 5000 ∧ (s.domain d).point < (s.domain d).hi)) : exec (.governorSample d stalled) s = .next s := by
  show execGovernorSample d stalled s = _
  have hlow' : ¬(stalled ≤ 5000 ∧ (s.domain d).point < (s.domain d).hi ∧ (s.domain d).clamped = false) :=
    fun h => hlow ⟨h.1, h.2.1⟩
  simp only [execGovernorSample, hauto, hstep, if_neg hhigh, if_neg hlow']
  rfl

end

theorem governorSample_spec (d : Nat) (s : State) (stalled : Nat) :
    let x := s.domain d
    let still := exec (.governorSample d stalled) s = .next s
    let high := 60 * 20000 ≤ 100 * stalled
    let low := 100 * stalled ≤ 25 * 20000
    ((x.auto = false ∨ x.step ≠ none ∨ (¬high ∧ ¬low)) → still) ∧
      (x.auto = true → x.step = none → x.lo ≤ x.point → x.point ≤ x.hi →
        (high → x.point = x.lo → still) ∧
        (high → x.lo < x.point → Claims.below s d (x.point - 1) x.underv → still) ∧
        (high → x.lo < x.point → ¬Claims.below s d (x.point - 1) x.underv →
          ∃ t, exec (.governorSample d stalled) s = .next t ∧ Claims.Changing s t d (x.point - 1) x.underv) ∧
        (low → x.point = x.hi → still) ∧
        (low → x.point < x.hi → x.clamped = false → ¬Claims.below s d (x.point + 1) x.underv →
          ∃ t, exec (.governorSample d stalled) s = .next t ∧ Claims.Changing s t d (x.point + 1) x.underv)) := by
  dsimp only
  simp only [stalled_high, stalled_low]
  refine ⟨fun h => ?_, fun hauto hstep hlo hhi => ⟨fun hh hp => ?_, fun hh hp hb => ?_, fun hh hp hb => ?_, fun hl hp => ?_,
    fun hl hp hc hb => ?_⟩⟩
  · by_cases hoff : (s.domain d).auto = false ∨ (s.domain d).step ≠ none
    · exact governorSample_off hoff
    · rw [not_or, Bool.not_eq_false, not_not] at hoff
      have hmid : ¬12000 ≤ stalled ∧ ¬stalled ≤ 5000 := by
        rcases h with h | h | h
        · simp [hoff.1] at h
        · exact absurd hoff.2 h
        · exact h
      exact governorSample_still hoff.1 hoff.2 (fun h => hmid.1 h.1) fun h => hmid.2 h.1
  · exact governorSample_still hauto hstep (by omega) (by omega)
  · rw [governorSample_lowers hauto hstep hhi hh hp, if_pos ((s.belowFloor_iff _ _ _).mpr hb)]
  · have hb' := (s.belowFloor_eq_false _ _ _).mpr hb
    refine ⟨_, by rw [governorSample_lowers hauto hstep hhi hh hp, hb', if_neg (by simp)], ?_⟩
    rw [State.startChange_begins hstep (.inl (by omega))]
    exact State.beginChange_changing rfl rfl rfl _ _
  · exact governorSample_still hauto hstep (by omega) (by omega)
  · have hb' := (s.belowFloor_eq_false _ _ _).mpr hb
    refine ⟨_, by rw [governorSample_raises hauto hstep hlo hl hp hc, hb', if_neg (by simp)], ?_⟩
    rw [State.startChange_begins hstep (.inl (by omega))]
    exact State.beginChange_changing rfl rfl rfl _ _

/-! ### The thermal clamp -/

/-- The point and undervolt to which a domain is going, or at which it stands. -/
def Domain.bound (x : Domain) : Nat × Nat := x.step.getD (x.point, x.underv)

/-- A domain that the thermal clamp holds, one index down. -/
def Domain.clampDown (x : Domain) : Domain := { x with clamped := true, clampedPoint := x.bound.1 - 1 }

theorem thermalClampStep_holds {d temp : Nat} {s : State} (h : 105 < temp ∨ (100 < temp ∧ (s.domain d).clamped = true)) :
    exec (.thermalClampStep d temp) s = .next (
      if (s.domain d).bound.1 - 1 < ((s.domain d).target.getD (s.domain d).bound).1 then
        (s.setDomain d (s.domain d).clampDown).startChange d ((s.domain d).bound.1 - 1) (s.domain d).bound.2
      else s.setDomain d (s.domain d).clampDown) := by
  show execThermalClampStep d temp s = _
  have hon : (decide (105 < temp) || ((s.domain d).clamped && decide (100 < temp))) = true := by
    rcases h with h | ⟨h1, h2⟩
    · simp [h]
    · simp [h1, h2]
  simp only [execThermalClampStep, hon, Bool.true_and, decide_eq_true_eq]
  rfl

theorem thermalClampStep_lets_go {d temp : Nat} {s : State} (h : temp ≤ 100 ∨ (temp ≤ 105 ∧ (s.domain d).clamped = false)) :
    exec (.thermalClampStep d temp) s = .next (s.setDomain d { s.domain d with clamped := false }) := by
  show execThermalClampStep d temp s = _
  have hon : (decide (105 < temp) || ((s.domain d).clamped && decide (100 < temp))) = false := by
    rcases h with h | ⟨h1, h2⟩
    · simp; omega
    · simp [h1, h2]
  simp [execThermalClampStep, hon]

theorem State.domain_startChange_clamp (s : State) (d p n : Nat) :
    ((s.startChange d p n).domain d).clamped = (s.domain d).clamped ∧
      ((s.startChange d p n).domain d).clampedPoint = (s.domain d).clampedPoint := by
  unfold State.startChange
  dsimp only
  split_ifs
  · simp
  · exact ⟨rfl, rfl⟩
  · rw [State.domain_beginChange]; exact ⟨rfl, rfl⟩

theorem State.clamp_changing {s : State} {d : Nat} (hstep : (s.domain d).step = none) (hp : 0 < (s.domain d).point) :
    Claims.Changing s ((s.setDomain d (s.domain d).clampDown).startChange d ((s.domain d).point - 1) (s.domain d).underv) d
      ((s.domain d).point - 1) (s.domain d).underv := by
  have hnot : ((s.setDomain d (s.domain d).clampDown).domain d).step = none := by
    rw [State.domain_setDomain_same]
    exact hstep
  have hpoint : (s.domain d).clampDown.point = (s.domain d).point := rfl
  have hunderv : (s.domain d).clampDown.underv = (s.domain d).underv := rfl
  rw [State.startChange_begins hnot (.inl (by rw [State.domain_setDomain_same, hpoint]; omega))]
  exact s.setDomain_beginChange_changing hpoint hunderv _ _

theorem thermalClampStep_spec (d temp : Nat) (s : State) :
    let x := s.domain d
    ∃ t, exec (.thermalClampStep d temp) s = .next t ∧
      (105 < temp ∨ (100 < temp ∧ x.clamped = true) →
        (t.domain d).clamped = true ∧ (t.domain d).clampedPoint = (x.step.getD (x.point, x.underv)).1 - 1 ∧
        (x.step = none → x.target = none → 0 < x.point → Claims.Changing s t d (x.point - 1) x.underv) ∧
        ∀ p n, x.step = some (p, n) → 0 < p →
          (∀ q, x.target = some q → p - 1 < q.1) → (t.domain d).target = some (p - 1, n)) ∧
      (temp ≤ 100 ∨ (temp ≤ 105 ∧ x.clamped = false) → t = s.setDomain d { x with clamped := false }) := by
  dsimp only
  by_cases h : 105 < temp ∨ (100 < temp ∧ (s.domain d).clamped = true)
  · have hnot : ¬(temp ≤ 100 ∨ (temp ≤ 105 ∧ (s.domain d).clamped = false)) := by
      rintro (h1 | ⟨h1, h2⟩)
      · omega
      · rw [h2] at h; simp at h; omega
    refine ⟨_, thermalClampStep_holds h, fun _ => ?_, fun h' => absurd h' hnot⟩
    have hbelow : (s.domain d).bound.1 - 1 < ((s.domain d).target.getD (s.domain d).bound).1 →
        (if (s.domain d).bound.1 - 1 < ((s.domain d).target.getD (s.domain d).bound).1 then
          (s.setDomain d (s.domain d).clampDown).startChange d ((s.domain d).bound.1 - 1) (s.domain d).bound.2
          else s.setDomain d (s.domain d).clampDown) =
        (s.setDomain d (s.domain d).clampDown).startChange d ((s.domain d).bound.1 - 1) (s.domain d).bound.2 := fun h => if_pos h
    refine ⟨?_, ?_, fun hstep htarget hp => ?_, fun p n hstep hp htarget => ?_⟩
    · split_ifs
      · rw [(State.domain_startChange_clamp _ _ _ _).1, State.domain_setDomain_same]; rfl
      · rw [State.domain_setDomain_same]; rfl
    · split_ifs
      · rw [(State.domain_startChange_clamp _ _ _ _).2, State.domain_setDomain_same]; rfl
      · rw [State.domain_setDomain_same]; rfl
    · have hbound : (s.domain d).bound = ((s.domain d).point, (s.domain d).underv) := by rw [Domain.bound, hstep]; rfl
      rw [hbelow (by rw [hbound, htarget]; simp only [Option.getD_none]; omega), hbound]
      exact State.clamp_changing hstep hp
    · have hbound : (s.domain d).bound = (p, n) := by rw [Domain.bound, hstep]; rfl
      have hlt : (s.domain d).bound.1 - 1 < ((s.domain d).target.getD (s.domain d).bound).1 := by
        rw [hbound]
        cases htg : (s.domain d).target with
        | none => simp only [Option.getD_none]; omega
        | some q => exact htarget q htg
      have hstep' : ((s.setDomain d (s.domain d).clampDown).domain d).step ≠ none := by
        rw [State.domain_setDomain_same]
        simp [Domain.clampDown, hstep]
      rw [hbelow hlt, hbound, State.startChange_of_step hstep', State.domain_setDomain_same]
  · refine ⟨_, thermalClampStep_lets_go ?_, fun h' => absurd h' h, fun _ => rfl⟩
    rw [not_or, not_and, Bool.not_eq_true] at h
    by_cases hcool : 100 < temp
    · exact .inr ⟨by omega, h.2 hcool⟩
    · exact .inl (by omega)

/-! ### The obligation -/

/-- Settles O47: each move is one of the cases of the step, the gate, the governor or the clamp above. -/
theorem operatingPoints : Obligations.OperatingPoints := by
  unfold Obligations.OperatingPoints
  intro d s
  refine ⟨fun hp hg hr hs => ⟨_, execGateGrant_granted hp hg hr hs, s.gateGranted_spec d⟩, execGateGrant_waits,
    domainWakeComplete_wakes, fun p n hstep => ⟨fun hslew hsw => ⟨⟨_, voltageSlewComplete_raise hstep hslew hsw, ?_, ?_⟩,
      ⟨_, frequencySwitch_lowering hstep hslew hsw, ?_, ?_⟩⟩, fun hmode htarget => ⟨fun hslew hsw =>
      ⟨_, frequencySwitch_ends hstep hslew hsw, ?_⟩, fun hslew hsw => ⟨_, voltageSlewComplete_ends hstep hslew hsw, ?_⟩⟩,
      fun hslew hsw q m htarget hne => ⟨_, frequencySwitch_ends hstep hslew hsw, ?_⟩⟩,
    governorSample_spec d s, fun temp => thermalClampStep_spec d temp s⟩
  · simp
  · exact State.mem_post.mpr (.inl rfl)
  · simp
  · exact State.mem_post.mpr (.inl rfl)
  · rw [State.endStep_idle (by simpa using hmode) (by simpa using htarget)]
    simp
  · rw [State.endStep_idle (by simpa using hmode) (by simpa using htarget)]
    simp
  · rw [State.endStep_target (q := q) (m := m) (by simpa using htarget)
      (by simpa [eq_comm] using hne), State.domain_beginChange]
    simp [Domain.stepping]

end Sys2Proof.Machine
end

section
/-! # Instructions that change the device beside their wave

What an instruction leaves that changes a unit, and then moves on, waits or traps: nothing of it is stored, and of its wave only
what the claims name changes. -/

namespace Sys2Proof.Machine

/-! ### What a core sees -/

/-- What of a core a load or a store of its waves can see: its L1 and its buffers. -/
def Core.seen (k : Core) : List L1Line × Memory × Memory × Memory × Memory := (k.l1, k.s, k.a, k.w, k.c)

theorem SameMemory.of_seen {s t : State} (hhbm : t.hbm = s.hbm) (hhost : t.host = s.host)
    (hcore : ∀ c, (t.core c).seen = (s.core c).seen) (core : Nat) : SameMemory s t core := by
  have hbyte : ∀ x, t.byteAt core x = s.byteAt core x := by
    intro x
    have h := hcore core
    simp only [Core.seen, Prod.mk.injEq] at h
    obtain ⟨hl, hs, ha, hw, hc⟩ := h
    simp only [State.byteAt, Core.l1Find, hl, hs, ha, hw, hc, hhbm, hhost]
  refine ⟨fun x => ?_, fun c b => ?_, hhost⟩
  · have h := hcore core
    simp only [Core.seen, Prod.mk.injEq] at h
    simp only [State.storedAt, Core.l1Find, h.1, hhbm, hbyte]
  · have h := hcore c
    simp only [Core.seen, Prod.mk.injEq] at h
    obtain ⟨-, hs, ha, hw, hc⟩ := h
    cases b <;> assumption

theorem SameMemory.refl (s : State) (core : Nat) : SameMemory s s core := ⟨fun _ => rfl, fun _ _ => rfl, rfl⟩

theorem SameMemory.trans {s t u : State} {core : Nat} (h : SameMemory s t core) (k : SameMemory t u core) : SameMemory s u core :=
  ⟨fun x => (k.stored x).trans (h.stored x), fun c b => (k.buffers c b).trans (h.buffers c b), k.host.trans h.host⟩

theorem Posts.seen {s t : State} (h : Posts s t) (core : Nat) : SameMemory s t core :=
  .of_seen h.hbm h.host (fun c => by rw [h.core]) core

/-- A core is set, its L1 and its buffers kept. -/
theorem SameMemory.setCore (s : State) {k : Nat} {x : Core} (h : x.seen = (s.core k).seen) (core : Nat) :
    SameMemory s (s.setCore k x) core := by
  refine .of_seen (s := s) (t := s.setCore k x) rfl rfl (fun c => ?_) core
  rw [State.core_setCore]
  split_ifs with hc
  · rw [hc, h]
  · rfl

theorem SameMemory.setW (s : State) (w : Wave) (core : Nat) : SameMemory s (s.setW w) core :=
  .of_seen (s := s) (t := s.setW w) rfl rfl (fun _ => rfl) core
theorem SameMemory.setWave (s : State) (k : Nat) (w : Wave) (core : Nat) : SameMemory s (s.setWave k w) core :=
  .of_seen (s := s) (t := s.setWave k w) rfl rfl (fun _ => rfl) core
theorem SameMemory.setGroup (s : State) (k : Nat) (x : Group) (core : Nat) : SameMemory s (s.setGroup k x) core :=
  .of_seen (s := s) (t := s.setGroup k x) rfl rfl (fun _ => rfl) core
theorem SameMemory.setCtx (s : State) (k : Nat) (x : Context) (core : Nat) : SameMemory s (s.setCtx k x) core :=
  .of_seen (s := s) (t := s.setCtx k x) rfl rfl (fun _ => rfl) core
theorem SameMemory.touched (s : State) (os : List Opnd) (core : Nat) : SameMemory s (s.touched os) core := SameMemory.setW _ _ _

/-! ### Registers -/

theorem SameRegs.refl (s : State) (vs ss ms : List Nat) (fl : Bool) : SameRegs s s vs ss ms fl :=
  ⟨fun _ _ => ⟨rfl, rfl⟩, fun _ _ => ⟨rfl, rfl⟩, fun _ _ => ⟨rfl, rfl⟩, fun _ => rfl, rfl⟩

/-- The registers that a claim reads are in the wave's file, its special registers and its mode in `control`. -/
theorem SameRegs.congr {s t u : State} {vs ss ms : List Nat} {fl : Bool} (h : SameRegs s t vs ss ms fl)
    (hf : u.w.file = t.w.file) (hc : u.w.control = t.w.control) : SameRegs s u vs ss ms fl := by
  simp only [Wave.file, Prod.mk.injEq] at hf
  obtain ⟨hv, hempty, hs, hsbusy, hm, hmbusy, hjsr, -⟩ := hf
  refine ⟨fun r hr => ?_, fun r hr => ?_, fun r hr => ?_, fun hfl => ?_, hc.trans h.control⟩
  · rw [Wave.vreg, Wave.isEmpty, hv, hempty]; exact h.vector r hr
  · rw [Wave.sreg, hs, hsbusy]; exact h.scalar r hr
  · rw [Wave.mreg, hm, hmbusy]; exact h.mask r hr
  · rw [hjsr]; exact h.flags hfl

theorem Wave.touch_file (w : Wave) (now : Nat) (os : List Opnd) : (w.touch now os).file = w.file := by
  rw [Wave.touch_eq]; rfl
theorem Wave.touch_rest (w : Wave) (now : Nat) (os : List Opnd) : (w.touch now os).rest = w.rest := by
  rw [Wave.touch_eq]; rfl

/-! ### Moving on -/

/-- The two waves stand alike in their code: they issue the same lanes at the same offset. -/
structure Wave.SameLanes (w u : Wave) : Prop where
  dx : u.dx = w.dx
  hdx : u.hdx = w.hdx
  handler : u.handler = w.handler
  sleeping : u.sleeping = w.sleeping
  quantum : u.quantum = w.quantum
  regen : u.regen = w.regen
  pre : u.pre = w.pre
  stay : u.stay = w.stay

theorem Wave.SameIssue.lanes {w u : Wave} (h : w.SameIssue u) : w.SameLanes u :=
  ⟨h.dx, h.hdx, h.handler, h.sleeping, h.quantum, h.regen, h.pre, h.stay⟩

namespace Wave.SameLanes
variable {w u : Wave} (h : w.SameLanes u)
include h

theorem duct : u.duct = w.duct := by rw [Wave.duct, Wave.duct, h.dx, h.hdx, h.handler]
theorem pool : u.pool = w.pool := by
  rw [Wave.pool, Wave.pool, Wave.eligible, Wave.eligible, Wave.live, Wave.live, h.duct, h.handler, h.sleeping, h.quantum]
theorem ipc : u.ipc = w.ipc := by rw [Wave.ipc, Wave.ipc, h.stay, h.pool, h.duct]
theorem here : u.here = w.here := by rw [Wave.here, Wave.here, h.stay, h.pool, h.duct, h.ipc]
theorem nextPc (n : Nat) : u.nextPc n = w.nextPc n := by rw [Wave.nextPc, Wave.nextPc, h.ipc, h.pre]
theorem trans {x : Wave} (k : u.SameLanes x) : w.SameLanes x :=
  ⟨k.dx.trans h.dx, k.hdx.trans h.hdx, k.handler.trans h.handler, k.sleeping.trans h.sleeping, k.quantum.trans h.quantum,
    k.regen.trans h.regen, k.pre.trans h.pre, k.stay.trans h.stay⟩

end Wave.SameLanes

/-- An instruction is done from `s` to `t`, in a device that became `r` beside the wave. -/
structure DoneIn (s r t : State) (vs ss ms : List Nat) (fl : Bool) : Prop where
  done : Done s t vs ss ms fl
  device : ∃ u, t = r.setW u ∧ u.file = r.w.file ∧ u.control = r.w.control ∧ u.rest = r.w.rest

theorem finish_setW_w {s : State} {n : Nat} (hn : n % 2 = 0) (h : Issues s) : (s.setW s.w).finish n = s.finish n := by
  cases hr : s.w.regen with
  | cons r rest =>
    rw [State.finish, State.finish, State.finishAt_replay _ _ _ _ _ _ hr, State.finishAt_replay _ _ _ _ _ _ (r := r) (rest := rest)
      (by rw [State.setW_w, hr]), State.setW_setW, State.setW_w]
  | nil =>
    obtain ⟨hhere, hpc⟩ := h.resolve_left (fun k => k hr)
    obtain ⟨l, hl, hb⟩ := mask_exists hhere
    have hlive : (if bit s.w.here l then s.w.nextPc n else lane s.w.duct l) ≠ 0xFFFFFFFF := by
      rw [hb, if_pos rfl]
      exact s.w.nextPc_live n hn hpc
    rw [State.finish, State.finish, State.finishAt_plain s n _ _ _ _ hr hl hlive,
      State.finishAt_plain (s.setW s.w) n _ _ _ _ (by rw [State.setW_w, hr]) hl (by simpa using hlive), State.setW_setW, State.setW_w]

theorem MovedOn.of_sameLanes {s r t : State} {n : Nat} (hu : s.w.SameLanes r.w) (h : MovedOn r t n) : MovedOn s t n := by
  unfold MovedOn at h ⊢
  rw [hu.regen] at h
  cases hr : s.w.regen with
  | nil =>
    simp only [hr, hu.here, hu.nextPc, hu.duct] at h ⊢
    exact h
  | cons x rest =>
    simp only [hr, hu.duct, hu.pre] at h ⊢
    exact h

theorem Issues.of_sameLanes {s r : State} (hu : s.w.SameLanes r.w) (h : Issues s) : Issues r := by
  unfold Issues at h ⊢
  rwa [hu.regen, hu.here, hu.ipc]

/-- The device became `r`, in which the wave issues alike: it moves on. -/
theorem State.finish_doneIn {s r : State} {vs ss ms : List Nat} {fl : Bool} (h : Issues s) (hu : s.w.SameLanes r.w)
    (hr : SameRegs s r vs ss ms fl) (hm : SameMemory s r s.g.core) : DoneIn s r (r.finish 4) vs ss ms fl := by
  obtain ⟨t, e, ht, hmoved, hfile, hctl, hrest, -⟩ := r.finish_spec r.w 4 rfl (h.of_sameLanes hu)
    ⟨rfl, rfl, rfl, rfl, rfl, rfl, rfl, rfl, rfl, rfl, rfl, rfl, rfl, rfl⟩
  rw [finish_setW_w rfl (h.of_sameLanes hu)] at e
  subst e
  refine ⟨⟨hmoved.of_sameLanes hu, hr.congr hfile hctl, ?_⟩, _, ht, hfile, hctl, hrest⟩
  rw [ht]
  exact hm.trans (.setW _ _ _)

theorem Done.posts {s t u : State} {vs ss ms : List Nat} {fl : Bool} (h : Done s t vs ss ms fl) (hp : Posts t u) :
    Done s u vs ss ms fl := by
  obtain ⟨hmoved, hregs, hmem⟩ := h
  refine ⟨?_, hregs.congr (by rw [hp.w]) (by rw [hp.w]), hmem.trans (hp.seen _)⟩
  unfold MovedOn at hmoved ⊢
  rw [hp.w]
  exact hmoved

/-! ### Waiting -/

/-- The instruction waits, in a device that became `r` beside the wave. -/
theorem State.block_waits {s r : State} (hu : s.w.SameLanes r.w) (hr : SameRegs s r [] [] [] false)
    (hm : SameMemory s r s.g.core) : Waits s r.block := by
  have hw : r.block.w = { r.w.keep with waiting := true, pre := none } := State.setW_w _ _
  refine ⟨by rw [hw], by rw [hw]; exact hu.duct, hr.congr (by rw [hw]; rfl) (by rw [hw]; rfl), hm.trans (.setW _ _ _)⟩

/-! ### An instruction whose wave only read its operands -/

theorem Wave.touch_regs {s r : State} {os : List Opnd} (hw : r.w = s.w.touch s.now os) : SameRegs s r [] [] [] false :=
  (SameRegs.refl s [] [] [] false).congr (by rw [hw, Wave.touch_file]) (by rw [hw, Wave.touch_control])

section
variable {s r : State} {os : List Opnd} (hw : r.w = s.w.touch s.now os) (hm : SameMemory s r s.g.core)
include hw hm

theorem State.done_touched (hs : Issues s) : DoneIn s r (r.finish 4) [] [] [] false :=
  State.finish_doneIn hs (by rw [hw]; exact (s.w.touch_same _ _).lanes) (Wave.touch_regs hw) hm

theorem State.waits_touched : Waits s r.block :=
  State.block_waits (by rw [hw]; exact (s.w.touch_same _ _).lanes) (Wave.touch_regs hw) hm

/-- The instruction answers a scalar. -/
theorem State.putS_done (hs : Issues s) (d : Nat) (x : DWord) :
    ∃ u, r.putS d x = .next (r.setW u) ∧ Done s (r.setW u) [] [d] [] false ∧ u.sreg d = x ∧ u.rest = s.w.rest := by
  have hw1 : (r.writeS d x).w = (s.w.touch s.now os).writeS d x := by rw [State.writeS, State.setW_w, hw]
  obtain ⟨hdone, u, ht, hfile, -, hrest⟩ := State.finish_doneIn (r := r.writeS d x) (vs := []) (ss := [d]) (ms := []) (fl := false) hs
    (by rw [hw1]; exact ((s.w.touch_same _ _).trans (Wave.writeS_same _ _ _)).lanes)
    ((writeS_regs s d x os).congr (by rw [hw1, State.setW_w]) (by rw [hw1, State.setW_w])) (hm.trans (SameMemory.setW _ _ _))
  have hset : (r.writeS d x).finish 4 = r.setW u := by rw [ht, State.writeS, State.setW_setW]
  refine ⟨u, congrArg Host.Outcome.next hset, hset ▸ hdone, ?_, by rw [hrest, hw1]; exact s.w.touch_rest _ _⟩
  have hs3 : u.s = (r.writeS d x).w.s := congrArg (·.2.2.1) hfile
  rw [Wave.sreg, hs3, hw1]
  exact Tab.getD_set_same _ _ _ _

end

/-! ### Charges -/

theorem State.charge_eq (s : State) (c ev n : Nat) : s.charge c ev n = { s with ctxs := (s.charge c ev n).ctxs } := by
  unfold State.charge
  dsimp only
  split_ifs <;> rfl

/-- A charge counts events, and changes nothing else of a context. -/
theorem State.ctx_charge (s : State) (c ev n k : Nat) : ∃ p, (s.charge c ev n).ctx k = { s.ctx k with pmc := p } := by
  unfold State.charge
  dsimp only
  split_ifs
  · exact ⟨_, rfl⟩
  · rw [State.ctx_setCtx]
    split_ifs with h
    · exact ⟨_, by rw [h]⟩
    · exact ⟨_, rfl⟩

end Sys2Proof.Machine
end

section
/-! # Traps

`State.trapAt` in its three stages: the wave drops what its instruction had begun (`undo`), the matrix commands of a group that
enters handler mode freeze (`freeze`), or the entry goes to a ring (`reflect`). -/

namespace Sys2Proof.Machine

/-! ### Dropping the instruction -/

/-- A wave without what its instruction had begun. -/
def Wave.dropped (w : Wave) : Wave :=
  { w with
    pre := none, scanned := false, wbOut := 0, waiting := false, stay := none, regen := [], slocks := [], retryAt := 0
    bankWait := none, checked := false
    remoteHold := false, held := none, remoteFault := none, needs := [] }

/-- From `s` to `t` wave `k` became `w`, lock bits were released and moves put on the agenda. -/
structure Dropped (s t : State) (k : Nat) (w : Wave) : Prop where
  wave : ∀ j, t.wave j = if j = k then w else s.wave j
  core : ∀ c, ∃ l, t.core c = { s.core c with locks := l }
  same : t = { s with waves := t.waves, cores := t.cores, agenda := t.agenda }

theorem Dropped.seen {s t : State} {k : Nat} {w : Wave} (h : Dropped s t k w) (core : Nat) : SameMemory s t core := by
  refine .of_seen (by rw [h.same]) (by rw [h.same]) (fun c => ?_) core
  obtain ⟨l, e⟩ := h.core c
  rw [e]
  rfl

theorem Dropped.member {s t : State} {k : Nat} {w : Wave} (h : Dropped s t k w) (hg : w.group = (s.wave k).group) (j : Nat) :
    (t.wave j).group = (s.wave j).group := by
  rw [h.wave]
  split_ifs with hj
  · rw [hj, hg]
  · rfl

theorem Dropped.setWave {s t : State} {k : Nat} {w : Wave} (h : Dropped s t k w) (u : Wave) : Dropped s (t.setWave k u) k u := by
  refine ⟨fun j => ?_, h.core, ?_⟩
  · rw [State.wave_setWave, h.wave]
    split_ifs <;> rfl
  · conv_lhs => rw [h.same]
    rfl

theorem State.dropped_undo (s : State) (k : Nat) : Dropped s (s.undo k) k (s.wave k).dropped := by
  have hset : ∀ s0 : State, (s0 = s ∨ ∃ l, s0 = s.setCore (s.group (s.wave k).group).core
      { s.core (s.group (s.wave k).group).core with locks := l }) → Dropped s (s0.setWave k (s.wave k).dropped) k (s.wave k).dropped := by
    rintro s0 (rfl | ⟨l, rfl⟩)
    · exact ⟨fun j => State.wave_setWave _ _ _ _, fun c => ⟨_, rfl⟩, rfl⟩
    · refine ⟨fun j => State.wave_setWave _ _ _ _, fun c => ?_, rfl⟩
      show ∃ _, (s.setCore _ _).core c = _
      rw [State.core_setCore]
      split_ifs with hc
      · exact ⟨l, by rw [hc]⟩
      · exact ⟨_, rfl⟩
  have hpost : ∀ s0 t : State, Dropped s s0 k (s.wave k).dropped → Posts s0 t → Dropped s t k (s.wave k).dropped := by
    intro s0 t h hp
    refine ⟨fun j => by rw [hp.wave, h.wave], fun c => by rw [hp.core]; exact h.core c, ?_⟩
    rw [hp.same]
    conv_lhs => rw [h.same]
  unfold State.undo
  dsimp only
  split_ifs
  · exact hset _ (.inl rfl)
  · exact hset _ (.inr ⟨_, rfl⟩)
  · exact hpost _ _ (hset _ (.inl rfl)) (State.posts_qFell _ _)
  · exact hpost _ _ (hset _ (.inr ⟨_, rfl⟩)) (State.posts_qFell _ _)

/-! ### What a trap leaves of the device -/

/-- What the trap of a wave of group `g` leaves: memory, the gathers and the bindings; of the group's matrix commands those that
have not started may freeze. -/
structure TrapLeaves (s t : State) (g : Nat) : Prop where
  seen : ∀ core, SameMemory s t core
  cur : t.cur = s.cur
  member : ∀ k, (t.wave k).group = (s.wave k).group
  binds : ∀ c, (t.ctx c).binds = (s.ctx c).binds
  gatherQ : ∀ c, (t.core c).gatherQ = (s.core c).gatherQ
  gathers : (t.group g).gathers = (s.group g).gathers
  core : (t.group g).core = (s.group g).core
  count : (t.core (s.group g).core).matrixQ.length + (t.group g).frozen.length =
    (s.core (s.group g).core).matrixQ.length + (s.group g).frozen.length
  mem : ∀ m, m ∈ (t.core (s.group g).core).matrixQ ∨ m ∈ (t.group g).frozen →
    m ∈ (s.core (s.group g).core).matrixQ ∨ m ∈ (s.group g).frozen

/-- The trap leaves the matrix commands. -/
theorem TrapLeaves.ofCores {s t : State} {g : Nat} (hm : ∀ core, SameMemory s t core) (hcur : t.cur = s.cur)
    (hgroups : t.groups = s.groups) (hcore : ∀ c, ∃ l, t.core c = { s.core c with locks := l })
    (hw : ∀ k, (t.wave k).group = (s.wave k).group) (hb : ∀ c, (t.ctx c).binds = (s.ctx c).binds) : TrapLeaves s t g := by
  have hg : t.group g = s.group g := by rw [State.group, State.group, hgroups]
  have hq : ∀ c, (t.core c).matrixQ = (s.core c).matrixQ ∧ (t.core c).gatherQ = (s.core c).gatherQ := by
    intro c
    obtain ⟨l, e⟩ := hcore c
    rw [e]
    exact ⟨rfl, rfl⟩
  refine ⟨hm, hcur, hw, hb, fun c => (hq c).2, by rw [hg], by rw [hg], ?_, fun m => ?_⟩
  · rw [(hq _).1, hg]
  · rw [(hq _).1, hg]; exact id

theorem State.core_freeze (s : State) (g c : Nat) : (s.freeze g).core c =
    if c = (s.group g).core then
      { s.core c with matrixQ := (s.core c).matrixQ.filter fun m => !(m.group == g && !m.started) } else s.core c := by
  show (s.setCore _ _).core c = _
  rw [State.core_setCore]
  split_ifs with h
  · rw [h]
  · rfl

theorem State.group_freeze (s : State) (g j : Nat) : (s.freeze g).group j =
    if j = g then { s.group g with frozen := (s.group g).frozen ++
      (s.core (s.group g).core).matrixQ.filter fun m => m.group == g && !m.started } else s.group j :=
  State.group_setGroup _ _ _ _

theorem length_filter_not {α : Type} (p : α → Bool) (l : List α) :
    (l.filter fun a => !p a).length + (l.filter p).length = l.length := by
  induction l with
  | nil => rfl
  | cons a l ih => cases h : p a <;> simp [h] <;> omega

theorem State.freeze_leaves (s : State) (g : Nat) : TrapLeaves s (s.freeze g) g := by
  refine ⟨fun core => ?_, rfl, fun _ => rfl, fun _ => rfl, fun c => ?_, ?_, ?_, ?_, fun m => ?_⟩
  · refine .of_seen (s := s) (t := s.freeze g) rfl rfl (fun c => ?_) core
    rw [State.core_freeze]
    split_ifs <;> rfl
  · rw [State.core_freeze]
    split_ifs <;> rfl
  · rw [State.group_freeze, if_pos rfl]
  · rw [State.group_freeze, if_pos rfl]
  · rw [State.core_freeze, State.group_freeze, if_pos rfl, if_pos rfl]
    have := length_filter_not (fun m : MatCmd => m.group == g && !m.started) (s.core (s.group g).core).matrixQ
    simp only [List.length_append] at this ⊢
    omega
  · rw [State.core_freeze, State.group_freeze, if_pos rfl, if_pos rfl]
    simp only [List.mem_filter, List.mem_append]
    tauto

theorem TrapLeaves.trans {s t u : State} {g : Nat} (h : TrapLeaves s t g) (k : TrapLeaves t u g) : TrapLeaves s u g := by
  have hcount := k.count
  have hmem := k.mem
  rw [h.core] at hcount hmem
  exact ⟨fun core => (h.seen core).trans (k.seen core), k.cur.trans h.cur, fun j => (k.member j).trans (h.member j),
    fun c => (k.binds c).trans (h.binds c),
    fun c => (k.gatherQ c).trans (h.gatherQ c), k.gathers.trans h.gathers, k.core.trans h.core, hcount.trans h.count,
    fun m hm => h.mem m (hmem m hm)⟩

/-! ### The handler -/

/-- The wave's handler takes the trap. -/
theorem State.trapAt_handler {s : State} {k tepc : Nat} {x : Trap} (h : s.toHandler k x = true) :
    EnteredHandler s (s.trapAt k tepc x) k tepc x ∧ TrapLeaves s (s.trapAt k tepc x) (s.wave k).group := by
  have hd := s.dropped_undo k
  have hw : (s.undo k).wave k = (s.wave k).dropped := by rw [hd.wave, if_pos rfl]
  have hgroups : (s.undo k).groups = s.groups := by rw [hd.same]
  have hto : (s.undo k).toHandler k x = true := by
    simp only [State.toHandler, hw, State.group, hgroups] at h ⊢
    exact h
  let u := ((s.undo k).setWave k ((s.wave k).dropped.enter x tepc)).charge (s.group (s.wave k).group).ctx 0x10 1
  have hu : u = { (s.undo k).setWave k ((s.wave k).dropped.enter x tepc) with ctxs := u.ctxs } := State.charge_eq _ _ _ _
  have huk : u.wave k = (s.wave k).dropped.enter x tepc := by
    rw [hu]
    exact (State.wave_setWave _ _ _ _).trans (if_pos rfl)
  have hul : TrapLeaves s u (s.wave k).group := by
    refine .ofCores (fun core => ?_) ?_ ?_ (fun c => ?_) (fun j => ?_) fun c => ?_
    · refine ((hd.setWave _).seen core).trans (.of_seen (by rw [hu]) (by rw [hu]) (fun c => ?_) core)
      rw [hu]; rfl
    · rw [hu]; show (s.undo k).cur = s.cur; rw [hd.same]
    · rw [hu]; exact hgroups
    · rw [hu]; exact hd.core c
    · rw [hu]; exact (hd.setWave ((s.wave k).dropped.enter x tepc)).member rfl j
    · obtain ⟨p, e⟩ := State.ctx_charge ((s.undo k).setWave k ((s.wave k).dropped.enter x tepc))
        (s.group (s.wave k).group).ctx 0x10 1 c
      show (u.ctx c).binds = _
      rw [e]
      show ((s.undo k).ctx c).binds = _
      rw [hd.same]; rfl
  have hut : ∃ t, s.trapAt k tepc x = t ∧ t.wave k = u.wave k ∧ TrapLeaves s t (s.wave k).group := by
    refine ⟨_, rfl, ?_⟩
    unfold State.trapAt
    simp only [hw, hto, if_true]
    have hg' : (s.undo k).group (s.wave k).dropped.group = s.group (s.wave k).group := by
      rw [State.group, hgroups]; rfl
    rw [hg']
    split_ifs
    · exact ⟨rfl, hul.trans (State.freeze_leaves _ _)⟩
    · exact ⟨rfl, hul⟩
  obtain ⟨t, e, ht, hl⟩ := hut
  rw [e]
  refine ⟨⟨?_, ?_, ?_, ?_, ?_, ?_, ?_, fun l hlt => ?_⟩, hl⟩
  all_goals rw [ht, huk]
  case refine_8 => exact lane_lanesOf _ hlt
  all_goals rfl

end Sys2Proof.Machine
end

section
/-! # Rings and reported traps -/

namespace Sys2Proof.Machine

theorem State.chainFuel_congr {s t : State} (h : ∀ c, (t.ctx c).parent = (s.ctx c).parent) (n c : Nat) :
    t.chainFuel n c = s.chainFuel n c := by
  induction n generalizing c with
  | zero => rfl
  | succ n ih =>
    rw [State.chainFuel, State.chainFuel, h]
    cases (s.ctx c).parent with
    | none => rfl
    | some p => simp only [ih]

theorem State.chain_congr {s t : State} (h : ∀ c, (t.ctx c).parent = (s.ctx c).parent) (c : Nat) : t.chain c = s.chain c :=
  State.chainFuel_congr h 8 c

/-! ### An entry goes to a ring -/

/-- From `s` to `t` entry `e` went to a ring, or to a front end (R239). -/
structure RingGot (s t : State) (ring : Option Nat) (part : Nat) (e : RingEntry) : Prop where
  same : t = { s with ctxs := t.ctxs, frontEnds := t.frontEnds, agenda := t.agenda }
  ctx : ∀ c, ∃ q p, t.ctx c = { s.ctx c with ringQ := q, pmc := p }
  got : match ring with
    | some r => (t.ctx r).ringQ = (s.ctx r).ringQ ++ [e]
    | none => (t.frontEnd part).event = e
  others : ∀ c, ring ≠ some c → (t.ctx c).ringQ = (s.ctx c).ringQ
  kept : ∀ q ∈ s.agenda, q ∈ t.agenda

theorem State.toRing_got (s : State) (ring : Option Nat) (part : Nat) (e : RingEntry) :
    RingGot s (s.toRing ring part e) ring part e := by
  cases ring with
  | some r =>
    have hp : Posts (s.setCtx r { s.ctx r with ringQ := (s.ctx r).ringQ ++ [e] }) (s.toRing (some r) part e) :=
      State.posts_postOnce _ 0 (.faultRingWrite r)
    have hctx : ∀ c, (s.toRing (some r) part e).ctx c =
        if c = r then { s.ctx r with ringQ := (s.ctx r).ringQ ++ [e] } else s.ctx c := fun c =>
      (hp.ctx c).trans (State.ctx_setCtx _ _ _ _)
    refine ⟨by rw [hp.ctxs, hp.frontEnds]; exact hp.same, fun c => ?_, ?_, fun c hc => ?_, hp.kept⟩
    · rw [hctx]
      split_ifs with h
      · exact ⟨_, _, by rw [h]⟩
      · exact ⟨_, _, rfl⟩
    · show ((s.toRing (some r) part e).ctx r).ringQ = _
      rw [hctx, if_pos rfl]
    · rw [hctx, if_neg fun h => hc (by rw [h])]
  | none =>
    have he : s.toRing none part e = { s.notice part e with ctxs := (s.toRing none part e).ctxs } := State.charge_eq _ _ _ _
    have hctx : ∀ c, ∃ p, (s.toRing none part e).ctx c = { s.ctx c with pmc := p } := fun c =>
      State.ctx_charge (s.notice part e) e.ctx 0x10 1 c
    refine ⟨?_, fun c => ?_, ?_, fun c _ => ?_, ?_⟩
    · conv_lhs => rw [he]
      rw [show (s.toRing none part e).frontEnds = (s.notice part e).frontEnds by rw [he],
        show (s.toRing none part e).agenda = s.agenda by rw [he]; rfl]
      rfl
    · obtain ⟨p, h⟩ := hctx c
      exact ⟨_, p, h⟩
    · show ((s.toRing none part e).frontEnd part).event = e
      rw [he]
      show ((s.notice part e).frontEnd part).event = e
      rw [State.notice, State.frontEnd_setFrontEnd, if_pos rfl]
    · obtain ⟨p, h⟩ := hctx c
      rw [h]
    · rw [he]
      exact fun q hq => hq

namespace RingGot
variable {s t : State} {ring : Option Nat} {part : Nat} {e : RingEntry}

theorem parent (h : RingGot s t ring part e) (c : Nat) : (t.ctx c).parent = (s.ctx c).parent := by
  obtain ⟨q, p, hc⟩ := h.ctx c
  rw [hc]

theorem binds (h : RingGot s t ring part e) (c : Nat) : (t.ctx c).binds = (s.ctx c).binds := by
  obtain ⟨q, p, hc⟩ := h.ctx c
  rw [hc]

theorem wave (h : RingGot s t ring part e) (k : Nat) : t.wave k = s.wave k := by rw [h.same]; rfl

theorem seen (h : RingGot s t ring part e) (core : Nat) : SameMemory s t core :=
  .of_seen (by rw [h.same]) (by rw [h.same]) (fun c => by rw [h.same]; rfl) core

/-- Moves are put on the agenda afterwards. -/
theorem posts {u : State} (h : RingGot s t ring part e) (hp : Posts t u) : RingGot s u ring part e := by
  refine ⟨?_, fun c => by rw [hp.ctx]; exact h.ctx c, ?_, fun c hc => by rw [hp.ctx]; exact h.others c hc,
    fun q hq => hp.kept q (h.kept q hq)⟩
  · rw [hp.ctxs, hp.frontEnds, hp.same]
    conv_lhs => rw [h.same]
  · have hg := h.got
    cases ring with
    | some r => exact (congrArg Context.ringQ (hp.ctx r)).trans hg
    | none => exact (congrArg FrontEnd.event (hp.frontEnd part)).trans hg

end RingGot

/-! ### The wave stops for a verdict -/

theorem entryOf_congr {s u : State} {k : Nat} (hgroup : (u.wave k).group = (s.wave k).group)
    (hwid : (u.wave k).wid = (s.wave k).wid) (hhandler : (u.wave k).handler = (s.wave k).handler) (hgroups : u.groups = s.groups)
    (hctxs : u.ctxs = s.ctxs) (hticket : u.nextTicket = s.nextTicket) (tepc : Nat) (x : Trap) (refl : Bool) :
    u.entryOf k tepc x refl = s.entryOf k tepc x refl := by
  simp only [State.entryOf, State.group, State.ctx, hgroup, hwid, hhandler, hgroups, hctxs, hticket]

/-- A wave that stands for a verdict on a ticket. -/
def Wave.atVerdict (w : Wave) (n : Nat) : Wave := { w with phase := .verdict n }

/-- The state in which the entry of a wave's trap is written: the ticket is issued, and the wave stands. -/
def State.ticketed (u : State) (k tepc : Nat) (ring : Option Nat) (part len : Nat) (w : Wave) : State :=
  State.setWave { u with
    tickets := u.tickets.set u.nextTicket { wave := k, tepc := tepc, ring := ring.getD part, frontEnd := ring.isNone, skip := len }
    nextTicket := u.nextTicket + 1 } k (w.atVerdict u.nextTicket)

theorem State.reflect_eq (u : State) (k tepc : Nat) (x : Trap) (cs : List Nat) (refl : Bool) :
    u.reflect k tepc x cs refl =
      ((u.ticketed k tepc (u.ringOf cs) (u.partition (u.group (u.wave k).group).ctx) x.len (u.wave k)).toRing (u.ringOf cs)
        (u.partition (u.group (u.wave k).group).ctx) (u.entryOf k tepc x refl)).noteStop (u.wave k).group := rfl

/-- The entry as the claims write it. -/
theorem State.entryOf_cur (s : State) (x : Trap) (refl : Bool) : s.entryOf s.cur s.w.ipc x refl =
    { ctx := s.g.ctx, tcause := x.cause + (if s.w.handler then 2 ^ 8 else 0) + (if refl then 2 ^ 9 else 0), tepc := s.w.ipc
      taddr := x.addr, tinfo := x.info, gid := s.g.gid, word2c := s.w.wid + 2 ^ 8 * s.g.node + 2 ^ 16 * (s.ctx s.g.ctx).depth
      ticket := s.nextTicket } := by
  unfold State.entryOf
  cases hh : s.w.handler <;> cases refl <;> simp only [State.w] at hh <;> simp [hh, State.w, State.g]

/-- The issuing wave's trap, the wave having dropped its instruction, is reported to the rings of a chain. -/
theorem State.reflect_reported {s u : State} (hd : Dropped s u s.cur s.w.dropped) {x y : Trap} (hy : ∃ n, y = { x with len := n })
    (cs : List Nat) (refl : Bool) :
    Claims.ReportedTo s (u.reflect s.cur s.w.ipc y cs refl) x cs refl ∧
      TrapLeaves s (u.reflect s.cur s.w.ipc y cs refl) s.w.group ∧
      ∀ c, ((u.reflect s.cur s.w.ipc y cs refl).core c).matrixQ = (s.core c).matrixQ := by
  obtain ⟨n, rfl⟩ := hy
  have hw : u.wave s.cur = s.w.dropped := by rw [hd.wave, if_pos rfl]
  have hctxs : u.ctxs = s.ctxs := by rw [hd.same]
  have hgroups : u.groups = s.groups := by rw [hd.same]
  have hticket : u.nextTicket = s.nextTicket := by rw [hd.same]
  have hring : u.ringOf cs = s.ringOf cs := by simp only [State.ringOf, State.ctx, hctxs]
  have hgroup : (u.group (u.wave s.cur).group).ctx = s.g.ctx := by rw [hw, State.group, hgroups]; rfl
  have hpart : u.partition s.g.ctx = s.partition s.g.ctx := by
    rw [State.partition, State.partition, State.chain_congr (s := s) (t := u) fun c => by rw [State.ctx, hctxs, State.ctx]]
  have hentry : u.entryOf s.cur s.w.ipc { x with len := n } refl = s.entryOf s.cur s.w.ipc x refl :=
    entryOf_congr (by rw [hw]; rfl) (by rw [hw]; rfl) (by rw [hw]; rfl) hgroups hctxs hticket _ _ _
  let v := u.ticketed s.cur s.w.ipc (s.ringOf cs) (s.partition s.g.ctx) n s.w.dropped
  have hgot : RingGot v (u.reflect s.cur s.w.ipc { x with len := n } cs refl) (s.ringOf cs) (s.partition s.g.ctx)
      (s.entryOf s.cur s.w.ipc x refl) := by
    rw [State.reflect_eq, hring, hgroup, hpart, hentry, hw]
    exact (v.toRing_got _ _ _).posts (State.posts_noteStop _ _)
  generalize u.reflect s.cur s.w.ipc { x with len := n } cs refl = t at hgot ⊢
  have hcur : t.cur = s.cur := by
    rw [hgot.same]
    show u.cur = _
    rw [hd.same]
  have hwt : t.w = s.w.dropped.atVerdict s.nextTicket := by
    rw [State.w, hcur, hgot.wave, ← hticket]
    exact (State.wave_setWave _ _ _ _).trans (if_pos rfl)
  have hctx : ∀ c, v.ctx c = s.ctx c := fun c => by
    show u.ctx c = _
    rw [State.ctx, hctxs, State.ctx]
  refine ⟨⟨by rw [hwt]; rfl, by rw [hwt]; rfl, by rw [hwt]; rfl, by rw [hwt]; rfl, by rw [hwt]; rfl, ?_, ?_⟩, ?_, fun c => ?_⟩
  · rw [hgot.same, ← hticket]
    rfl
  · rw [← State.entryOf_cur]
    have hg := hgot.got
    rw [State.ringOf] at hg
    cases hf : cs.find? (fun c => (s.ctx c).fltEn) with
    | some r =>
      rw [hf] at hg
      exact hg.trans (by rw [hctx])
    | none =>
      rw [hf] at hg
      exact hg
  · refine .ofCores (fun core => ?_) hcur ?_ (fun c => ?_) (fun j => ?_) fun c => ?_
    · exact ((hd.setWave (s.w.dropped.atVerdict u.nextTicket)).seen core).trans
        ((SameMemory.of_seen (s := u.setWave s.cur (s.w.dropped.atVerdict u.nextTicket)) (t := v) rfl rfl (fun _ => rfl) core).trans
          (hgot.seen core))
    · rw [hgot.same]; exact hgroups
    · rw [hgot.same]; exact hd.core c
    · rw [hgot.wave]; exact (hd.setWave (s.w.dropped.atVerdict u.nextTicket)).member rfl j
    · rw [hgot.binds, hctx]
  · obtain ⟨l, hl⟩ := hd.core c
    rw [hgot.same]
    show (u.core c).matrixQ = _
    rw [hl]

/-! ### The issuing wave takes a trap -/

theorem State.toHandler_congr (s : State) (k : Nat) {x y : Trap} (hcause : y.cause = x.cause) (howner : y.owner = x.owner) :
    s.toHandler k y = s.toHandler k x := by
  simp only [State.toHandler, hcause, howner]

/-- A trap that the handler does not take. -/
theorem State.trapAt_reflect {s : State} {tepc : Nat} {x : Trap} (h : s.toHandler s.cur x = false) :
    s.trapAt s.cur tepc x = if x.owner.any (· != s.g.ctx) then (s.undo s.cur).reflect s.cur tepc x (s.chain (x.owner.getD s.g.ctx)) false
      else (s.undo s.cur).reflect s.cur tepc x (s.chain s.g.ctx).tail true := by
  have hd := s.dropped_undo s.cur
  have hw : (s.undo s.cur).wave s.cur = s.w.dropped := by rw [hd.wave, if_pos rfl]; rfl
  have hgroup : (s.undo s.cur).group s.w.dropped.group = s.g := by rw [hd.same]; rfl
  have hto : (s.undo s.cur).toHandler s.cur x = false := by
    simp only [State.toHandler, hw, hgroup]
    exact h
  have hchain : ∀ c, (s.undo s.cur).chain c = s.chain c := fun c =>
    State.chain_congr (s := s) (t := s.undo s.cur) (fun c => by rw [hd.same]; rfl) c
  unfold State.trapAt
  simp only [hto, hw, hgroup, hchain, Bool.false_eq_true, if_false]

/-- A trap at the issue PC, of any cause but an uncorrectable word. -/
theorem State.trap_takes {s : State} {x : Trap} (hx : x.cause ≠ 0x0B) :
    Claims.Takes s (s.trap x) x ∧ TrapLeaves s (s.trap x) s.w.group ∧ (s.trap x).w.file = s.w.file ∧
      (s.toHandler s.cur x = false → ((s.trap x).core s.g.core).matrixQ = s.c.matrixQ) := by
  obtain ⟨n, hn⟩ : ∃ n, s.trap x = s.trapAt s.cur s.w.ipc { x with len := n } := by
    rw [State.trap, State.scheduleTest, if_neg hx]
    exact ⟨_, rfl⟩
  have hlen : s.toHandler s.cur { x with len := n } = s.toHandler s.cur x := s.toHandler_congr s.cur rfl rfl
  rw [hn]
  by_cases h : s.toHandler s.cur x = true
  · obtain ⟨he, hl⟩ := State.trapAt_handler (tepc := s.w.ipc) (hlen.trans h)
    have hfile := he.2.2.2.2.2.2.1
    refine ⟨⟨fun _ => he, fun h' => absurd h (by rw [h']; simp)⟩, hl, ?_, fun h' => absurd h (by rw [h']; simp)⟩
    rw [State.w, hl.cur]
    exact hfile
  · rw [Bool.not_eq_true] at h
    rw [State.trapAt_reflect (hlen.trans h)]
    have hr := fun cs refl => State.reflect_reported (s.dropped_undo s.cur) (x := x) ⟨n, rfl⟩ cs refl
    cases hxo : x.owner with
    | none =>
      obtain ⟨h1, h2, h3⟩ := hr (s.chain s.g.ctx).tail true
      exact ⟨⟨fun h' => absurd h' (by rw [h]; simp),
        fun _ => ⟨fun o ho => absurd (hxo.symm.trans ho) (by simp), fun _ => h1⟩⟩, h2,
        h1.2.2.2.2.1, fun _ => h3 _⟩
    | some o =>
      by_cases ho : o = s.g.ctx
      · have e : (some o).any (· != s.g.ctx) = false := by simp [ho]
        rw [e]
        obtain ⟨h1, h2, h3⟩ := hr (s.chain s.g.ctx).tail true
        refine ⟨⟨fun h' => absurd h' (by rw [h]; simp), fun _ => ⟨fun p hp hne => absurd ?_ hne, fun _ => h1⟩⟩, h2,
          h1.2.2.2.2.1, fun _ => h3 _⟩
        rw [← ho]
        exact Option.some.inj (hp.symm.trans hxo)
      · have e : (some o).any (· != s.g.ctx) = true := by simp [ho]
        rw [e]
        obtain ⟨h1, h2, h3⟩ := hr (s.chain o) false
        refine ⟨⟨fun h' => absurd h' (by rw [h]; simp), fun _ => ⟨fun p hp _ => ?_, fun hall => absurd (hall o hxo) ho⟩⟩, h2,
          h1.2.2.2.2.1, fun _ => h3 _⟩
        rw [Option.some.inj (hp.symm.trans hxo)]
        exact h1

/-- The instruction's own check fails, before which nothing stands. -/
theorem withOperands_bad {s : State} {n : Nat} {os : List Opnd} (h : Ready s n os none) (x : Trap) (body : State → Out) :
    withOperands s n os (some x) body = .next (s.trap { x with len := n }) := by
  obtain ⟨h1, h2, h3, -⟩ := h
  simp only [withOperands, prepare, beforeChecks, h1, h2, h3]
  rfl

/-- The trap of an operand that is refused is the claims'. -/
theorem illegalOperand_refused {s : State} {i : Instr} {code field reg n : Nat}
    (h : exec i s = .next (s.trap { illegalOperand code field reg with len := n })) : Claims.Refused s i code field reg := by
  intro _ hto
  obtain ⟨ht, hl, -, -⟩ := s.trap_takes (x := { illegalOperand code field reg with len := n }) (by simp [illegalOperand])
  refine ⟨_, h, hl.seen _, hl.binds, ?_⟩
  have hx := ht.1 ((s.toHandler_congr s.cur rfl rfl).trans hto)
  simpa [EnteredHandler, illegalOperand] using hx

/-- An instruction whose own check fails is refused. -/
theorem withOperands_refused {s : State} {i : Instr} {n code field reg : Nat} {os : List Opnd} {body : State → Out}
    (h : Ready s n os none) (hi : exec i s = withOperands s n os (some (illegalOperand code field reg)) body) :
    Claims.Refused s i code field reg :=
  illegalOperand_refused (hi.trans (withOperands_bad h _ _))

end Sys2Proof.Machine
end

section
/-! # PWRREQ (O46)

A request changes its domain, and with a granted gate the domain's clusters and FIFOs; `Requested` says that it leaves everything
else, and each kind's lemma what the domain becomes and the code. -/

namespace Sys2Proof.Machine

/-! ### What a request leaves -/

/-- From `s` to `t` a request of domain `d` was performed. -/
structure Requested (s t : State) (d : Nat) : Prop where
  w : t.w = s.w
  seen : ∀ core, SameMemory s t core
  others : ∀ e, e ≠ d → t.domain e = s.domain e

namespace Requested

theorem refl (s : State) (d : Nat) : Requested s s d := ⟨rfl, fun _ => .refl _ _, fun _ _ => rfl⟩

theorem trans {s t u : State} {d : Nat} (h : Requested s t d) (k : Requested t u d) : Requested s u d :=
  ⟨k.w.trans h.w, fun c => (h.seen c).trans (k.seen c), fun e he => (k.others e he).trans (h.others e he)⟩

theorem setDomain (s : State) (d : Nat) (x : Domain) : Requested s (s.setDomain d x) d :=
  ⟨rfl, .of_seen (s := s) (t := s.setDomain d x) rfl rfl fun _ => rfl, fun e he => by rw [State.domain_setDomain, if_neg he]⟩

theorem ofPosts {s t : State} (h : Posts s t) (d : Nat) : Requested s t d := ⟨h.w, h.seen, fun e _ => h.domain e⟩

theorem beginChange (s : State) (d p n : Nat) : Requested s (s.beginChange d p n) d :=
  (setDomain s d _).trans (ofPosts (s.posts_beginChange d p n) d)

theorem startChange (s : State) (d p n : Nat) : Requested s (s.startChange d p n) d := by
  unfold State.startChange
  dsimp only
  split_ifs
  · exact setDomain _ _ _
  · exact refl _ _
  · exact beginChange _ _ _ _

theorem gateGranted (s : State) (d : Nat) : Requested s (s.gateGranted d) d := by
  have hdev : s.gateGranted d = { s with
      domains := (s.gateGranted d).domains, clusters := (s.gateGranted d).clusters, cores := (s.gateGranted d).cores } := by
    rw [State.gateGranted, State.emptySpines_eq, State.gateClusters_eq]
    rfl
  refine ⟨by rw [hdev]; rfl, .of_seen (by rw [hdev]) (by rw [hdev]) fun c => ?_, fun e he => ?_⟩
  · rw [State.core_gateGranted]
    split_ifs <;> rfl
  · rw [State.domain_gateGranted, if_neg he]

theorem gate (s : State) (d : Nat) : Requested s (s.gate d).1 d := by
  unfold State.gate
  dsimp only
  split_ifs with h1 h2
  · exact refl _ _
  · exact setDomain _ _ _
  · unfold execGateGrant
    dsimp only
    split_ifs
    · exact (setDomain s d _).trans (gateGranted _ d)
    · exact setDomain _ _ _

theorem wake (s : State) (d : Nat) : Requested s (s.wake d).1 d := by
  unfold State.wake
  dsimp only
  split_ifs
  · exact (setDomain _ _ _).trans (ofPosts ((State.posts_pokeQueues _).trans (State.posts_pokeGatherer _)) d)
  · exact setDomain _ _ _
  · exact (setDomain _ _ _).trans (ofPosts (State.posts_post _ _ _) d)

theorem point (s : State) (d p n : Nat) : Requested s (s.point d p n).1 d := by
  unfold State.point
  dsimp only
  split
  · exact refl _ _
  · exact (setDomain _ _ _).trans (startChange _ _ _ _)

theorem modeRequest (s : State) (d : Nat) (m : Bool × Nat × Nat) : Requested s (s.modeRequest d m).1 d := by
  unfold State.modeRequest
  dsimp only
  generalize (s.domain d).clampTo _ = q
  generalize (if _ < m.2.1 then m.2.1 else _ : Nat) = p'
  split
  · exact refl _ _
  · split
    · exact setDomain _ _ _
    · exact (setDomain _ _ _).trans (startChange _ _ _ _)

theorem request (s : State) (c w : Nat) : Requested s (s.request c w).1 (bits w 2 0) := by
  unfold State.request
  dsimp only
  split
  · exact refl _ _
  · split
    · exact refl _ _
    · split
      · exact gate _ _
      · exact wake _ _
      · exact point _ _ _ _
      · exact modeRequest _ _ _
      · exact setDomain _ _ _
      · exact refl _ _

end Requested

/-! ### The requests of a domain, kind by kind -/

section
variable {s : State} {d : Nat}

theorem State.gate_already (hg : (s.domain d).gated = true) (hw : (s.domain d).waking = false) : s.gate d = (s, 0) := by
  simp [State.gate, hg, hw]

theorem State.gate_waits (h : (s.domain d).waking = true ∨
      ((s.domain d).gated = false ∧ (s.domainResident d = true ∨ s.domainSpine d = true))) :
    s.gate d = (s.setDomain d { s.domain d with gatePending := true }, 1) := by
  have hres : ∀ y, (s.setDomain d y).domainResident d = s.domainResident d := fun _ => rfl
  have hsp : ∀ y, (s.setDomain d y).domainSpine d = s.domainSpine d := fun _ => rfl
  have hgate : ((s.domain d).gated && !(s.domain d).waking) = false := by
    rcases h with h | h <;> simp [h]
  have hwait : ((s.domain d).waking || s.domainResident d || s.domainSpine d) = true := by
    rcases h with h | ⟨-, h | h⟩ <;> simp [h]
  simp only [State.gate, hgate, hres, hsp, hwait]
  rfl

theorem State.gate_granted (hg : (s.domain d).gated = false) (hw : (s.domain d).waking = false)
    (hr : s.domainResident d = false) (hs : s.domainSpine d = false) :
    s.gate d = ((s.setDomain d { s.domain d with gatePending := true }).gateGranted d, 0) := by
  have hres : ∀ y, (s.setDomain d y).domainResident d = false := fun _ => hr
  have hsp : ∀ y, (s.setDomain d y).domainSpine d = false := fun _ => hs
  have hgrant := execGateGrant_granted (s := s.setDomain d { s.domain d with gatePending := true }) (d := d)
    (by rw [State.domain_setDomain_same]) (by rw [State.domain_setDomain_same]; exact hg) (hres _) (hsp _)
  unfold State.gate
  dsimp only at hgrant ⊢
  rw [if_neg (by simp [hg]), if_neg (by simp [hw, hres, hsp]), hgrant]

theorem State.wake_awake (hg : (s.domain d).gated = false) :
    s.wake d = ((s.setDomain d { s.domain d with gatePending := false }).pokeQueues.pokeGatherer, 0) := by
  simp [State.wake, hg]

theorem State.wake_again (hg : (s.domain d).gated = true) (hw : (s.domain d).waking = true) :
    s.wake d = (s.setDomain d { s.domain d with gatePending := false }, 1) := by
  simp [State.wake, hg, hw]

theorem State.wake_begins (hg : (s.domain d).gated = true) (hw : (s.domain d).waking = false) :
    s.wake d = ((s.setDomain d { s.domain d with waking := true }).post 20000 (.domainWakeComplete d), 1) := by
  simp [State.wake, hg, hw, Config.usCycles]

/-! A point, which the clamp may lower to `q`. -/

variable {p n q : Nat} (hq : (s.domain d).clampTo p = q)
include hq

theorem State.point_below (h : Claims.below s d p n ∨ Claims.below s d q n) : s.point d p n = (s, 3) := by
  have hb : (s.belowFloor d p n || s.belowFloor d q n) = true := by
    rw [Bool.or_eq_true, State.belowFloor_iff, State.belowFloor_iff]
    exact h
  simp only [State.point, hq, hb, if_true]

variable (hp : ¬Claims.below s d p n) (hqn : ¬Claims.below s d q n)
include hp hqn

theorem State.point_performed : s.point d p n =
    let t := (s.setDomain d { s.domain d with mode := none }).startChange d q n
    (t, if q ≠ p then 5 else if (t.domain d).step.isSome then 1 else 0) := by
  have hb : (s.belowFloor d p n || s.belowFloor d q n) = false := by
    rw [(s.belowFloor_eq_false _ _ _).mpr hp, (s.belowFloor_eq_false _ _ _).mpr hqn]
    rfl
  simp only [State.point, hq, hb]
  rfl

theorem State.point_there (hstep : (s.domain d).step = none) (hpoint : (s.domain d).point = q) (hunderv : (s.domain d).underv = n) :
    s.point d p n = (s.setDomain d { s.domain d with mode := none }, if q ≠ p then 5 else 0) := by
  rw [State.point_performed hq hp hqn, State.startChange_there (by rw [State.domain_setDomain_same]; exact hstep)
    (by rw [State.domain_setDomain_same]; exact hpoint) (by rw [State.domain_setDomain_same]; exact hunderv)]
  simp [hstep]

theorem State.point_begins (hstep : (s.domain d).step = none) (hne : (s.domain d).point ≠ q ∨ (s.domain d).underv ≠ n) :
    s.point d p n = ((s.setDomain d { s.domain d with mode := none }).beginChange d q n, if q ≠ p then 5 else 1) := by
  rw [State.point_performed hq hp hqn, State.startChange_begins (by rw [State.domain_setDomain_same]; exact hstep)
    (by rw [State.domain_setDomain_same]; exact hne)]
  simp [State.domain_beginChange, Domain.stepping]

theorem State.point_follows (hstep : (s.domain d).step ≠ none) :
    s.point d p n = (s.setDomain d { s.domain d with mode := none, target := some (q, n) }, if q ≠ p then 5 else 1) := by
  rw [State.point_performed hq hp hqn, State.startChange_of_step (by rw [State.domain_setDomain_same]; exact hstep)]
  simp [Option.isSome_iff_ne_none, hstep]

end

/-! A mode: the domain goes to the bound `g` of the range, which the clamp may lower to `q`. -/

/-- The point of a range that is nearest to another. -/
def nearest (lo hi p : Nat) : Nat := if p < lo then lo else if hi < p then hi else p

section
variable {s : State} {d g q : Nat} {m : Bool × Nat × Nat} (hg : nearest m.2.1 m.2.2 (s.domain d).bound.1 = g)
include hg

theorem State.modeRequest_below (hne : g ≠ (s.domain d).bound.1) (h : Claims.below s d g (s.domain d).bound.2) :
    s.modeRequest d m = (s, 3) := by
  subst hg
  exact if_pos ⟨hne, (s.belowFloor_iff _ _ _).mpr h⟩

variable (hq : (s.domain d).clampTo g = q) (hb : g = (s.domain d).bound.1 ∨ ¬Claims.below s d g (s.domain d).bound.2)
include hq hb

theorem State.modeRequest_performed : s.modeRequest d m =
    if (s.domain d).step.isNone ∧ q = (s.domain d).bound.1 then (s.setDomain d ((s.domain d).setMode m), if q ≠ g then 5 else 0)
    else ((s.setDomain d { s.domain d with mode := some m }).startChange d q (s.domain d).bound.2, if q ≠ g then 5 else 1) := by
  have hno : ¬(g ≠ (s.domain d).bound.1 ∧ s.belowFloor d g (s.domain d).bound.2 = true) := by
    rw [State.belowFloor_iff]
    tauto
  subst hq hg
  exact if_neg hno

theorem State.modeRequest_there (hstep : (s.domain d).step = none) (h : q = (s.domain d).point) :
    s.modeRequest d m = (s.setDomain d ((s.domain d).setMode m), if q ≠ g then 5 else 0) := by
  have hbound : (s.domain d).bound.1 = (s.domain d).point := by rw [Domain.bound, hstep]; rfl
  rw [State.modeRequest_performed hg hq hb, if_pos ⟨by rw [hstep]; rfl, h.trans hbound.symm⟩]

theorem State.modeRequest_begins (hstep : (s.domain d).step = none) (h : q ≠ (s.domain d).point) :
    s.modeRequest d m = ((s.setDomain d { s.domain d with mode := some m }).beginChange d q (s.domain d).underv,
      if q ≠ g then 5 else 1) := by
  have hbound : (s.domain d).bound = ((s.domain d).point, (s.domain d).underv) := by rw [Domain.bound, hstep]; rfl
  rw [State.modeRequest_performed hg hq hb, hbound, if_neg fun k => h k.2,
    State.startChange_begins (by rw [State.domain_setDomain_same]; exact hstep)
      (.inl (by rw [State.domain_setDomain_same]; exact fun e => h e.symm))]

theorem State.modeRequest_follows (hstep : (s.domain d).step ≠ none) :
    s.modeRequest d m = (s.setDomain d { s.domain d with mode := some m, target := some (q, (s.domain d).bound.2) },
      if q ≠ g then 5 else 1) := by
  rw [State.modeRequest_performed hg hq hb, if_neg fun k => hstep (Option.isNone_iff_eq_none.mp k.1),
    State.startChange_of_step (by rw [State.domain_setDomain_same]; exact hstep)]
  simp

end

/-! ### The request word -/

/-- The fields of a request word, as the claims cut them. -/
theorem powerBad_iff (w : Nat) :
    powerBad w = true ↔ w / 2 ^ 3 % 2 ^ 5 ≠ 0 ∨ w / 2 ^ 11 % 2 ^ 21 ≠ 0 ∨ 6 ≤ w / 2 ^ 8 % 8 := by
  simp only [powerBad, Bool.or_eq_true, bne_iff_ne, decide_eq_true_eq]
  simp only [bits, Nat.reduceAdd, Nat.reduceSub]
  tauto

theorem argOk_iff (kind : Nat) {a : Nat} (ha : a < 2 ^ 32) : argOk kind a = true ↔ Claims.powerArg kind a := by
  match kind with
  | 0 | 1 | _ + 5 => simp [argOk, Claims.powerArg]
  | 4 => simp [argOk, Claims.powerArg]
  | 2 =>
    simp only [argOk, Claims.powerArg, Bool.and_eq_true, decide_eq_true_eq, beq_iff_eq]
    simp only [bits, Nat.reduceAdd, Nat.reduceSub]
    omega
  | 3 =>
    simp only [argOk, Claims.powerArg, Bool.and_eq_true, decide_eq_true_eq, beq_iff_eq]
    simp only [bits, Nat.reduceAdd, Nat.reduceSub]
    omega

theorem bits_arg {w : Nat} (hw : w < 2 ^ 64) : bits w 63 32 = w / 2 ^ 32 := by
  rw [bits, Nat.mod_eq_of_lt (by omega)]

/-- The owner's request of a kind, with an argument in range. -/
def State.performed (s : State) (d kind a : Nat) : State × Nat :=
  match kind with
  | 0 => s.gate d
  | 1 => s.wake d
  | 2 => s.point d (a % 32) (a / 2 ^ 8 % 16)
  | 3 => s.modeRequest d (decide (a % 2 = 1), a / 2 ^ 8 % 32, a / 2 ^ 16 % 32)
  | 4 => (s.setDomain d { s.domain d with hold := a }, 0)
  | _ => (s, if (s.domain d).busy then 1 else 0)

section
variable {s : State} {c w : Nat}

theorem bits_domain (w : Nat) : bits w 2 0 = w % 8 := by simp [bits]

theorem State.request_foreign (h : s.domainOwner (w % 8) ≠ some c) : s.request c w = (s, 2) := by
  rw [← bits_domain] at h
  exact if_pos h

variable (hown : s.domainOwner (w % 8) = some c) (hw : w < 2 ^ 64)
include hown hw

theorem State.request_range (h : ¬Claims.powerArg (w / 2 ^ 8 % 8) (w / 2 ^ 32)) : s.request c w = (s, 4) := by
  have hno : argOk (bits w 10 8) (bits w 63 32) = false := by
    rw [bits_arg hw, ← Bool.not_eq_true, argOk_iff _ (by omega)]
    exact h
  rw [← bits_domain] at hown
  exact (if_neg (not_not_intro hown)).trans (if_pos hno)

theorem State.request_performed (h : Claims.powerArg (w / 2 ^ 8 % 8) (w / 2 ^ 32)) :
    s.request c w = s.performed (w % 8) (w / 2 ^ 8 % 8) (w / 2 ^ 32) := by
  have hyes : argOk (bits w 10 8) (bits w 63 32) = true := by
    rw [bits_arg hw, argOk_iff _ (by omega)]
    exact h
  have hbit : (bits (w / 2 ^ 32) 0 0 == 1) = decide (w / 2 ^ 32 % 2 = 1) := by
    rw [beq_eq_decide]
    simp [bits]
  rw [← bits_domain] at hown ⊢
  refine (if_neg (not_not_intro hown)).trans ((if_neg (by rw [hyes]; simp)).trans ?_)
  rw [bits_arg hw, hbit]
  simp only [bits, pow_zero, Nat.div_one]
  rfl

end

theorem Domain.clampTo_free {x : Domain} {p : Nat} (h : x.clamped = false ∨ p ≤ x.clampedPoint) : x.clampTo p = p := by
  unfold Domain.clampTo
  rcases h with h | h
  · rw [h]; rfl
  · split_ifs
    · omega
    · rfl

theorem Domain.clampTo_held {x : Domain} {p : Nat} (h : x.clamped = true) (hp : x.clampedPoint < p) : x.clampTo p = x.clampedPoint := by
  rw [Domain.clampTo, if_pos h]
  omega

/-! ### The obligation -/

theorem State.powerWord_claims (s : State) (d code : Nat) : s.powerWord d code = BitVec.ofNat 64 (Claims.powerWord s d code) := by
  have hone : ∀ (b : Bool) (k : Nat), (if b = true then 2 ^ k else 0) = 2 ^ k * b.toNat := fun b k => by cases b <;> simp
  simp only [State.powerWord, Claims.powerWord, hone]
  congr 1
  ring

theorem exec_powers {d a : Nat} {i : Instr} (h : Claims.powers d a i) (s : State) : exec i s = pwrreq d a s := by
  rcases h with rfl | rfl | rfl | rfl | rfl | rfl <;> rfl

/-- PWRREQ answers what its request leaves. -/
theorem powers_answer {s r : State} {d a : Nat} {i : Instr} {code : Nat} (hi : Claims.powers d a i)
    (hr : Ready s 4 (Claims.opsDA d a) none) (hs : Issues s) (hbad : powerBad (s.sreg a).toNat = false)
    (hreq : (s.touched (Claims.opsDA d a)).request s.g.ctx (s.sreg a).toNat = (r, code)) {p : State → Prop}
    (hp : ∀ u, p (r.setW u)) : Claims.PowerAnswer s i d ((s.sreg a).toNat % 8) code p := by
  have hk : Requested (s.touched (Claims.opsDA d a)) r ((s.sreg a).toNat % 8) := by
    have h := Requested.request (s.touched (Claims.opsDA d a)) s.g.ctx (s.sreg a).toNat
    rwa [hreq, bits_domain] at h
  have hw : r.w = s.w.touch s.now (Claims.opsDA d a) := hk.w.trans (State.touched_w _ _)
  obtain ⟨u, hput, hdone, hsreg, -⟩ := State.putS_done hw ((SameMemory.touched s _ _).trans (hk.seen _)) hs d
    (r.powerWord ((s.sreg a).toNat % 8) code)
  refine ⟨_, ?_, hdone, ?_, hk.others, hp u⟩
  · rw [exec_powers hi, pwrreq, hbad]
    refine (withOperands_ready hr _).trans ?_
    simp only [State.touched_sreg, State.touched_g, hreq, bits_domain]
    exact hput
  · rw [State.setW_w, hsreg]
    exact State.powerWord_claims _ _ _

/-- The instruction answers what a request leaves: its code, and whatever holds of the domain and the other units. -/
def Answers (s : State) (i : Instr) (d dom : Nat) (x : State × Nat) : Prop :=
  ∀ (code : Nat) (p : State → Prop), x.2 = code → (∀ u, p (x.1.setW u)) → Claims.PowerAnswer s i d dom code p

/-- A change that begins under another mode. -/
theorem State.changing_mode (s : State) (os : List Opnd) (d : Nat) (m : Option (Bool × Nat × Nat)) (p n : Nat) (u : Wave) :
    Claims.Changing s ((((s.touched os).setDomain d { s.domain d with mode := m }).beginChange d p n).setW u) d p n :=
  @State.beginChange_changing ((s.touched os).setDomain d { s.domain d with mode := m }) s d rfl
    (by rw [State.domain_setDomain_same]) (by rw [State.domain_setDomain_same]) p n

section
variable {s : State} {os : List Opnd} {i : Instr} {d dom : Nat}

theorem domain_set_touched (y : Domain) (u : Wave) : (((s.touched os).setDomain dom y).setW u).domain dom = y :=
  State.domain_setDomain_same (s.touched os) dom y

theorem gate_answers (h : Answers s i d dom ((s.touched os).gate dom)) :
    let x := s.domain dom
    let answers := Claims.PowerAnswer s i d dom
    (x.gated = true → x.waking = false → answers 0 fun t => t.domain dom = x) ∧
      (x.waking = true ∨ (x.gated = false ∧ (s.domainResident dom = true ∨ s.domainSpine dom = true)) →
        answers 1 fun t => t.domain dom = { x with gatePending := true }) ∧
      (x.gated = false → x.waking = false → s.domainResident dom = false → s.domainSpine dom = false →
        answers 0 fun t => t.domain dom = { x with gatePending := false, gated := true } ∧
          (∀ c ∈ domainClusters dom, (t.cluster c).gated = true) ∧ ∀ c ∈ domainCores dom, (t.core c).spine.entries = []) := by
  refine ⟨fun hg hwk => ?_, fun hwait => ?_, fun hg hwk hres hsp => ?_⟩
  · rw [State.gate_already (s := s.touched os) hg hwk] at h
    exact h _ _ rfl fun _ => rfl
  · rw [State.gate_waits (s := s.touched os) hwait] at h
    exact h _ _ rfl (domain_set_touched _)
  · rw [State.gate_granted (s := s.touched os) hg hwk hres hsp] at h
    refine h _ _ rfl fun u => ?_
    have hspec := ((s.touched os).setDomain dom { s.domain dom with gatePending := true }).gateGranted_spec dom
    rw [State.domain_setDomain_same] at hspec
    exact hspec

theorem wake_answers (h : Answers s i d dom ((s.touched os).wake dom)) :
    let x := s.domain dom
    let answers := Claims.PowerAnswer s i d dom
    (x.gated = false → answers 0 fun t => t.domain dom = { x with gatePending := false }) ∧
      (x.gated = true → x.waking = true → answers 1 fun t => t.domain dom = { x with gatePending := false }) ∧
      (x.gated = true → x.waking = false → answers 1 fun t => t.domain dom = { x with waking := true } ∧
        (s.now + 20000, .domainWakeComplete dom) ∈ t.agenda) := by
  refine ⟨fun hg => ?_, fun hg hwk => ?_, fun hg hwk => ?_⟩
  · rw [State.wake_awake (s := s.touched os) hg] at h
    refine h _ _ rfl fun u => ?_
    exact (((State.posts_pokeQueues _).trans (State.posts_pokeGatherer _)).domain dom).trans (domain_set_touched _ u)
  · rw [State.wake_again (s := s.touched os) hg hwk] at h
    exact h _ _ rfl (domain_set_touched _)
  · rw [State.wake_begins (s := s.touched os) hg hwk] at h
    exact h _ _ rfl fun u => ⟨domain_set_touched _ u, State.mem_post.mpr (.inl rfl)⟩

/-- POINT, when the clamp makes `q` of the point. -/
theorem point_answers {p n q : Nat} (hq : (s.domain dom).clampTo p = q) (h : Answers s i d dom ((s.touched os).point dom p n)) :
    let x := s.domain dom
    let answers := fun code => Claims.PowerAnswer s i d dom (if q ≠ p then 5 else code)
    (Claims.below s dom p n ∨ Claims.below s dom q n → Claims.PowerAnswer s i d dom 3 fun t => t.domain dom = x) ∧
      (¬Claims.below s dom p n → ¬Claims.below s dom q n →
        (x.step = none → x.point = q → x.underv = n → answers 0 fun t => t.domain dom = { x with mode := none }) ∧
        (x.step = none → (x.point ≠ q ∨ x.underv ≠ n) → answers 1 fun t => Claims.Changing s t dom q n) ∧
        (x.step ≠ none → answers 1 fun t => t.domain dom = { x with mode := none, target := some (q, n) })) := by
  have hq' : ((s.touched os).domain dom).clampTo p = q := hq
  refine ⟨fun hb => ?_, fun hb hb' => ⟨fun hstep hp hn => ?_, fun hstep hne => ?_, fun hstep => ?_⟩⟩
  · rw [State.point_below hq' hb] at h
    exact h _ _ rfl fun _ => rfl
  · rw [State.point_there hq' hb hb' hstep hp hn] at h
    exact h _ _ rfl (domain_set_touched _)
  · rw [State.point_begins hq' hb hb' hstep hne] at h
    exact h _ _ rfl (s.changing_mode os dom none q n)
  · rw [State.point_follows hq' hb hb' hstep] at h
    exact h _ _ rfl (domain_set_touched _)

/-- MODE, whose range sends the domain to `g`, of which the clamp makes `q`. -/
theorem mode_answers {m : Bool × Nat × Nat} {g q : Nat} (hg : nearest m.2.1 m.2.2 (s.domain dom).bound.1 = g)
    (hq : (s.domain dom).clampTo g = q) (h : Answers s i d dom ((s.touched os).modeRequest dom m)) :
    let x := s.domain dom
    (g ≠ x.bound.1 → Claims.below s dom g x.bound.2 → Claims.PowerAnswer s i d dom 3 fun t => t.domain dom = x) ∧
      (g = x.bound.1 ∨ ¬Claims.below s dom g x.bound.2 →
        (x.step = none → q = x.point → Claims.PowerAnswer s i d dom (if q = g then 0 else 5) fun t =>
          t.domain dom = { x with auto := m.1, lo := m.2.1, hi := m.2.2, mode := none }) ∧
        (x.step = none → q ≠ x.point → Claims.PowerAnswer s i d dom (if q = g then 1 else 5) fun t =>
          Claims.Changing s t dom q x.underv ∧ (t.domain dom).mode = some m) ∧
        (x.step ≠ none → Claims.PowerAnswer s i d dom (if q = g then 1 else 5) fun t =>
          t.domain dom = { x with mode := some m, target := some (q, x.bound.2) })) := by
  have hg' : nearest m.2.1 m.2.2 ((s.touched os).domain dom).bound.1 = g := hg
  have hq' : ((s.touched os).domain dom).clampTo g = q := hq
  refine ⟨fun hne hb => ?_, fun hb => ⟨fun hstep hp => ?_, fun hstep hp => ?_, fun hstep => ?_⟩⟩
  · rw [State.modeRequest_below hg' hne hb] at h
    exact h _ _ rfl fun _ => rfl
  · rw [State.modeRequest_there hg' hq' hb hstep hp] at h
    exact h _ _ (ite_not _ _ _) (domain_set_touched _)
  · rw [State.modeRequest_begins hg' hq' hb hstep hp] at h
    refine h _ _ (ite_not _ _ _) fun u => ⟨s.changing_mode os dom (some m) q _ u, ?_⟩
    exact (congrArg Domain.mode (State.domain_beginChange _ _ _ _)).trans (congrArg Domain.mode (State.domain_setDomain_same _ _ _))
  · rw [State.modeRequest_follows hg' hq' hb hstep] at h
    exact h _ _ (ite_not _ _ _) (domain_set_touched _)

end

/-- Settles O46: each request is performed as the lemma of its kind says, and its code is answered. -/
theorem powerRequests : Obligations.PowerRequests := by
  unfold Obligations.PowerRequests
  intro d a i s hi _ _ hr hs
  dsimp only
  have hw : (s.sreg a).toNat < 2 ^ 64 := (s.sreg a).isLt
  have hill := powerBad_iff (s.sreg a).toNat
  generalize hW : (s.sreg a).toNat = w at hw hill ⊢
  have hans : ¬(w / 2 ^ 3 % 2 ^ 5 ≠ 0 ∨ w / 2 ^ 11 % 2 ^ 21 ≠ 0 ∨ 6 ≤ w / 2 ^ 8 % 8) → ∀ {x : State × Nat},
      (s.touched (Claims.opsDA d a)).request s.g.ctx w = x → Answers s i d (w % 8) x := by
    rintro hno ⟨r, code⟩ hreq _ p rfl hp
    subst hW
    exact powers_answer hi hr hs (by rw [← Bool.not_eq_true, hill]; exact hno) hreq hp
  refine ⟨fun h => illegalOperand_refused (n := 4) ((exec_powers hi s).trans ?_), fun hno hown => ?_, fun hno hown harg => ?_,
    fun hno hown harg => ?_⟩
  · rw [pwrreq, hW, hill.mpr h]
    exact withOperands_bad hr _ _
  · exact hans hno (State.request_foreign hown) _ _ rfl fun _ => rfl
  · exact hans hno (State.request_range hown hw harg) _ _ rfl fun _ => rfl
  replace hans := hans hno (State.request_performed hown hw harg)
  generalize w / 2 ^ 8 % 8 = kind at hans ⊢
  generalize w / 2 ^ 32 = arg at hans ⊢
  generalize w % 8 = dom at hans ⊢
  refine ⟨?_, ?_, ?_, ?_, ?_, ?_, ?_⟩
  · rintro rfl
    exact gate_answers hans
  · rintro rfl
    exact wake_answers hans
  · rintro rfl hclamp
    obtain ⟨hbelow, hrest⟩ := point_answers (Domain.clampTo_free hclamp) hans
    simp only [ne_eq, not_true_eq_false, if_false] at hrest
    exact ⟨fun hb => hbelow (.inl hb), fun hb => hrest hb hb⟩
  · rintro rfl hclamp hlt
    obtain ⟨hbelow, hrest⟩ := point_answers (Domain.clampTo_held hclamp hlt) hans
    simp only [if_pos (Nat.ne_of_lt hlt)] at hrest
    exact ⟨hbelow, hrest⟩
  · rintro rfl
    exact mode_answers rfl rfl hans
  · rintro rfl
    exact hans _ _ rfl (domain_set_touched _)
  · rintro rfl
    exact hans _ _ rfl fun _ => rfl

end Sys2Proof.Machine
end

section
/-! # Circular buffers (O33) -/

namespace Sys2Proof.Machine

/-! ### Tile instructions -/

theorem skipped_iff (s : State) : Claims.skipped s ↔ (!s.w.predBusy && s.skips) = true := by
  have hbusy : s.w.predBusy = false ↔ ∀ x, s.w.pre = some x → s.w.mbusy.getLsbD x.pm = false := by
    unfold Wave.predBusy
    cases s.w.pre <;> simp
  simp only [Claims.skipped, ← hbusy, State.skips, Bool.and_eq_true, Bool.not_eq_true']
  tauto

/-- A tile instruction that is not skipped is like any other. -/
theorem tileThen_awake {s : State} (h : ¬Claims.skipped s) (os : List Opnd) (chk : Option Trap) (k : State → Out) :
    tileThen s os chk k = withOperands s 4 os chk k := by
  rw [skipped_iff, Bool.not_eq_true] at h
  rw [tileThen, Bool.and_assoc, h]
  simp

theorem tileThen_skipped {s : State} (h : Claims.skipped s) {os : List Opnd} (ho : operandTrap s.w 4 os = none)
    (chk : Option Trap) (k : State → Out) : tileThen s os chk k = .next (s.finish 4) := by
  rw [skipped_iff] at h
  rw [tileThen, Bool.and_assoc, h, ho]
  rfl

/-! ### An empty store queue -/

theorem State.drain_empty {s : State} (h : s.w.storeQ = []) : s.drain s.cur = s := by
  have hlen : (s.wave s.cur).storeQ.length = 0 := by rw [show (s.wave s.cur).storeQ = [] from h]; rfl
  rw [State.drain, hlen]
  rfl

theorem State.quiet_empty {s : State} (h : s.w.storeQ = []) : s.quiet = (s, !s.w.loading) := by
  simp only [State.quiet, State.drain_empty h, h]
  rfl

theorem Wave.touch_storeQ (w : Wave) (now : Nat) (os : List Opnd) : (w.touch now os).storeQ = w.storeQ := by rw [Wave.touch_eq]
theorem Wave.touch_loading (w : Wave) (now : Nat) (os : List Opnd) : (w.touch now os).loading = w.loading := by
  rw [Wave.touch_eq]; rfl

theorem State.touched_c (s : State) (os : List Opnd) : (s.touched os).c = s.c := by
  rw [State.c, State.c, State.touched_g]
  rfl

/-! ### The issuing wave's core -/

theorem State.c_setC (s : State) (x : Core) : (s.setC x).c = x := by
  rw [State.c, State.setC, State.core_setCore]
  exact if_pos rfl

/-- The state with descriptor `c` of its core set. -/
def State.setCb (s : State) (c : Nat) (y : CBuf) : State := s.setC { s.c with cbs := s.c.cbs.set c y }

theorem State.cbuf_setCb (s : State) (c d : Nat) (y : CBuf) :
    Claims.cbuf (s.setCb c y) d = if d = c then y else Claims.cbuf s d := by
  rw [Claims.cbuf, State.setCb, State.c_setC]
  exact Tab.getD_set _ _ _ _ _

theorem State.setCb_seen (s : State) (c : Nat) (y : CBuf) (core : Nat) : SameMemory s (s.setCb c y) core := by
  unfold State.setCb State.setC
  refine SameMemory.setCore s ?_ core
  rfl

theorem Claims.cbuf_setW (s : State) (u : Wave) (hg : u.group = s.w.group) (c : Nat) :
    Claims.cbuf (s.setW u) c = Claims.cbuf s c := by
  rw [Claims.cbuf, Claims.cbuf, State.c, State.c, State.g, State.setW_w, hg]
  rfl

theorem Wave.group_of_rest {u w : Wave} (h : u.rest = w.rest) : u.group = w.group := congrArg (·.1.1) h

theorem Claims.cbuf_posts {s t : State} (h : Posts s t) (c : Nat) : Claims.cbuf t c = Claims.cbuf s c := by
  rw [Claims.cbuf, Claims.cbuf, State.c, State.c, h.g, h.core]

theorem Claims.cbuf_touched (s : State) (os : List Opnd) (c : Nat) : Claims.cbuf (s.touched os) c = Claims.cbuf s c := by
  rw [Claims.cbuf, Claims.cbuf, State.touched_c]

section
variable {s r : State} {os : List Opnd}

/-- A descriptor is set, and moves are put on the agenda. -/
structure CbSet (s r : State) (os : List Opnd) (c : Nat) (y : CBuf) : Prop where
  w : r.w = s.w.touch s.now os
  seen : SameMemory s r s.g.core
  cbuf : ∀ d, Claims.cbuf r d = if d = c then y else Claims.cbuf s d

theorem CbSet.set (s : State) (os : List Opnd) (c : Nat) (y : CBuf) : CbSet s ((s.touched os).setCb c y) os c y :=
  ⟨State.touched_w _ _, (SameMemory.touched _ _ _).trans (State.setCb_seen _ _ _ _), fun d => by
    rw [State.cbuf_setCb, Claims.cbuf_touched]⟩

theorem CbSet.posts {t : State} {c : Nat} {y : CBuf} (h : CbSet s r os c y) (hp : Posts r t) : CbSet s t os c y :=
  ⟨hp.w.trans h.w, h.seen.trans (hp.seen _), fun d => by rw [Claims.cbuf_posts hp, h.cbuf]⟩

/-- The instruction that set a descriptor moves on. -/
theorem CbSet.done {c : Nat} {y : CBuf} (h : CbSet s r os c y) (hs : Issues s) :
    Done s (r.finish 4) [] [] [] false ∧ ∀ d, Claims.cbuf (r.finish 4) d = if d = c then y else Claims.cbuf s d := by
  obtain ⟨hdone, u, ht, -, -, hrest⟩ := State.done_touched h.w h.seen hs
  refine ⟨hdone, fun d => ?_⟩
  rw [ht, Claims.cbuf_setW _ _ (Wave.group_of_rest hrest), h.cbuf]

end

/-! ### CBSET -/

/-- CBSET's check of its word is the claims' (R372). -/
theorem cbset_check_iff (s : State) (w : Nat) :
    (bits w 61 48 ≠ 0 ∨ bits w 27 12 ≠ 0 ∨ bits w 47 40 = 0 ∨ bits w 39 28 = 0 ∨
      (if w.testBit 62 then s.g.rw.size else s.g.ra.size) < (bits w 11 0 + bits w 47 40 * bits w 39 28) * 128) ↔
      ¬Claims.cbWord s w := by
  have htest : w.testBit 62 = true ↔ w / 2 ^ 62 % 2 = 1 := by
    rw [Nat.testBit_eq_decide_div_mod_eq, decide_eq_true_eq]
  simp only [Claims.cbWord, htest]
  simp only [bits, Nat.reduceAdd, Nat.reduceSub, pow_zero, Nat.div_one]
  rw [← Nat.not_le]
  tauto

/-- The descriptor that a word sets. -/
def cbOf (s : State) (w : Nat) : CBuf :=
  { valid := true, buf := w / 2 ^ 62 % 2, count := w / 2 ^ 40 % 256, slot := w / 2 ^ 28 % 4096
    base := w % 4096, owner := s.w.group, free := w / 2 ^ 40 % 256 }

section
variable {s : State} {c a : Nat} (hr : Ready s 4 (Claims.scalar1 a) none)
include hr

theorem cbset_foreign (hv : (Claims.cbuf s c).valid = true) (ho : (Claims.cbuf s c).owner ≠ s.w.group) :
    Claims.Refused s (.cbset c a) 0x59 0 c := by
  refine illegalOperand_refused (n := 4) ?_
  show execCbset c a s = _
  rw [execCbset, if_pos ⟨hv, ho⟩]
  exact withOperands_bad hr _ _

variable (hmine : (Claims.cbuf s c).valid = true → (Claims.cbuf s c).owner = s.w.group)
include hmine

theorem cbset_badWord (hw : ¬Claims.cbWord s (s.sreg a).toNat) : Claims.Refused s (.cbset c a) 0x5A 1 a := by
  refine illegalOperand_refused (n := 4) ?_
  show execCbset c a s = _
  rw [execCbset, if_neg fun h => h.2 (hmine h.1), if_pos ((cbset_check_iff s _).mpr hw)]
  exact withOperands_bad hr _ _

/-- A word that CBSET takes is looked at again with the operands. -/
theorem cbset_taken (hw : Claims.cbWord s (s.sreg a).toNat) : exec (.cbset c a) s =
    if (Claims.cbuf s c).claimed.isEmpty then
      .next ((((s.touched (Claims.scalar1 a)).setCb c (cbOf s (s.sreg a).toNat)).pokeEngines (s.g.core / 4)).finish 4)
    else .next (s.touched (Claims.scalar1 a)).block := by
  show execCbset c a s = _
  rw [execCbset, if_neg fun h => h.2 (hmine h.1), if_neg fun h => (cbset_check_iff s _).mp h hw]
  refine (withOperands_ready hr _).trans ?_
  simp only [State.touched_sreg, State.touched_c, State.touched_g, State.touched_group]
  have hy : cbOf s (s.sreg a).toNat =
      { valid := true, buf := bits (s.sreg a).toNat 62 62, count := bits (s.sreg a).toNat 47 40
        slot := bits (s.sreg a).toNat 39 28, base := bits (s.sreg a).toNat 11 0
        owner := s.w.group, free := bits (s.sreg a).toNat 47 40 } := by
    simp [cbOf, bits]
  rw [← hy, State.setCb, State.touched_c]
  rfl

end

/-! ### CBWAIT and CBREL -/

/-- The operand of an instruction that answers a scalar. -/
def answerTo (d : Nat) : List Opnd := [{ field := 0, kind := .s, reg := d, dst := true }]

/-- The descriptor with its oldest filled slot taken. -/
def CBuf.take (x : CBuf) : CBuf := { x with filled := x.filled - 1, rdidx := (x.rdidx + 1) % x.count, taken := x.taken + 1 }
/-- The window offset of the oldest filled slot, and its index. -/
def CBuf.answer (x : CBuf) : DWord := BitVec.ofNat 64 ((x.base + x.rdidx * x.slot) * 128 % 2 ^ 24 + x.rdidx * 2 ^ 24)

theorem cbCheck_bad {s : State} {c field : Nat} {taken : Bool} (h : ¬((Claims.cbuf s c).valid = true ∧
      (Claims.cbuf s c).owner = s.w.group ∧ (taken = true → (Claims.cbuf s c).taken ≠ 0))) :
    cbCheck s c field taken = some (illegalOperand 0x5B field c) := by
  refine if_pos ?_
  rw [not_and_or, Bool.not_eq_true, not_and_or, Classical.not_imp, not_not] at h
  exact h

theorem cbCheck_passes {s : State} {c field : Nat} {taken : Bool} (hv : (Claims.cbuf s c).valid = true)
    (ho : (Claims.cbuf s c).owner = s.w.group) (ht : taken = true → (Claims.cbuf s c).taken ≠ 0) :
    cbCheck s c field taken = none := by
  refine if_neg ?_
  rintro (h | h | h)
  · exact absurd hv (by rw [show (Claims.cbuf s c).valid = false from h]; simp)
  · exact h ho
  · exact ht h.1 h.2

section
variable {s : State} {c : Nat} (hno : ¬Claims.skipped s)
include hno

section
variable {d : Nat} (hr : Ready s 4 (answerTo d) none)
include hr

theorem cbwait_foreign (h : ¬((Claims.cbuf s c).valid = true ∧ (Claims.cbuf s c).owner = s.w.group)) :
    Claims.Refused s (.cbwait d c) 0x5B 1 c := by
  refine illegalOperand_refused (n := 4) ?_
  show execCbwait d c s = _
  rw [execCbwait, tileThen_awake hno, cbCheck_bad (by tauto)]
  exact withOperands_bad hr _ _

variable (hv : (Claims.cbuf s c).valid = true) (ho : (Claims.cbuf s c).owner = s.w.group) (hq : s.w.storeQ = [])
include hv ho hq

theorem cbwait_mine : exec (.cbwait d c) s =
    let r := s.touched (answerTo d)
    if (Claims.cbuf s c).filled = 0 then .next r.block
    else if s.w.loading then .next r.block
    else (r.setCb c (Claims.cbuf s c).take).putS d (Claims.cbuf s c).answer := by
  show execCbwait d c s = _
  rw [execCbwait, tileThen_awake hno, cbCheck_passes hv ho (by simp)]
  refine (withOperands_ready hr _).trans ?_
  have hq' : (s.touched (answerTo d)).w.storeQ = [] := by
    rw [State.touched_w, Wave.touch_storeQ, hq]
  have hload : (s.touched (answerTo d)).w.loading = s.w.loading := by
    rw [State.touched_w, Wave.touch_loading]
  simp only [State.quiet_empty hq', hload, State.touched_c, Bool.not_not]
  show ite _ _ _ = _
  congr 1
  rw [State.setCb, State.touched_c]
  rfl

theorem cbwait_waits (h : (Claims.cbuf s c).filled = 0 ∨ s.w.loading = true) :
    ∃ t, exec (.cbwait d c) s = .next t ∧ Waits s t := by
  refine ⟨_, ?_, State.waits_touched (State.touched_w s (answerTo d)) (SameMemory.touched _ _ _)⟩
  rw [cbwait_mine hno hr hv ho hq]
  dsimp only
  split_ifs with h1 h2
  · rfl
  · rfl
  · tauto

theorem cbwait_takes (hs : Issues s) (hf : (Claims.cbuf s c).filled ≠ 0) (hl : s.w.loading = false) :
    ∃ t, exec (.cbwait d c) s = .next t ∧ Done s t [] [d] [] false ∧ t.w.sreg d = (Claims.cbuf s c).answer ∧
      Claims.cbuf t c = (Claims.cbuf s c).take := by
  have hset := CbSet.set s (answerTo d) c (Claims.cbuf s c).take
  obtain ⟨u, hput, hdone, hsreg, hrest⟩ := State.putS_done hset.w hset.seen hs d (Claims.cbuf s c).answer
  refine ⟨_, ?_, hdone, by rw [State.setW_w, hsreg], ?_⟩
  · rw [cbwait_mine hno hr hv ho hq]
    dsimp only
    rw [if_neg hf, hl]
    exact hput
  · rw [Claims.cbuf_setW _ _ ((Wave.group_of_rest hrest).trans (by rw [hset.w, Wave.touch_eq])), hset.cbuf, if_pos rfl]

end

section
variable (hr : Ready s 4 [] none)
include hr

theorem cbrel_refused (h : ¬(((Claims.cbuf s c).valid = true ∧ (Claims.cbuf s c).owner = s.w.group) ∧ (Claims.cbuf s c).taken ≠ 0)) :
    Claims.Refused s (.cbrel c) 0x5B 0 c := by
  refine illegalOperand_refused (n := 4) ?_
  show execCbrel c s = _
  rw [execCbrel, tileThen_awake hno, cbCheck_bad (by tauto)]
  exact withOperands_bad hr _ _

theorem cbrel_frees (hs : Issues s) (hv : (Claims.cbuf s c).valid = true) (ho : (Claims.cbuf s c).owner = s.w.group)
    (ht : (Claims.cbuf s c).taken ≠ 0) : ∃ t, exec (.cbrel c) s = .next t ∧ Done s t [] [] [] false ∧
      Claims.cbuf t c = { Claims.cbuf s c with free := (Claims.cbuf s c).free + 1, taken := (Claims.cbuf s c).taken - 1 } := by
  obtain ⟨hdone, hcb⟩ := ((CbSet.set s [] c
    { Claims.cbuf s c with free := (Claims.cbuf s c).free + 1, taken := (Claims.cbuf s c).taken - 1 }).posts
    (State.posts_pokeEngines _ (s.g.core / 4))).done hs
  refine ⟨_, ?_, hdone, (hcb c).trans (if_pos rfl)⟩
  show execCbrel c s = _
  rw [execCbrel, tileThen_awake hno, cbCheck_passes hv ho fun _ => ht]
  refine (withOperands_ready hr _).trans ?_
  simp only [State.touched_c, State.touched_g]
  rw [State.setCb, State.touched_c]
  rfl

end

end

/-- Settles O33, each instruction once its operands are there: by its refusal, its wait, or the rule of the descriptor it changes. -/
theorem circularBuffers : Obligations.CircularBuffers := by
  unfold Obligations.CircularBuffers
  intro c s _ hs
  refine ⟨fun a _ hr => ⟨cbset_foreign hr, fun hmine => ⟨fun hw hcl => ?_, fun hw hcl => ?_, cbset_badWord hr hmine⟩⟩,
    fun hno d _ hr => ⟨fun hmine hf hq hl => cbwait_takes hno hr hmine.1 hmine.2 hq hs hf hl,
      fun hmine hq h => cbwait_waits hno hr hmine.1 hmine.2 hq h, cbwait_foreign hno hr⟩,
    fun hno hr => ⟨fun hmine ht => cbrel_frees hno hr hs hmine.1 hmine.2 ht, cbrel_refused hno hr⟩⟩
  · obtain ⟨hdone, hcb⟩ := ((CbSet.set s (Claims.scalar1 a) c (cbOf s (s.sreg a).toNat)).posts
      (State.posts_pokeEngines _ (s.g.core / 4))).done hs
    refine ⟨_, ?_, hdone, (hcb c).trans (if_pos rfl), fun d hd => (hcb d).trans (if_neg hd)⟩
    rw [cbset_taken hr hmine hw, hcl]
    rfl
  · refine ⟨_, ?_, State.waits_touched (State.touched_w s (Claims.scalar1 a)) (SameMemory.touched _ _ _)⟩
    rw [cbset_taken hr hmine hw, if_neg (by simpa using hcl)]

end Sys2Proof.Machine
end

section
/-! # Requests at the memory-side cache

A read of a unit of the device counts requests at the memory-side cache (`homeTouch`, `globTouch`): the cache and the counts
change, and what a walk or a read sees stays. -/

namespace Sys2Proof.Machine

/-- A walk and a read see the same in `s` and `t`: physical memory, the time, the configuration, the tables of the contexts. -/
structure SameTables (s t : State) : Prop where
  hbm : t.hbm = s.hbm
  host : t.host = s.host
  now : t.now = s.now
  config : t.config = s.config
  parent : ∀ c, (t.ctx c).parent = (s.ctx c).parent
  depth : ∀ c, (t.ctx c).depth = (s.ctx c).depth
  root : ∀ c, (t.ctx c).root = (s.ctx c).root
  lease : ∀ c, (t.ctx c).lease = (s.ctx c).lease
  windows : ∀ c, (t.ctx c).windows = (s.ctx c).windows

theorem readEntry_congr {x y : Context} (hdepth : y.depth = x.depth) (hwindows : y.windows = x.windows) (level e : Nat) :
    readEntry y level e = readEntry x level e := by
  unfold readEntry inWindow
  rw [hdepth, hwindows]

namespace SameTables
variable {s t : State} (h : SameTables s t)
include h

theorem tableRead (up : Nat → Traced Walked) (base idx : Nat) : Machine.tableRead t up base idx = Machine.tableRead s up base idx := by
  unfold Machine.tableRead isRemote
  rw [h.config, h.hbm]

theorem findLeaf (c : Nat) (me : Level) (up : Nat → Traced Walked) (va : Nat) :
    Machine.findLeaf t (t.ctx c) me up va = Machine.findLeaf s (s.ctx c) me up va := by
  have hentry : ∀ level e, entryOf (t.ctx c) me level e = entryOf (s.ctx c) me level e := fun level e => by
    rw [entryOf, entryOf, readEntry_congr (h.depth c) (h.windows c)]
  unfold Machine.findLeaf inWindow
  simp only [h.tableRead, hentry]
  rw [h.depth, h.root, h.windows]

theorem walk (kept : List Mapping) (cs : List Nat) (va : Nat) : Machine.walk t kept cs va = Machine.walk s kept cs va := by
  induction cs generalizing va with
  | nil => rfl
  | cons c rest ih => simp only [Machine.walk, ih, h.now, h.depth, h.lease, h.findLeaf]

theorem chain (c : Nat) : t.chain c = s.chain c := State.chain_congr h.parent c

theorem checkWalk (a : Acc) (w : Walked) : Machine.checkWalk t a w = Machine.checkWalk s a w := by
  unfold Machine.checkWalk isRemote physReason
  rw [h.config]

theorem freshWalk (c va : Nat) (a : Acc) : Machine.freshWalk t c va a = Machine.freshWalk s c va a := by
  simp only [Machine.freshWalk, walkChecked, h.walk, h.chain, h.checkWalk]

theorem globRead (c va n : Nat) : t.globRead c va n = s.globRead c va n := by
  induction n generalizing va with
  | zero => rfl
  | succ n ih => simp only [State.globRead, ih, h.freshWalk, h.hbm, h.host]

theorem globReadRun (c va n : Nat) : t.globReadRun c va n = s.globReadRun c va n := by
  simp only [State.globReadRun, h.freshWalk, h.globRead, h.hbm, h.host]

end SameTables

/-- From `s` to `t` requests were made at the memory-side cache. -/
structure Touches (s t : State) : Prop where
  same : t = { s with msc := t.msc, ctxs := t.ctxs }
  ctx : ∀ c, ∃ p, t.ctx c = { s.ctx c with pmc := p }

namespace Touches

theorem refl (s : State) : Touches s s := ⟨rfl, fun _ => ⟨_, rfl⟩⟩

theorem trans {s t u : State} (h : Touches s t) (k : Touches t u) : Touches s u := by
  refine ⟨by rw [k.same, h.same], fun c => ?_⟩
  obtain ⟨p, hp⟩ := h.ctx c
  obtain ⟨q, hq⟩ := k.ctx c
  exact ⟨q, by rw [hq, hp]⟩

theorem foldl {α : Type} {f : State → α → State} (h : ∀ s a, Touches s (f s a)) (l : List α) (s : State) :
    Touches s (l.foldl f s) := by
  induction l generalizing s with
  | nil => exact refl s
  | cons a l ih => exact (h s a).trans (ih _)

theorem charge (s : State) (c ev n : Nat) : Touches s (s.charge c ev n) :=
  ⟨by rw [s.charge_eq c ev n], s.ctx_charge c ev n⟩

theorem msc (s : State) (m : Tab (List Nat)) : Touches s { s with msc := m } := ⟨rfl, fun _ => ⟨_, rfl⟩⟩

theorem homeTouch (s : State) (c pa n : Nat) (write : Bool) : Touches s (s.homeTouch c pa n write) := by
  unfold State.homeTouch
  dsimp only
  split_ifs
  · exact refl s
  · exact charge _ _ _ _
  · exact (charge _ _ _ _).trans (charge _ _ _ _)
  · exact msc s _
  · exact ((msc s _).trans (charge _ _ _ _)).trans (charge _ _ _ _)
  · exact charge _ _ _ _
  · exact (charge _ _ _ _).trans (charge _ _ _ _)

theorem walkTouch (s : State) (c va : Nat) : Touches s (s.walkTouch c va) := foldl (fun s a => homeTouch s c a 8 false) _ s

theorem globTouch (s : State) (c va n : Nat) : Touches s (s.globTouch c va n) := by
  refine (walkTouch s c va).trans (foldl (fun s i => ?_) _ _)
  split
  · split_ifs
    · exact refl s
    · exact homeTouch _ _ _ _ _
  · exact refl s

/-- What a walk and a read see stays. -/
theorem tables {s t : State} (h : Touches s t) : SameTables s t := by
  have hctx : ∀ {α : Type} (f : Context → α), (∀ x p, f { x with pmc := p } = f x) → ∀ c, f (t.ctx c) = f (s.ctx c) := by
    intro α f hf c
    obtain ⟨p, hp⟩ := h.ctx c
    rw [hp, hf]
  refine ⟨by rw [h.same], by rw [h.same], by rw [h.same], by rw [h.same], hctx _ fun _ _ => rfl, hctx _ fun _ _ => rfl,
    hctx _ fun _ _ => rfl, hctx _ fun _ _ => rfl, hctx _ fun _ _ => rfl⟩

theorem core {s t : State} (h : Touches s t) (c : Nat) : t.core c = s.core c := by rw [h.same]; rfl

end Touches

end Sys2Proof.Machine
end

section
/-! # The FIFOs of a vertical pair (O31) -/

namespace Sys2Proof.Machine

/-! ### A FIFO -/

theorem State.setSpine_seen (s : State) (n : Nat) (x : Spine) (core : Nat) : SameMemory s (s.setSpine n x) core := by
  unfold State.setSpine
  refine SameMemory.setCore s ?_ core
  rfl

theorem State.spine_setSpine (s : State) (n : Nat) (x : Spine) : ((s.setSpine n x).core n).spine = x := by
  rw [State.core_setSpine, if_pos rfl]

/-- Words that are written anew are good again; everything else stays. -/
theorem State.cure_eq (s : State) (unit core a n : Nat) :
    s.cure unit core a n = { s with uncorr := (s.cure unit core a n).uncorr } := by
  unfold State.cure
  split_ifs <;> rfl

theorem SameMemory.setUncorr (s : State) (u : List (Nat × Nat × Nat)) (core : Nat) : SameMemory s { s with uncorr := u } core :=
  .of_seen (s := s) (t := { s with uncorr := u }) rfl rfl (fun _ => rfl) core

theorem State.cure_seen (s : State) (unit c a n core : Nat) : SameMemory s (s.cure unit c a n) core :=
  .of_seen (by rw [State.cure_eq]) (by rw [State.cure_eq]) (fun k => by rw [State.cure_eq]; rfl) core

/-! ### The checks -/

theorem pairCheck_both {s : State} (h : s.granted s.g.ctx s.g.core = true ∧ s.granted s.g.ctx (partner s.g.core) = true) :
    pairCheck s = none := by
  simp [pairCheck, h.1, h.2]

theorem pairCheck_not {s : State} (h : ¬(s.granted s.g.ctx s.g.core = true ∧ s.granted s.g.ctx (partner s.g.core) = true)) :
    pairCheck s = some (illegalOperand 0x5C 7 0) := by
  rw [← Bool.and_eq_true] at h
  exact if_neg h

/-! ### SPUSH -/

/-- The operand of SPUSH. -/
def pushOps (r : Nat) : List Opnd := [{ field := 1, kind := .v, reg := r, src := some 0 }]

section
variable {s : State} {r : Nat} (hr : Ready s 4 (pushOps r) none)
  (hboth : s.granted s.g.ctx s.g.core = true ∧ s.granted s.g.ctx (partner s.g.core) = true)
include hr hboth

theorem spineSend_both : spineSend r s =
    let s0 := s.touched (pushOps r)
    let p := partner s.g.core
    let x := (s.core p).spine
    if s.spineFree p = 0 then .next s0.block
    else
      let s1 := s0.setSpine p { x with entries := x.entries ++ [(s.now + s.spineDelay p, s.vaReg r)], free := x.free - 1 }
      .next (((if x.entries.isEmpty then s1.cure 10 p 0 2048 else s1).post (s.spineDelay p) (.spineEntryArrival p)).finish 4) := by
  rw [spineSend, pairCheck_both hboth]
  refine (withOperands_ready hr _).trans ?_
  simp only [State.touched_g, State.touched_vaReg]
  rfl

theorem spineSend_sends (hs : Issues s) (hfree : s.spineFree (partner s.g.core) ≠ 0) :
    let p := partner s.g.core
    let x := (s.core p).spine
    ∃ t, spineSend r s = .next t ∧ Done s t [] [] [] false ∧
      (t.core p).spine = { x with entries := x.entries ++ [(s.now + s.spineDelay p, s.vaReg r)], free := x.free - 1 } ∧
      (s.now + s.spineDelay p, .spineEntryArrival p) ∈ t.agenda := by
  intro p x
  let y : Spine := { x with entries := x.entries ++ [(s.now + s.spineDelay p, s.vaReg r)], free := x.free - 1 }
  let s1 := (s.touched (pushOps r)).setSpine p y
  obtain ⟨s2, hs2, u, hu⟩ : ∃ s2, (if x.entries.isEmpty then s1.cure 10 p 0 2048 else s1) = s2
    ∧ ∃ u, s2 = { s1 with uncorr := u } := by
    refine ⟨_, rfl, ?_⟩
    split_ifs
    · exact ⟨_, State.cure_eq _ _ _ _ _⟩
    · exact ⟨_, rfl⟩
  have hseen : SameMemory s s2 s.g.core := by
    rw [hu]
    exact ((SameMemory.touched _ _ _).trans (State.setSpine_seen _ _ _ _)).trans (.setUncorr s1 u _)
  have hw : s2.w = s.w.touch s.now (pushOps r) := by
    rw [hu]
    exact State.touched_w _ _
  obtain ⟨hdone, v, ht, -⟩ := State.done_touched (r := s2.post (s.spineDelay p) (.spineEntryArrival p)) (os := pushOps r) hw
    (hseen.trans ((State.posts_post _ _ _).seen _)) hs
  refine ⟨_, ?_, hdone, ?_, ?_⟩
  · rw [spineSend_both hr hboth, ← hs2]
    exact if_neg hfree
  · rw [ht]
    show (s2.core p).spine = y
    rw [hu]
    exact State.spine_setSpine _ _ _
  · rw [ht]
    refine State.mem_post.mpr (.inl ?_)
    rw [hu]
    rfl

theorem spineSend_waits (hfree : s.spineFree (partner s.g.core) = 0) : ∃ t, spineSend r s = .next t ∧ Waits s t := by
  refine ⟨_, ?_, State.waits_touched (State.touched_w s (pushOps r)) (SameMemory.touched _ _ _)⟩
  rw [spineSend_both hr hboth]
  exact if_pos hfree

end

/-! ### SPOP -/

/-- The operand of SPOP. -/
def popOps (r : Nat) : List Opnd := [{ field := 0, kind := .v, reg := r, dst := true }]

/-- The result with the lanes of one vector register, that a wave awaits. -/
def Wave.result (w : Wave) (r : Nat) (v : Lanes) : Pending := { tag := w.nextTag, vregs := [(r, v)], lanes := w.active, dem := w.dem }

/-- A wave that awaits the lanes of one vector register. -/
def Wave.expecting (w : Wave) (r : Nat) (v : Lanes) : Wave :=
  { (w.expect (w.result r v)) with nextTag := w.nextTag + 1, pending := w.pending ++ [w.result r v] }

theorem Wave.expecting_eq (w : Wave) (r : Nat) (v : Lanes) : ∃ rs, w.expecting r v = { w with
    recipes := rs, empty := setBit w.empty r true, deferred := w.deferred.erase r, nextTag := w.nextTag + 1
    pending := w.pending ++ [w.result r v] } := by
  unfold Wave.expecting Wave.expect Wave.ordinary Wave.result
  dsimp only [List.foldl_cons, List.foldl_nil]
  split_ifs
  · exact ⟨_, rfl⟩
  · exact ⟨_, rfl⟩

theorem Wave.expecting_pending (w : Wave) (r : Nat) (v : Lanes) : (w.expecting r v).pending = w.pending ++ [w.result r v] := rfl

theorem Wave.expecting_empty (w : Wave) (r : Nat) (v : Lanes) : (w.expecting r v).empty = setBit w.empty r true := by
  obtain ⟨rs, h⟩ := w.expecting_eq r v
  rw [h]

theorem Wave.expecting_sameLanes (w : Wave) (r : Nat) (v : Lanes) : w.SameLanes (w.expecting r v) := by
  obtain ⟨rs, h⟩ := w.expecting_eq r v
  rw [h]
  exact ⟨rfl, rfl, rfl, rfl, rfl, rfl, rfl, rfl⟩

/-- Of the registers only the full/empty bit of the awaited one changes. -/
theorem expecting_regs {s t : State} {os : List Opnd} {r : Nat} {v : Lanes} (h : t.w = (s.w.touch s.now os).expecting r v) :
    SameRegs s t [r] [] [] false := by
  obtain ⟨rs, hrs⟩ := (s.w.touch s.now os).expecting_eq r v
  rw [hrs, s.w.touch_eq s.now os] at h
  refine ⟨fun q hq => ?_, fun q _ => ?_, fun q _ => ?_, fun _ => ?_, ?_⟩
  · rw [List.mem_singleton] at hq
    rw [h]
    refine ⟨rfl, ?_⟩
    rw [Wave.isEmpty, Wave.isEmpty, getLsbD_setBit, if_neg fun k => hq k.1]
  all_goals rw [h]
  · exact ⟨rfl, rfl⟩
  · exact ⟨rfl, rfl⟩
  · rfl

theorem State.progress_eq (s : State) (c : Nat) : s.progress c = { s with ctxs := (s.progress c).ctxs } := by
  unfold State.progress
  split_ifs <;> rfl

theorem State.progress_seen (s : State) (c core : Nat) : SameMemory s (s.progress c) core :=
  .of_seen (by rw [State.progress_eq]) (by rw [State.progress_eq]) (fun k => by rw [State.progress_eq]; rfl) core

section
variable {s : State} {r : Nat} (hr : Ready s 4 (popOps r) none)
  (hboth : s.granted s.g.ctx s.g.core = true ∧ s.granted s.g.ctx (partner s.g.core) = true)
include hr hboth

theorem spineTake_waits (h : ∀ v rest, (s.core s.g.core).spine.entries ≠ (0, v) :: rest) :
    ∃ t, spineTake r s = .next t ∧ Waits s t := by
  refine ⟨_, ?_, State.waits_touched (State.touched_w s (popOps r)) (SameMemory.touched _ _ _)⟩
  rw [spineTake, pairCheck_both hboth]
  refine (withOperands_ready hr _).trans ?_
  simp only [State.touched_g]
  split
  · rename_i v rest he
    exact absurd he (h v rest)
  · rfl

theorem spineTake_takes (hs : Issues s) (hr128 : r < 128) {v : Lanes} {rest : List (Nat × Lanes)}
    (he : (s.core s.g.core).spine.entries = (0, v) :: rest) (hgood : s.uncorr = []) :
    ∃ t q, spineTake r s = .next t ∧ Done s t [r] [] [] false ∧ (t.core s.g.core).spine.entries = rest ∧
      (t.core s.g.core).spine.credits = (s.core s.g.core).spine.credits ++ [s.now + s.spineDelay s.g.core] ∧ t.w.isEmpty r = true ∧
      t.w.pending = s.w.pending ++ [q] ∧ q.vregs = [(r, v)] ∧ q.lanes = s.w.active ∧ q.dem = s.w.dem ∧
      (s.now + 4, .loadResultReturn s.cur q.tag) ∈ t.agenda ∧
      (s.now + s.spineDelay s.g.core, .spineCreditReturn s.g.core) ∈ t.agenda := by
  let core := s.g.core
  let s0 := s.touched (popOps r)
  let y : Spine := { (s.core core).spine with entries := rest, credits := (s.core core).spine.credits ++ [s.now + s.spineDelay core] }
  let s1 := (s0.setSpine core y).setW (s0.w.expecting r v)
  let s2 := (s1.post 4 (.loadResultReturn s.cur s0.w.nextTag)).post (s.spineDelay core) (.spineCreditReturn core)
  have hexec : spineTake r s = .next (((s2.progress s2.g.ctx).finish 4).pokeGate (coreDomain core)) := by
    rw [spineTake, pairCheck_both hboth]
    refine (withOperands_ready hr _).trans ?_
    have he0 : (s0.core s.g.core).spine.entries = (0, v) :: rest := he
    have hbad : s0.spineBad s.g.core = false := by
      rw [State.spineBad, show s0.uncorr = [] from hgood]
      rfl
    simp only [State.touched_g]
    rw [he0]
    show (if s0.spineBad s.g.core then _ else _) = _
    rw [hbad]
    rfl
  have hw : s2.w = (s.w.touch s.now (popOps r)).expecting r v := by
    show ((s0.setSpine core y).setW (s0.w.expecting r v)).w = _
    rw [State.setW_w, State.touched_w]
  have hpw : (s2.progress s2.g.ctx).w = s2.w := by rw [State.progress_eq]; rfl
  have hseen : SameMemory s (s2.progress s2.g.ctx) s.g.core :=
    (((SameMemory.touched s (popOps r) _).trans (State.setSpine_seen _ _ _ _)).trans (.setW _ _ _)).trans
      ((((State.posts_post s1 _ _).trans (State.posts_post _ _ _)).seen _).trans (State.progress_seen _ _ _))
  obtain ⟨hdone, u, ht, hfile, -, hrest⟩ := State.finish_doneIn (r := s2.progress s2.g.ctx) hs
    (by rw [hpw, hw]; exact (s.w.touch_same _ _).lanes.trans (Wave.expecting_sameLanes _ _ _)) (expecting_regs (hpw.trans hw)) hseen
  have hgate := ((s2.progress s2.g.ctx).finish 4).posts_pokeGate (coreDomain core)
  have hspine : ∀ k, (((s2.progress s2.g.ctx).finish 4).pokeGate (coreDomain core)).core k = (s0.setSpine core y).core k := by
    intro k
    rw [hgate.core, ht, State.progress_eq]
    rfl
  have hagenda : ∀ e, e ∈ s2.agenda → e ∈ (((s2.progress s2.g.ctx).finish 4).pokeGate (coreDomain core)).agenda := by
    intro e hin
    refine hgate.kept e ?_
    rw [ht, State.progress_eq]
    exact hin
  rw [hpw, hw] at hfile hrest
  have hw' : (((s2.progress s2.g.ctx).finish 4).pokeGate (coreDomain core)).w = u := by rw [hgate.w, ht, State.setW_w]
  refine ⟨_, s0.w.result r v, hexec, hdone.posts hgate, ?_, ?_, ?_, ?_, rfl, ?_, ?_,
    hagenda _ (State.mem_post.mpr (.inr (State.mem_post.mpr (.inl rfl)))), hagenda _ (State.mem_post.mpr (.inl rfl))⟩
  · rw [hspine, State.spine_setSpine]
  · rw [hspine, State.spine_setSpine]
  · have hempty : u.empty = ((s.w.touch s.now (popOps r)).expecting r v).empty := congrArg (·.2.1) hfile
    rw [hw', Wave.isEmpty, hempty, Wave.expecting_empty, getLsbD_setBit, if_pos ⟨rfl, hr128⟩]
  · have hpend : u.pending = ((s.w.touch s.now (popOps r)).expecting r v).pending := congrArg (·.2.1.1) hrest
    rw [hw', hpend, Wave.expecting_pending, ← State.touched_w]
    exact congrArg (· ++ _) (by rw [State.touched_w, Wave.touch_eq])
  · exact (congrArg Wave.active (s.touched_w _)).trans (Wave.touch_active _ _ _)
  · exact (congrArg Wave.dem (s.touched_w _)).trans (Wave.touch_dem _ _ _)

end

/-! ### SPCNT -/

theorem spineCount_both {s : State} {r : Nat} (hr : Ready s 4 (answerTo r) none)
    (hboth : s.granted s.g.ctx s.g.core = true ∧ s.granted s.g.ctx (partner s.g.core) = true) (hs : Issues s) :
    ∃ t, spineCount r s = .next t ∧ Done s t [] [r] [] false ∧ t.w.sreg r = BitVec.ofNat 64 (s.spineFree (partner s.g.core)) := by
  obtain ⟨u, hput, hdone, hsreg, -⟩ := State.putS_done (State.touched_w s (answerTo r)) (SameMemory.touched _ _ _) hs r
    (BitVec.ofNat 64 (s.spineFree (partner s.g.core)))
  refine ⟨_, ?_, hdone, by rw [State.setW_w, hsreg]⟩
  rw [spineCount, pairCheck_both hboth]
  refine (withOperands_ready hr _).trans ?_
  rw [State.touched_g]
  exact hput

/-! ### Arrivals and credits -/

theorem arrive_eq (now : Nat) (l : List (Nat × Lanes)) : arrive now l = l.map fun e => if e.1 ≤ now then (0, e.2) else e := rfl

theorem spineCreditReturn_spec (core : Nat) (s : State) : let x := (s.core core).spine
    ∃ t, exec (.spineCreditReturn core) s = .next t ∧ (t.core core).spine.entries = x.entries ∧
      (t.core core).spine.free = x.free + x.credits.countP (fun u => decide (u ≤ s.now)) ∧
      (t.core core).spine.credits = x.credits.filter fun u => decide (s.now < u) := by
  intro x
  let y : Spine := { x with
    credits := x.credits.filter fun t => decide (s.now < t), free := x.free + countIf (fun t => decide (t ≤ s.now)) x.credits }
  have hy : ((((s.setSpine core y).pokeGate (coreDomain core))).core core).spine = y := by
    rw [(State.posts_pokeGate _ _).core, State.spine_setSpine]
  refine ⟨_, rfl, ?_, ?_, ?_⟩ <;> refine (congrArg _ hy).trans ?_
  · rfl
  · exact congrArg (x.free + ·) List.countP_eq_length_filter.symm
  · rfl

/-! ### The pair folio -/

theorem lanesAt_zero (b : List Byte) : lanesAt b 0 = lanesOf fun l => BitVec.ofNat 32 (leNat ((b.drop (4 * l)).take 4)) := by
  refine lanes_ext fun l hl => ?_
  have htake : (((b.drop 0).take 128).drop (4 * l)).take 4 = (b.drop (4 * l)).take 4 := by
    rw [List.drop_zero, List.drop_take, List.take_take, min_eq_left (by omega)]
  rw [lanesAt, lane_lanesOf _ hl, lane_lanesOf _ hl, htake]

/-- A pair folio's FIFO as its area gives it. -/
theorem map_readSpine (s : State) (c a : Nat) (f : Spine) : (s.readSpine c a f).entries.map (·.2) = Claims.savedFifo s c a f := by
  rw [State.readSpine, Claims.savedFifo, List.map_map]
  refine List.map_congr_left fun p _ => ?_
  simp only [Function.comp_apply]
  cases s.globReadRun c (a + 128 + 128 * p.2) 128 with
  | error e => rfl
  | ok b => exact lanesAt_zero b

theorem length_readSpine (s : State) (c a : Nat) (f : Spine) : (s.readSpine c a f).entries.length = f.entries.length := by
  simp [State.readSpine]

theorem SameTables.readSpine {s t : State} (h : SameTables s t) (c a : Nat) (f : Spine) : t.readSpine c a f = s.readSpine c a f := by
  simp only [State.readSpine, h.globReadRun]

/-- The saved entries go into the FIFO into a core. -/
def State.putSpine (s : State) (n : Nat) (f : Spine) : State := if f.entries.isEmpty then s else s.setSpine n (placeSpine f)

theorem State.putSpine_eq (s : State) (n : Nat) (f : Spine) : s.putSpine n f = { s with cores := (s.putSpine n f).cores } := by
  unfold State.putSpine
  split_ifs <;> rfl

theorem State.ctx_putSpine (s : State) (n : Nat) (f : Spine) (c : Nat) : (s.putSpine n f).ctx c = s.ctx c := by
  rw [State.putSpine_eq]
  rfl

theorem State.core_putSpine_other (s : State) {n k : Nat} (h : k ≠ n) (f : Spine) : (s.putSpine n f).core k = s.core k := by
  unfold State.putSpine
  split_ifs
  · rfl
  · rw [State.core_setSpine, if_neg h]

/-- The entries that were saved are those of a FIFO that was empty. -/
theorem State.putSpine_spec {s : State} {n : Nat} {f : Spine} (h : (s.core n).spine.entries = []) :
    ((s.putSpine n f).core n).spine.entries.map (·.2) = f.entries.map (·.2) ∧
      (f.entries ≠ [] → ((s.putSpine n f).core n).spine.free = 16 - f.entries.length) := by
  unfold State.putSpine
  split_ifs with he
  · rw [List.isEmpty_iff] at he
    rw [h, he]
    exact ⟨rfl, fun hne => absurd rfl hne⟩
  · rw [State.spine_setSpine]
    exact ⟨by simp [placeSpine], fun _ => rfl⟩

/-- The state in which a pair folio's areas have been read. -/
def State.readPair (s : State) (c base : Nat) (lo hi : Spine) : State :=
  [(0, 128), (0x49000, lo.areaBytes), (0x50000, hi.areaBytes)].foldl (fun s p => s.globTouch c (base + p.1) p.2) s

theorem State.readPair_touches (s : State) (c base : Nat) (lo hi : Spine) : Touches s (s.readPair c base lo hi) :=
  Touches.foldl (f := fun s (p : Nat × Nat) => s.globTouch c (base + p.1) p.2) (fun s p => .globTouch s c (base + p.1) p.2) _ s

/-- The state in which a pair folio, whose slot is at an address of its context's window, has gone back. -/
def State.placePair (s : State) (c core slot base : Nat) (lo hi : Spine) : State :=
  let t := s.readPair c base lo hi
  (((t.setCtx c { t.ctx c with pairFolios := [], folioUsed := (s.ctx c).folioUsed.filter (· != slot) }).putSpine core
    (t.readSpine c (base + 0x49000) lo)).putSpine (core + 192) (t.readSpine c (base + 0x50000) hi)).pokeQueues

theorem State.ctx_placePair (s : State) (c core slot base : Nat) (lo hi : Spine) :
    ((s.placePair c core slot base lo hi).ctx c).pairFolios = [] ∧ slot ∉ ((s.placePair c core slot base lo hi).ctx c).folioUsed := by
  have hctx : (s.placePair c core slot base lo hi).ctx c = { (s.readPair c base lo hi).ctx c with
      pairFolios := [], folioUsed := (s.ctx c).folioUsed.filter (· != slot) } := by
    rw [State.placePair, (State.posts_pokeQueues _).ctx, State.ctx_putSpine, State.ctx_putSpine, State.ctx_setCtx, if_pos rfl]
  rw [hctx]
  exact ⟨rfl, by simp⟩

theorem State.core_setCtx (s : State) (k : Nat) (x : Context) (n : Nat) : (s.setCtx k x).core n = s.core n := rfl

theorem State.core_placePair {s : State} {c core slot base : Nat} {lo hi : Spine}
    (hempty : (s.core core).spine.entries = [] ∧ (s.core (core + 192)).spine.entries = []) :
    let t := s.placePair c core slot base lo hi
    (t.core core).spine.entries.map (·.2) = Claims.savedFifo s c (base + 0x49000) lo ∧
      (t.core (core + 192)).spine.entries.map (·.2) = Claims.savedFifo s c (base + 0x50000) hi ∧
      (lo.entries ≠ [] → (t.core core).spine.free = 16 - lo.entries.length) ∧
      (hi.entries ≠ [] → (t.core (core + 192)).spine.free = 16 - hi.entries.length) := by
  have hr := s.readPair_touches c base lo hi
  have hne : core ≠ core + 192 := by omega
  have hfull : ∀ (a : Nat) (f : Spine), f.entries ≠ [] → (s.readSpine c a f).entries ≠ [] := fun a f h => by
    rwa [← List.length_pos_iff, length_readSpine, List.length_pos_iff]
  simp only [State.placePair, (State.posts_pokeQueues _).core, hr.tables.readSpine, State.core_putSpine_other _ hne]
  generalize hs1 : (s.readPair c base lo hi).setCtx c _ = s1
  have hcore : ∀ k, s1.core k = s.core k := fun k => by rw [← hs1, State.core_setCtx, hr.core]
  obtain ⟨hlo, hlofree⟩ := State.putSpine_spec (s := s1) (n := core) (f := s.readSpine c (base + 0x49000) lo)
    (by rw [hcore]; exact hempty.1)
  obtain ⟨hhi, hhifree⟩ := State.putSpine_spec (s := s1.putSpine core (s.readSpine c (base + 0x49000) lo)) (n := core + 192)
    (f := s.readSpine c (base + 0x50000) hi) (by rw [State.core_putSpine_other _ hne.symm, hcore]; exact hempty.2)
  refine ⟨by rw [hlo, map_readSpine], by rw [hhi, map_readSpine], fun h => ?_, fun h => ?_⟩
  · rw [hlofree (hfull _ _ h), length_readSpine]
  · rw [hhifree (hfull _ _ h), length_readSpine]

section
variable {c core slot : Nat} {lo hi : Spine} {s : State} (hf : (s.ctx c).pairFolios = [(slot, core, lo, hi)])
include hf

theorem pairRestore_eq : exec (.spinePairFolioRestore c core) s =
    if !(s.holdsTurn c core && s.holdsTurn c (core + 192)) then .next s
    else if (s.core core).spine.entries.isEmpty && (s.core (core + 192)).spine.entries.isEmpty then
      .next (s.placePair c core slot ((s.ctx c).saveBase + slot * 2 ^ 21) lo hi)
    else .next (s.postOnce 64 (.spinePairFolioRestore c core)) := by
  show execSpinePairFolioRestore c core s = _
  unfold execSpinePairFolioRestore
  dsimp only
  rw [hf]
  simp only [List.find?_cons, beq_self_eq_true, List.filter_cons, bne_self_eq_false, List.filter_nil]
  rfl

end

/-- Settles O31, each row by the rule of the operation it shares (send, take or count), a pair folio by the FIFOs it fills. -/
theorem spineFifos : Obligations.SpineFifos := by
  unfold Obligations.SpineFifos
  refine ⟨fun r i s hr128 hs => ⟨fun hi hr hboth => ?_, fun hi hr hboth => ?_, fun hi _ hr hboth => ?_, fun hi hr hno => ?_,
    fun hi hr hno => ?_, fun hi _ hr hno => ?_⟩,
      fun core s => ⟨⟨_, rfl, State.spine_setSpine _ _ _⟩, spineCreditReturn_spec core s⟩,
    fun c core slot lo hi s hf => ⟨fun hturns hempty => ?_, fun hturns hempty => ?_, fun hturns => ?_⟩⟩
  · have he : exec i s = spineSend r s := by rcases hi with rfl | rfl <;> rfl
    rw [he]
    exact ⟨spineSend_sends hr hboth hs, spineSend_waits hr hboth⟩
  · have he : exec i s = spineTake r s := by rcases hi with rfl | rfl <;> rfl
    rw [he]
    exact ⟨fun v rest hent hgood => spineTake_takes hr hboth hs hr128 hent hgood, spineTake_waits hr hboth⟩
  · have he : exec i s = spineCount r s := by rcases hi with rfl | rfl <;> rfl
    rw [he]
    exact spineCount_both hr hboth hs
  · refine illegalOperand_refused (n := 4) (Eq.trans (b := spineSend r s) (by rcases hi with rfl | rfl <;> rfl) ?_)
    rw [spineSend, pairCheck_not hno]
    exact withOperands_bad hr _ _
  · refine illegalOperand_refused (n := 4) (Eq.trans (b := spineTake r s) (by rcases hi with rfl | rfl <;> rfl) ?_)
    rw [spineTake, pairCheck_not hno]
    exact withOperands_bad hr _ _
  · refine illegalOperand_refused (n := 4) (Eq.trans (b := spineCount r s) (by rcases hi with rfl | rfl <;> rfl) ?_)
    rw [spineCount, pairCheck_not hno]
    exact withOperands_bad hr _ _
  · obtain ⟨hfolios, hslot⟩ := s.ctx_placePair c core slot ((s.ctx c).saveBase + slot * 2 ^ 21) lo hi
    refine ⟨_, ?_, hfolios, hslot, State.core_placePair hempty⟩
    rw [pairRestore_eq hf, if_neg (by simp [hturns.1, hturns.2]), if_pos (by simp [hempty.1, hempty.2])]
  · have hp := s.posts_postOnce 64 (.spinePairFolioRestore c core)
    refine ⟨_, ?_, hp.ctxs, hp.cores, State.due_postOnce _ _ _⟩
    rw [pairRestore_eq hf, if_neg (by simp [hturns.1, hturns.2]), if_neg (by simpa using hempty)]
  · rw [pairRestore_eq hf, if_pos]
    rw [Bool.not_eq_true', Bool.and_eq_false_iff]
    rw [not_and_or] at hturns
    simpa using hturns

end Sys2Proof.Machine
end

section
/-! # The checks of matrix commands

The model checks a command by `firstTrap` of optional traps, the claims by `firstBad` of conditions in a list; here each check of
the model is the claims' list. -/

namespace Sys2Proof.Machine

/-! ### The first condition that holds -/

theorem firstBad_append (l m : List (Bool × Trap)) :
    Claims.firstBad (l ++ m) = (Claims.firstBad l).or (Claims.firstBad m) := by
  induction l with
  | nil => rfl
  | cons p l ih =>
    obtain ⟨b, x⟩ := p
    cases b
    · exact ih
    · rfl

theorem firstBad_mem {l : List (Bool × Trap)} {x : Trap} (h : Claims.firstBad l = some x) : (true, x) ∈ l := by
  induction l with
  | nil => exact absurd h (by simp [Claims.firstBad])
  | cons p l ih =>
    obtain ⟨b, y⟩ := p
    cases b
    · exact List.mem_cons_of_mem _ (ih h)
    · rw [Option.some.inj (show some y = some x from h)]
      exact List.mem_cons_self

theorem firstTrap_two (a b : Option Trap) : firstTrap [a, b] = a.or b := by
  cases a <;> cases b <;> rfl

theorem firstTrap_four (a b c d : Option Trap) : firstTrap [a, b, c, d] = ((a.or b).or c).or d := by
  cases a <;> cases b <;> cases c <;> cases d <;> rfl

/-- A list of numbers, each with a condition and a trap. -/
theorem firstBad_map {α : Type} (l : List α) (p : α → Bool) (f : α → Trap) :
    Claims.firstBad (l.map fun a => (p a, f a)) = (l.find? p).map f := by
  induction l with
  | nil => rfl
  | cons a l ih =>
    rw [List.map_cons, List.find?_cons]
    cases h : p a
    · exact ih
    · rfl

/-! ### Descriptors -/

theorem illegalOperand_illegal (code field reg : Nat) : illegalOperand code field reg = Claims.illegal code field reg := by
  simp [illegalOperand, Claims.illegal]

theorem memTrap_denied (reason addr lane : Nat) : memTrap (aperture reason addr) {} lane = Claims.denied reason addr lane false := by
  simp [memTrap, aperture, memInfo, Claims.denied]

/-- The buffers by the numbers of their windows. -/
def Buf.number : Buf → Nat
  | .s => 0
  | .a => 1
  | .w => 2
  | .c => 3

theorem window_buf {a off : Nat} {b : Buf} (h : window a = .buf b off) : Claims.bufferOf a = some b.number ∧ Claims.offsetOf a = off := by
  unfold window Config.stackBase Config.stackEnd Config.bufBase Config.bufEnd at h
  unfold Claims.bufferOf Claims.offsetOf
  split_ifs at h <;> simp only [Window.buf.injEq] at h
  all_goals
    obtain ⟨rfl, rfl⟩ := h
    rw [if_pos (by omega)]
    simp only [Buf.number, Option.some.injEq]
    omega

theorem window_inside {a : Nat} (h : 0xFF0000000000 ≤ a ∧ a < 0xFF0004000000) : ∃ b off, window a = .buf b off := by
  unfold window Config.stackBase Config.stackEnd Config.bufBase Config.bufEnd
  rw [if_neg (by omega), if_neg (by omega), if_neg (by omega), if_pos (c := a < 0xFF0004000000) h.2]
  split_ifs
  all_goals exact ⟨_, _, rfl⟩

theorem window_other {a : Nat} (h : ∀ b off, window a ≠ .buf b off) : Claims.bufferOf a = none := by
  refine if_neg fun hin => ?_
  obtain ⟨b, off, hw⟩ := window_inside hin
  exact h b off hw

theorem sizeOf_number (g : Group) (b : Buf) : Claims.sizeOf g b.number = (g.range b).size := by cases b <;> rfl

theorem tileCheck_eq (g : Group) (d : DWord) (f r : Nat) (scaled : Bool) :
    tileCheck g d f r scaled = Claims.firstBad (Claims.tileChecks g d f r scaled) := by
  simp only [tileCheck, Claims.tileChecks, Claims.firstBad, illegalOperand_illegal, memTrap_denied, Bool.or_eq_true,
    Bool.and_eq_true, decide_eq_true_eq]
  rfl

/-- The windows that a semiring permits, by their numbers. -/
theorem permits_iff (sr : Semiring) (isA : Bool) (b : Buf) : sr.permits isA b =
    (if isA then (Claims.permitted sr).1 else (Claims.permitted sr).2.1).contains b.number := by
  cases sr <;> cases isA <;> cases b <;> rfl

theorem permitted_bytes (sr : Semiring) : (Claims.permitted sr).2.2 = (sr.aBytes, sr.bBytes) := by cases sr <;> rfl

/-- The checks of an operand's window, which the model makes along `window` and the claims by the window's number. -/
theorem operandWindow_eq (g : Group) (sr : Semiring) (isA : Bool) (addr f r bytes : Nat) :
    (match window addr with
      | .buf .c _ => some (memTrap (aperture rUnit addr) {} 0)
      | .buf b off =>
        if sr.permits isA b = false ∨ addr % 128 ≠ 0 then some (illegalOperand 0x55 f r)
        else if (g.range b).size < off + bytes then some (memTrap (aperture rRange addr) {} 0)
        else none
      | _ => some (illegalOperand 0x55 f r)) =
    let ok := if isA then (Claims.permitted sr).1 else (Claims.permitted sr).2.1
    let b := (Claims.bufferOf addr).getD 4
    Claims.firstBad [(decide (b = 3), Claims.denied 0x03 addr 0 false),
      (!(ok.contains b) || decide (addr % 128 ≠ 0), Claims.illegal 0x55 f r),
      (decide (Claims.sizeOf g b < Claims.offsetOf addr + bytes), Claims.denied 0x02 addr 0 false)] := by
  have hfour : (if isA then (Claims.permitted sr).1 else (Claims.permitted sr).2.1).contains 4 = false := by
    cases sr <;> cases isA <;> rfl
  simp only [Claims.firstBad, illegalOperand_illegal, memTrap_denied]
  by_cases hw : ∃ b off, window addr = .buf b off
  · obtain ⟨b, off, hw⟩ := hw
    obtain ⟨hb, hoff⟩ := window_buf hw
    have hcheck : ∀ b' : Buf, b' ≠ .c → (if sr.permits isA b' = false ∨ addr % 128 ≠ 0 then some (Claims.illegal 0x55 f r)
        else if (g.range b').size < off + bytes then some (Claims.denied rRange addr 0 false) else none) =
        if decide (b'.number = 3) = true then some (Claims.denied 0x03 addr 0 false)
        else if (!((if isA then (Claims.permitted sr).1 else (Claims.permitted sr).2.1).contains b'.number) ||
            decide (addr % 128 ≠ 0)) = true then some (Claims.illegal 0x55 f r)
        else if decide (Claims.sizeOf g b'.number < off + bytes) = true then some (Claims.denied 0x02 addr 0 false) else none := by
      intro b' hc
      have h3 : b'.number ≠ 3 := by
        cases b' with
        | c => exact absurd rfl hc
        | _ => decide
      rw [permits_iff, sizeOf_number]
      simp only [h3, decide_false, Bool.false_eq_true, if_false, Bool.or_eq_true, Bool.not_eq_true', decide_eq_true_eq]
      rfl
    rw [hw, hb, hoff]
    cases b with
    | c => rfl
    | s => exact hcheck .s (by decide)
    | a => exact hcheck .a (by decide)
    | w => exact hcheck .w (by decide)
  · have hw : ∀ b off, window addr ≠ .buf b off := fun b off h => hw ⟨b, off, h⟩
    rw [window_other hw]
    have hnone : ∀ w : Window, (∀ b off, w ≠ .buf b off) → (match w with
      | .buf .c _ => some (Claims.denied rUnit addr 0 false)
      | .buf b off =>
        if sr.permits isA b = false ∨ addr % 128 ≠ 0 then some (Claims.illegal 0x55 f r)
        else if (g.range b).size < off + bytes then some (Claims.denied rRange addr 0 false)
        else none
      | _ => some (Claims.illegal 0x55 f r)) = some (Claims.illegal 0x55 f r) := by
      intro w h
      cases w with
      | buf b off => exact absurd rfl (h b off)
      | _ => rfl
    rw [hnone _ hw, Option.getD_none, hfour]
    rfl

theorem operandCheck_eq (g : Group) (sr : Semiring) (isA : Bool) (d : DWord) (f r : Nat) :
    operandCheck g sr isA d f r = Claims.firstBad (Claims.operandChecks g d f r isA
      (if isA then (Claims.permitted sr).1 else (Claims.permitted sr).2.1) (if isA then sr.aBytes else sr.bBytes)) := by
  have hwin := operandWindow_eq g sr isA (Claims.part d.toNat 0 48) f r (if isA then sr.aBytes else sr.bBytes)
  unfold operandCheck Claims.operandChecks latchBit
  dsimp only
  rw [show bits d.toNat 55 48 = Claims.part d.toNat 48 8 from rfl, show bits d.toNat 47 0 = Claims.part d.toNat 0 48 from rfl]
  by_cases h : Claims.part d.toNat 48 8 ≠ 0 ∨ (d.getLsbD 63 = true ∧ ¬isA = true)
  · have h' : (decide (Claims.part d.toNat 48 8 ≠ 0) || (d.getLsbD 63 && !isA)) = true := by simpa using h
    rw [if_pos h, illegalOperand_illegal, h']
    rfl
  · have h' : (decide (Claims.part d.toNat 48 8 ≠ 0) || (d.getLsbD 63 && !isA)) = false := by simpa using h
    rw [if_neg h, h']
    cases hl : d.getLsbD 63
    · rw [Claims.firstBad]
      simp only [Bool.false_eq_true, if_false, Bool.not_false, Bool.true_and]
      exact hwin
    · rfl

theorem latchCheck_eq (g : Group) (sr : Semiring) (d : DWord) (r : Nat) : latchCheck g sr d 1 r =
    Claims.firstBad [(d.getLsbD 63 && (decide (g.gathers = 0) || decide (64 * g.latchRow ≠ sr.aBytes)), Claims.illegal 0x56 1 r)] := by
  have hrow : g.latchRow ≠ sr.aRow ↔ 64 * g.latchRow ≠ sr.aBytes := by
    cases sr <;> simp only [Semiring.aRow, Semiring.aBytes] <;> omega
  simp only [latchCheck, latchBit, hrow, Claims.firstBad, illegalOperand_illegal, Bool.and_eq_true, Bool.or_eq_true, decide_eq_true_eq]

theorem protectCheck_eq (s : State) (d : DWord) (writes : Bool) :
    s.protectCheck d writes = Claims.firstBad (Claims.protectChecks s d writes) := by
  unfold State.protectCheck Claims.protectChecks
  dsimp only
  rw [show bits d.toNat 23 0 = Claims.part d.toNat 0 24 from rfl]
  cases hh : s.w.handler
  · rfl
  · by_cases h0 : s.g.ep.htCount = 0
    · simp [h0, Claims.firstBad, Claims.protects]
    · have hout : (!(decide (s.g.ep.htFirst ≤ Claims.part d.toNat 0 24 / 16384) &&
          decide (Claims.part d.toNat 0 24 / 16384 < s.g.ep.htFirst + s.g.ep.htCount))) =
          decide (Claims.part d.toNat 0 24 / 16384 < s.g.ep.htFirst ∨
            s.g.ep.htFirst + s.g.ep.htCount ≤ Claims.part d.toNat 0 24 / 16384) := by
        rw [Bool.eq_iff_iff]
        simp only [Bool.not_eq_true', Bool.and_eq_false_iff, decide_eq_false_iff_not, decide_eq_true_eq]
        omega
      rw [hout]
      simp [h0, Claims.firstBad, Claims.protects]

theorem mmaCheck_eq (g : Group) (sr : Semiring) (t a b : DWord) (d ra rb : Nat) :
    mmaCheck g sr t a b d ra rb = Claims.firstBad (Claims.mmaChecks g sr t a b d ra rb) := by
  have hsr : (sr == .ptDpw8) = decide (sr = .ptDpw8) := rfl
  simp only [mmaCheck, firstTrap_four, Claims.mmaChecks, firstBad_append, tileCheck_eq, operandCheck_eq, latchCheck_eq, hsr,
    permitted_bytes]
  rfl

/-! ### MGATHER -/

/-- The checks of the descriptor. -/
def gatherFirst (d : DWord) (reg : Nat) : List (Bool × Trap) :=
  let n := d.toNat
  let a := Claims.part n 0 48
  let b := (Claims.bufferOf a).getD 4
  [(d.getLsbD 63, Claims.illegal 0x53 2 reg),
    (!([1, 2, 8].contains (Claims.part n 48 8)) || decide (a % 32 ≠ 0), Claims.illegal 0x57 2 reg),
    (decide (b = 2 ∨ b = 3), Claims.denied 0x03 a 0 false), (decide (b = 4), Claims.illegal 0x57 2 reg)]

/-- The check of row `i` of a gather of some indexes. -/
def gatherRow (g : Group) (d : DWord) (idx : List Word) (i : Nat) : Bool × Trap :=
  let n := d.toNat
  let a := Claims.part n 0 48
  let r := 32 * Claims.part n 48 8
  let x := idx.getD i 0
  (x != 0xFFFFFFFF && decide (Claims.sizeOf g ((Claims.bufferOf a).getD 4) < Claims.offsetOf a + (x.toNat + 1) * r),
    Claims.denied 0x02 (a + x.toNat * r) (i % 32) false)

theorem gatherChecks_eq (s : State) (d : DWord) (reg : Nat) (idx : List Word) : Claims.gatherChecks s d reg idx =
    gatherFirst d reg ++ (List.range 64).map (gatherRow s.g d idx) ++ [(s.w.handler, Claims.protects 0x02 0)] := rfl

theorem gatherCheck_eq (d : DWord) (r : Nat) : gatherCheck d r = Claims.firstBad (gatherFirst d r) := by
  unfold gatherCheck gatherFirst latchBit
  dsimp only
  rw [show bits d.toNat 55 48 = Claims.part d.toNat 48 8 from rfl, show bits d.toNat 47 0 = Claims.part d.toNat 0 48 from rfl]
  simp only [Claims.firstBad, illegalOperand_illegal, memTrap_denied]
  generalize Claims.part d.toNat 0 48 = a
  by_cases hw : ∃ b off, window a = .buf b off
  · obtain ⟨b, off, hw⟩ := hw
    rw [hw, (window_buf hw).1]
    cases b <;> simp [Buf.number] <;> rfl
  · have hw : ∀ b off, window a ≠ .buf b off := fun b off h => hw ⟨b, off, h⟩
    rw [window_other hw]
    cases h : window a with
    | buf b off => exact absurd h (hw b off)
    | _ => simp

/-- A gather whose descriptor passes its checks reads a buffer. -/
theorem gatherCheck_window {d : DWord} {r : Nat} (h : gatherCheck d r = none) : ∃ b off, window (bits d.toNat 47 0) = .buf b off := by
  unfold gatherCheck at h
  dsimp only at h
  split_ifs at h
  cases hw : window (bits d.toNat 47 0) with
  | buf b off => exact ⟨b, off, rfl⟩
  | _ => rw [hw] at h; exact absurd h (by simp)

theorem zipIdx_eq_map_range {α : Type} (l : List α) (x : α) : l.zipIdx = (List.range l.length).map fun i => (l.getD i x, i) := by
  refine List.ext_getElem (by simp) fun i h _ => ?_
  have hi : i < l.length := by simpa using h
  simp [hi]

/-- The rows of a gather whose descriptor passes its checks. -/
theorem gatherRange_eq {g : Group} {d : DWord} {r : Nat} (h : gatherCheck d r = none) {idx : List Word} (hlen : idx.length = 64) :
    gatherRange g d idx = Claims.firstBad ((List.range 64).map (gatherRow g d idx)) := by
  obtain ⟨b, off, hw⟩ := gatherCheck_window h
  obtain ⟨hb, hoff⟩ := window_buf hw
  rw [gatherRange, hw, zipIdx_eq_map_range idx 0, hlen]
  dsimp only
  rw [show gatherRow g d idx = fun i => ((gatherRow g d idx i).1, (gatherRow g d idx i).2) from rfl, firstBad_map, List.find?_map,
    Option.map_map]
  simp only [gatherRow, show Claims.part d.toNat 0 48 = bits d.toNat 47 0 from rfl, hb, hoff, Option.getD_some, sizeOf_number]
  simp only [Function.comp_def, memTrap_denied]
  rfl

end Sys2Proof.Machine
end

section
/-! # Matrix commands are queued (O35) -/

namespace Sys2Proof.Machine

/-! ### The checks' traps -/

/-- No trap of the list is that of an uncorrectable word. -/
def Checks (l : List (Bool × Trap)) : Prop := ∀ p ∈ l, p.2.cause ≠ 0x0B

theorem Checks.append {l m : List (Bool × Trap)} (h : Checks l) (k : Checks m) : Checks (l ++ m) := fun p hp =>
  (List.mem_append.mp hp).elim (h p) (k p)

theorem Checks.firstBad {l : List (Bool × Trap)} (h : Checks l) {x : Trap} (hx : Claims.firstBad l = some x) : x.cause ≠ 0x0B :=
  h _ (firstBad_mem hx)

theorem tileChecks_checks (g : Group) (d : DWord) (f r : Nat) (scaled : Bool) : Checks (Claims.tileChecks g d f r scaled) := by
  simp [Checks, Claims.tileChecks, Claims.illegal, Claims.denied]

theorem protectChecks_checks (s : State) (d : DWord) (writes : Bool) : Checks (Claims.protectChecks s d writes) := by
  simp [Checks, Claims.protectChecks, Claims.protects]

theorem mmaChecks_checks (g : Group) (sr : Semiring) (t x y : DWord) (d a b : Nat) : Checks (Claims.mmaChecks g sr t x y d a b) := by
  have hop : ∀ d f r isA ok bytes, Checks (Claims.operandChecks g d f r isA ok bytes) := by
    simp [Checks, Claims.operandChecks, Claims.illegal, Claims.denied]
  exact (((tileChecks_checks _ _ _ _ _).append (hop _ _ _ _ _ _)).append (hop _ _ _ _ _ _)).append
    (by simp [Checks, Claims.illegal])

theorem gatherChecks_checks (s : State) (d : DWord) (reg : Nat) (idx : List Word) : Checks (Claims.gatherChecks s d reg idx) := by
  rw [gatherChecks_eq]
  refine (Checks.append ?_ ?_).append ?_
  · simp [Checks, gatherFirst, Claims.illegal, Claims.denied]
  · simp [Checks, gatherRow, Claims.denied]
  · simp [Checks, Claims.protects]

/-! ### A command is placed -/

theorem State.groupHandler_touched (s : State) (os : List Opnd) (g : Nat) : (s.touched os).groupHandler g = s.groupHandler g := by
  unfold State.groupHandler
  refine congrArg (List.any _) (funext fun k => ?_)
  rw [show s.touched os = s.setW (s.w.touch s.now os) from rfl, State.setW, State.wave_setWave]
  split_ifs with h
  · rw [h, Wave.touch_eq]; rfl
  · rfl

/-- The tile of a command is open: its word of metadata. -/
def State.opened (s : State) (m : MatCmd) : State :=
  let x := s.group m.group
  if m.opens then s.setMeta x.core (x.tile m.tile) ((s.core x.core).meta (x.tile m.tile) ||| BitVec.ofNat 32 tileOpen) else s

/-- A command has been placed by a wave of its group: for the frozen batch where `frozen` holds. -/
structure Placed (s r : State) (m : MatCmd) (frozen : Bool) : Prop where
  w : r.w = s.w
  seen : ∀ core, SameMemory s r core
  core : r.g.core = s.g.core
  queue : (r.core s.g.core).matrixQ = if frozen then s.c.matrixQ else s.c.matrixQ ++ [m]
  batch : r.g.frozen = if frozen then s.g.frozen ++ [m] else s.g.frozen
  tiles : ∀ j, Claims.metaOf r s.g.core j =
    if j = Claims.tileOf s.g m.tile ∧ m.opens = true then Claims.metaOf s s.g.core j ||| 8 else Claims.metaOf s s.g.core j

theorem Group.tile_claims (g : Group) (d : DWord) : g.tile d = Claims.tileOf g d := by
  simp [Group.tile, Claims.tileOf, bits]

theorem State.core_opened (s : State) (m : MatCmd) (c : Nat) : ∃ t, (s.opened m).core c = { s.core c with tiles := t } ∧
    ∀ j, t.getD j 0 = if c = (s.group m.group).core ∧ j = (s.group m.group).tile m.tile ∧ m.opens = true then
      (s.core c).tiles.getD j 0 ||| 8 else (s.core c).tiles.getD j 0 := by
  unfold State.opened
  dsimp only
  split_ifs with ho
  · rw [State.setMeta, State.core_setCore]
    split_ifs with hc
    · subst hc
      refine ⟨_, rfl, fun j => ?_⟩
      rw [Tab.getD_set]
      split_ifs <;> simp_all [Core.meta, tileOpen]
    · exact ⟨(s.core c).tiles, rfl, fun j => (if_neg fun h => hc h.1).symm⟩
  · exact ⟨(s.core c).tiles, rfl, fun j => (if_neg fun h => ho h.2.2).symm⟩

theorem State.opened_same (s : State) (m : MatCmd) : s.opened m = { s with cores := (s.opened m).cores } := by
  unfold State.opened
  dsimp only
  split_ifs <;> rfl

theorem State.placeCmd_eq (s : State) (m : MatCmd) : s.placeCmd m =
    let x := s.group m.group
    let u := s.opened m
    if u.groupHandler m.group && !m.inHandler then u.setGroup m.group { x with frozen := x.frozen ++ [m] }
    else (u.setCore x.core { u.core x.core with matrixQ := (u.core x.core).matrixQ ++ [m] }).pokeArray x.core := rfl

theorem State.placeCmd_placed {s : State} {m : MatCmd} (hg : m.group = s.w.group) :
    Placed s (s.placeCmd m) m (s.groupHandler s.w.group && !m.inHandler) := by
  have hx : s.group m.group = s.g := by rw [hg]; rfl
  have hh : (s.opened m).groupHandler m.group = s.groupHandler s.w.group := by rw [State.opened_same, hg]; rfl
  have hseen : ∀ core, SameMemory s (s.opened m) core := fun core =>
    .of_seen (by rw [State.opened_same]) (by rw [State.opened_same]) (fun c => by
      obtain ⟨t, e, -⟩ := s.core_opened m c
      rw [e]; rfl) core
  have hw : (s.opened m).w = s.w := by rw [State.opened_same]; rfl
  have hgroups : (s.opened m).groups = s.groups := by rw [State.opened_same]
  obtain ⟨t, htiles, ht⟩ := s.core_opened m s.g.core
  rw [hx] at ht
  rw [State.placeCmd_eq]
  simp only [hh, hx]
  cases hf : (s.groupHandler s.w.group && !m.inHandler)
  · simp only [Bool.false_eq_true, if_false]
    have hp := State.posts_pokeArray ((s.opened m).setCore s.g.core
      { (s.opened m).core s.g.core with matrixQ := ((s.opened m).core s.g.core).matrixQ ++ [m] }) s.g.core
    generalize State.pokeArray _ _ = r at hp
    have hcore : r.core s.g.core = { s.c with tiles := t, matrixQ := s.c.matrixQ ++ [m] } := by
      rw [hp.core, State.core_setCore, if_pos rfl, htiles]; rfl
    have hgr : r.g = s.g := by
      rw [hp.g, State.g, State.group]
      show (s.opened m).groups.getD (s.opened m).w.group {} = _
      rw [hw, hgroups]; rfl
    refine ⟨hp.w.trans hw, fun core => ((hseen core).trans (SameMemory.setCore (s.opened m) (x := { (s.opened m).core s.g.core with
      matrixQ := ((s.opened m).core s.g.core).matrixQ ++ [m] }) rfl core)).trans (hp.seen core), by rw [hgr], ?_, ?_, fun j => ?_⟩
    · rw [hcore]; rfl
    · rw [hgr]; rfl
    · rw [Claims.metaOf, hcore]
      show t.getD j 0 = _
      rw [ht, Group.tile_claims]
      simp only [true_and]
      rfl
  · simp only [if_true]
    have hgr : ((s.opened m).setGroup m.group { s.g with frozen := s.g.frozen ++ [m] }).g = { s.g with frozen := s.g.frozen ++ [m] } := by
      rw [State.g, show ((s.opened m).setGroup m.group { s.g with frozen := s.g.frozen ++ [m] }).w = s.w from hw, State.group_setGroup, hg,
        if_pos rfl]
    refine ⟨hw, fun core => (hseen core).trans (SameMemory.setGroup _ _ _ core), by rw [hgr], ?_, by rw [hgr]; rfl, fun j => ?_⟩
    · show ((s.opened m).core s.g.core).matrixQ = _
      rw [htiles]; rfl
    · show ((s.opened m).core s.g.core).tiles.getD j 0 = _
      rw [htiles]
      show t.getD j 0 = _
      rw [ht, Group.tile_claims]
      simp only [true_and]
      rfl

/-! ### A command is issued -/

/-- The command that a row places. -/
def matCommand (r : Claims.MatRow) (s : State) : MatCmd :=
  { group := s.w.group, wave := some s.cur, inHandler := s.w.handler, op := r.op, tile := r.tile, latch := r.latch }

/-- The row of an MMA. -/
def mmaRow (s : State) (sr : Semiring) (d a b : Nat) (sat : Bool) : Claims.MatRow :=
  { ops := opsMma d a b
    chk := Claims.mmaChecks s.g sr (s.sreg d) (s.sreg a) (s.sreg b) d a b ++ Claims.protectChecks s (s.sreg d) true
    tile := s.sreg d, op := .mma sr sat (s.sreg a) (s.sreg b)
    latch := if (s.sreg a).getLsbD 63 then s.g.gathers else 0
    waits := [s.sreg a, s.sreg b].filterMap fun x => if x.getLsbD 62 then some (Claims.part x.toNat 56 6) else none }

/-- The row of MFLAGS and MFLAGS.CLR. -/
def flagsRow (s : State) (d a : Nat) (clr : Bool) : Claims.MatRow :=
  { ops := [{ field := 0, kind := .s, reg := d, dst := true }, { field := 1, kind := .s, reg := a }]
    chk := Claims.tileChecks s.g (s.sreg a) 1 a false ++ Claims.protectChecks s (s.sreg a) clr
    tile := s.sreg a, op := .mflags s.cur d clr, busy := [d] }

/-- The row of MZERO. -/
def zeroRow (s : State) (a : Nat) : Claims.MatRow :=
  { ops := [{ field := 1, kind := .s, reg := a }]
    chk := Claims.tileChecks s.g (s.sreg a) 1 a false ++ Claims.protectChecks s (s.sreg a) true, tile := s.sreg a, op := .mzero }

/-- The scalars that await a command's answer are busy. -/
def State.awaits (ds : List Nat) (s : State) : State :=
  ds.foldl (fun s d => s.setW { s.w with sbusy := setBit s.w.sbusy d true, sdeferred := s.w.sdeferred.erase d }) s

/-- An instruction is a matrix command of a row: its checks, and what it does after them. -/
structure Issued (s : State) (i : Instr) (r : Claims.MatRow) (body : State → Out) : Prop where
  runs : exec i s = tileThen s r.ops (Claims.firstBad r.chk) body
  checks : Checks r.chk
  places : (∀ h ∈ r.waits, (s.handle s.w.group h).poison = none) →
    body (s.touched r.ops) = (s.touched r.ops).commandThen (matCommand r s) (State.awaits r.busy)
  busy : r.busy = [] ∧ (matCommand r s).opens = true ∨ ∃ d, r.busy = [d] ∧ (matCommand r s).opens = false

theorem State.touched_handler (s : State) (os : List Opnd) : (s.touched os).w.handler = s.w.handler := by
  rw [State.touched_w, Wave.touch_eq]

theorem State.handlesThen_clean {s : State} {hs : List Nat} (h : ∀ n ∈ hs, (s.handle s.w.group n).poison = none)
    (k : State → Out) : s.handlesThen hs k = k s := by
  have hp : s.poisoned hs = none := List.findSome?_eq_none_iff.mpr fun n hn => by rw [h n hn]; rfl
  rw [State.handlesThen, hp]

theorem waitHandle_toList (x : DWord) : (waitHandle x).toList = if x.getLsbD 62 then [Claims.part x.toNat 56 6] else [] := by
  unfold waitHandle
  split_ifs <;> rfl

theorem waitHandle_claims (x y : DWord) : (waitHandle x).toList ++ (waitHandle y).toList =
    [x, y].filterMap fun z => if z.getLsbD 62 then some (Claims.part z.toNat 56 6) else none := by
  rw [waitHandle_toList, waitHandle_toList]
  cases hx : x.getLsbD 62 <;> cases hy : y.getLsbD 62 <;> simp only [List.filterMap_cons, List.filterMap_nil, hx, hy] <;> rfl

theorem mma_issued {s : State} {i : Instr} {sr : Semiring} {d a b : Nat} {sat : Bool} (hi : exec i s = mma sr d a b sat s) :
    ∃ body, Issued s i (mmaRow s sr d a b sat) body := by
  refine ⟨_, ⟨hi.trans (congrArg (fun c => tileThen s _ c _) ?_),
    (mmaChecks_checks _ _ _ _ _ _ _ _).append (protectChecks_checks _ _ _), fun hp => ?_, .inl ⟨rfl, rfl⟩⟩⟩
  · rw [firstTrap_two, mmaCheck_eq, protectCheck_eq, ← firstBad_append]
    rfl
  · rw [State.handlesThen_clean]
    · rw [State.touched_g, State.touched_group, State.touched_handler]
      rfl
    · rw [waitHandle_claims, State.touched_group]
      exact hp

theorem mzero_issued (s : State) (a : Nat) : ∃ body, Issued s (.mzero a) (zeroRow s a) body := by
  refine ⟨_, ⟨(rfl : _ = execMzero a s).trans (congrArg (fun c => tileThen s _ c _) ?_),
    (tileChecks_checks _ _ _ _ _).append (protectChecks_checks _ _ _), fun hp => ?_, .inl ⟨rfl, rfl⟩⟩⟩
  · rw [firstTrap_two, tileCheck_eq, protectCheck_eq, ← firstBad_append]
    rfl
  · rw [State.touched_sreg, State.touched_group, State.touched_handler]
    rfl

theorem mflags_issued {s : State} {i : Instr} {d a : Nat} {clr : Bool} (hi : exec i s = mflags clr d a s) :
    ∃ body, Issued s i (flagsRow s d a clr) body := by
  refine ⟨_, ⟨hi.trans (congrArg (fun c => tileThen s _ c _) ?_),
    (tileChecks_checks _ _ _ _ _).append (protectChecks_checks _ _ _), fun hp => ?_, .inr ⟨d, rfl, rfl⟩⟩⟩
  · rw [firstTrap_two, tileCheck_eq, protectCheck_eq, ← firstBad_append]
    rfl
  · dsimp only
    rw [State.touched_sreg, State.touched_group, State.touched_handler]
    rfl

theorem matrix_issued {s : State} {i : Instr} {r : Claims.MatRow} (h : Claims.matrix s i = some r) : ∃ body, Issued s i r body := by
  unfold Claims.matrix at h
  dsimp only at h
  split at h
  case h_8 => rw [← Option.some.inj h]; exact mzero_issued s _
  case h_9 => rw [← Option.some.inj h]; exact mflags_issued rfl
  case h_10 => rw [← Option.some.inj h]; exact mflags_issued rfl
  case h_11 => exact absurd h (by simp)
  all_goals
    rw [← Option.some.inj h]
    exact mma_issued rfl

/-! ### What an issued command leaves -/

theorem SameRegs.trans {s t u : State} {vs ss ms : List Nat} {fl : Bool} (h : SameRegs s t [] [] [] false)
    (k : SameRegs t u vs ss ms fl) : SameRegs s u vs ss ms fl := by
  refine ⟨fun r hr => ?_, fun r hr => ?_, fun r hr => ?_, fun hf => (k.flags hf).trans (h.flags rfl), k.control.trans h.control⟩
  · exact ⟨(k.vector r hr).1.trans (h.vector r (by simp)).1, (k.vector r hr).2.trans (h.vector r (by simp)).2⟩
  · exact ⟨(k.scalar r hr).1.trans (h.scalar r (by simp)).1, (k.scalar r hr).2.trans (h.scalar r (by simp)).2⟩
  · exact ⟨(k.mask r hr).1.trans (h.mask r (by simp)).1, (k.mask r hr).2.trans (h.mask r (by simp)).2⟩

/-- Scalars of the wave became busy from `s` to `t`. -/
structure Awaiting (s t : State) (ds : List Nat) : Prop where
  lanes : s.w.SameLanes t.w
  rest : t.w.rest = s.w.rest
  regs : SameRegs s t [] ds [] false
  sreg : ∀ v, t.w.sreg v = s.w.sreg v
  busy : ∀ v, v < 32 → t.w.sbusy.getLsbD v = (s.w.sbusy.getLsbD v || ds.contains v)
  seen : ∀ core, SameMemory s t core
  cores : t.cores = s.cores
  groups : t.groups = s.groups

theorem State.awaiting_none (s : State) : Awaiting s (s.awaits []) [] :=
  ⟨⟨rfl, rfl, rfl, rfl, rfl, rfl, rfl, rfl⟩, rfl, .refl _ _ _ _ _, fun _ => rfl, fun _ _ => (Bool.or_false _).symm,
    fun _ => .refl _ _, rfl, rfl⟩

theorem State.awaiting_one (s : State) (d : Nat) : Awaiting s (State.awaits [d] s) [d] := by
  have hw : (State.awaits [d] s).w = { s.w with sbusy := setBit s.w.sbusy d true, sdeferred := s.w.sdeferred.erase d } := State.setW_w _ _
  have hbit : ∀ v, (State.awaits [d] s).w.sbusy.getLsbD v = if v = d ∧ v < 32 then true else s.w.sbusy.getLsbD v := by
    intro v
    rw [hw]
    exact getLsbD_setBit _ _ _ _
  refine ⟨by rw [hw]; exact ⟨rfl, rfl, rfl, rfl, rfl, rfl, rfl, rfl⟩, by rw [hw]; rfl,
    ⟨fun _ _ => ?_, fun v hv => ⟨?_, ?_⟩, fun _ _ => ?_, fun _ => ?_, ?_⟩,
    fun v => ?_, fun v hv => ?_, fun core => SameMemory.setW _ _ _, rfl, rfl⟩
  case refine_1 | refine_4 => rw [hw]; exact ⟨rfl, rfl⟩
  case refine_2 | refine_6 | refine_7 => rw [hw]; rfl
  case refine_5 => rw [hw]
  case refine_3 => rw [hbit, if_neg fun h => hv (by simp [h.1])]
  case refine_8 =>
    rw [hbit]
    by_cases h : v = d
    · subst h; simp [hv]
    · simp [h]

theorem State.commandThen_drained {s : State} (hq : s.w.storeQ = []) (m : MatCmd) (k : State → State) : s.commandThen m k =
    if s.matrixRoom s.w.group then .next ((k (s.placeCmd m)).finish 4) else .next s.block := by
  unfold State.commandThen
  rw [State.drain_empty hq]
  simp only [hq]
  cases s.matrixRoom s.w.group <;> rfl

/-- A trap of the issuing wave, whose instruction had looked at nothing but its own checks. -/
theorem Ready.takes {s : State} {os : List Opnd} (h : Ready s 4 os none) {x : Trap} (hx : x.cause ≠ 0x0B) (body : State → Out) :
    ∃ t, withOperands s 4 os (some x) body = .next t ∧ Claims.Takes s t x ∧ TrapLeaves s t s.w.group ∧ t.w.file = s.w.file ∧
      (s.toHandler s.cur x = false → (t.core s.g.core).matrixQ = s.c.matrixQ) :=
  ⟨_, withOperands_bad h x body, State.trap_takes (s := s) (x := { x with len := 4 }) hx⟩

theorem TrapLeaves.group {s t : State} (h : TrapLeaves s t s.w.group) : t.w.group = s.w.group := by
  rw [State.w, h.cur, h.member]
  rfl

theorem TrapLeaves.g {s t : State} (h : TrapLeaves s t s.w.group) : t.g = t.group s.w.group := by rw [State.g, h.group]

section
variable {s : State} {i : Instr} {r : Claims.MatRow} {body : State → Out} (hi : Issued s i r body)
include hi

theorem Issued.skips (hs : Issues s) (hskip : Claims.skipped s) (ho : operandTrap s.w 4 r.ops = none) :
    ∃ t, exec i s = .next t ∧ Done s t [] [] [] false :=
  ⟨_, by rw [hi.runs, tileThen_skipped hskip ho], (State.finish_doneIn hs ⟨rfl, rfl, rfl, rfl, rfl, rfl, rfl, rfl⟩ (.refl _ _ _ _ _)
    (.refl _ _)).done⟩

variable (hno : ¬Claims.skipped s) (hr : Ready s 4 r.ops none)
include hno hr

theorem Issued.traps {x : Trap} (hx : Claims.firstBad r.chk = some x) :
    ∃ t, exec i s = .next t ∧ SameMemory s t s.g.core ∧ t.w.file = s.w.file ∧ Claims.Takes s t x ∧
      (t.core s.g.core).matrixQ.length + t.g.frozen.length = s.c.matrixQ.length + s.g.frozen.length ∧
      (∀ m, m ∈ (t.core s.g.core).matrixQ ∨ m ∈ t.g.frozen → m ∈ s.c.matrixQ ∨ m ∈ s.g.frozen) ∧
      (s.toHandler s.cur x = false → (t.core s.g.core).matrixQ = s.c.matrixQ) := by
  obtain ⟨t, ht, htakes, hl, hfile, hq⟩ := hr.takes (hi.checks.firstBad hx) body
  refine ⟨t, by rw [hi.runs, hx, tileThen_awake hno, ht], hl.seen _, hfile, htakes, ?_, ?_, hq⟩
  · rw [hl.g]
    exact hl.count
  · rw [hl.g]
    exact hl.mem

variable (hc : Claims.firstBad r.chk = none) (hq : s.w.storeQ = []) (hp : ∀ h ∈ r.waits, (s.handle s.w.group h).poison = none)
include hc hq hp

theorem Issued.drained : exec i s =
    if s.matrixRoom s.w.group then .next ((State.awaits r.busy ((s.touched r.ops).placeCmd (matCommand r s))).finish 4)
    else .next (s.touched r.ops).block := by
  rw [hi.runs, hc, tileThen_awake hno, withOperands_ready hr, hi.places hp,
    State.commandThen_drained (by rw [State.touched_w, Wave.touch_storeQ, hq]), State.touched_group]
  rfl

theorem Issued.waits (hroom : s.matrixRoom s.w.group = false) : ∃ t, exec i s = .next t ∧ Waits s t :=
  ⟨_, by rw [hi.drained hno hr hc hq hp, hroom]; rfl, State.waits_touched (State.touched_w s r.ops) (SameMemory.touched _ _ _)⟩

/-- A placed command's wave has moved on. -/
structure CommandPlaced (s t : State) (r : Claims.MatRow) (frozen : Bool) : Prop where
  done : Done s t [] r.busy [] false
  sreg : ∀ v, t.w.sreg v = s.w.sreg v
  busy : ∀ v, v < 32 → t.w.sbusy.getLsbD v = (s.w.sbusy.getLsbD v || r.busy.contains v)
  queue : t.c.matrixQ = if frozen then s.c.matrixQ else s.c.matrixQ ++ [matCommand r s]
  batch : t.g.frozen = if frozen then s.g.frozen ++ [matCommand r s] else s.g.frozen
  tiles : ∀ j, Claims.metaOf t s.g.core j =
    if j = Claims.tileOf s.g r.tile ∧ (matCommand r s).opens = true then Claims.metaOf s s.g.core j ||| 8 else Claims.metaOf s s.g.core j

theorem Issued.placed (hs : Issues s) (hroom : s.matrixRoom s.w.group = true) :
    ∃ t, exec i s = .next t ∧ CommandPlaced s t r (s.groupHandler s.w.group && !s.w.handler) := by
  refine ⟨_, by rw [hi.drained hno hr hc hq hp, hroom]; rfl, ?_⟩
  have P := State.placeCmd_placed (s := s.touched r.ops) (m := matCommand r s) (State.touched_group s r.ops).symm
  rw [State.touched_group, State.groupHandler_touched] at P
  generalize (s.touched r.ops).placeCmd (matCommand r s) = p at P ⊢
  obtain ⟨hpw, hpseen, hpcore, hpqueue, hpbatch, hptiles⟩ := P
  rw [State.touched_w] at hpw
  rw [State.touched_g] at hpcore hpqueue hpbatch hptiles
  rw [State.touched_c] at hpqueue
  have A : Awaiting p (State.awaits r.busy p) r.busy := by
    obtain ⟨hb, -⟩ | ⟨d, hb, -⟩ := hi.busy
    · rw [hb]; exact p.awaiting_none
    · rw [hb]; exact p.awaiting_one d
  generalize State.awaits r.busy p = a at A ⊢
  have hfile : ∀ {x y : Wave}, x.file = y.file → x.s = y.s ∧ x.sbusy = y.sbusy := fun h => by
    simp only [Wave.file, Prod.mk.injEq] at h
    exact ⟨h.2.2.1, h.2.2.2.1⟩
  obtain ⟨hdone, w, ht, htf, -, htr⟩ := State.finish_doneIn (r := a) (vs := []) (ss := r.busy) (ms := []) (fl := false) hs
    ((hpw ▸ (s.w.touch_same s.now r.ops).lanes).trans A.lanes) ((Wave.touch_regs hpw).trans A.regs)
    (((SameMemory.touched s r.ops s.g.core).trans (hpseen _)).trans (A.seen _))
  obtain ⟨hps, hpb⟩ := hfile (s.w.touch_file s.now r.ops)
  obtain ⟨hws, hwb⟩ := hfile htf
  rw [ht] at hdone ⊢
  have hgroup : w.group = s.w.group := by
    rw [Wave.group_of_rest (htr.trans A.rest), hpw, Wave.touch_eq]
  have hg : (a.setW w).g = p.g := by
    rw [State.g, State.setW_w, hgroup, State.g, hpw, Wave.touch_eq]
    show a.groups.getD _ _ = _
    rw [A.groups]; rfl
  have hcore : (a.setW w).core s.g.core = p.core s.g.core := by
    show a.cores.getD _ _ = _
    rw [A.cores]; rfl
  refine ⟨hdone, fun v => ?_, fun v hv => ?_, ?_, by rw [hg]; exact hpbatch, fun j => ?_⟩
  · rw [State.setW_w, Wave.sreg, hws]
    refine (A.sreg v).trans ?_
    rw [hpw, Wave.sreg, hps]; rfl
  · rw [State.setW_w, hwb, A.busy v hv, hpw, hpb]
  · rw [State.c, hg, hpcore, hcore]
    exact hpqueue
  · rw [Claims.metaOf, hcore]
    exact hptiles j

end

/-! ### MGATHER -/

/-- A trap that is taken after the operands were read. -/
theorem Takes.of_touched {s t : State} {os : List Opnd} {x : Trap} (h : Claims.Takes (s.touched os) t x) : Claims.Takes s t x := by
  have hw : (s.touched os).w = { s.w with recipes := (s.touched os).w.recipes } := by
    rw [State.touched_w]
    exact Wave.touch_eq _ _ _
  have hto : (s.touched os).toHandler (s.touched os).cur x = s.toHandler s.cur x := by
    unfold State.toHandler
    rw [show (s.touched os).wave (s.touched os).cur = _ from hw]
    rfl
  have hreport : ∀ cs refl, Claims.ReportedTo (s.touched os) t x cs refl → Claims.ReportedTo s t x cs refl := by
    intro cs refl hrep
    unfold Claims.ReportedTo at hrep
    rw [State.touched_g, hw] at hrep
    exact hrep
  obtain ⟨henter, hreports⟩ := h
  refine ⟨fun hh => ?_, fun hh => ⟨fun o ho hne => ?_, fun ho => hreport _ _ ?_⟩⟩
  · have h := henter (hto.trans hh)
    unfold EnteredHandler at h
    rw [show (s.touched os).wave (s.touched os).cur = _ from hw, hw] at h
    exact h
  · exact hreport _ _ ((hreports (hto.trans hh)).1 o ho (by rwa [State.touched_g]))
  · have h := (hreports (hto.trans hh)).2 (by rwa [State.touched_g])
    unfold Claims.Reflected at h
    rwa [State.touched_g] at h

/-- The operands of MGATHER. -/
def gatherOps (a b : Nat) : List Opnd :=
  [{ field := 1, kind := .v2, reg := a, src := some 0 }, { field := 2, kind := .s, reg := b }]

/-- The indexes that MGATHER reads. -/
def gatherIndexes (s : State) (a : Nat) : List Word :=
  (List.range 64).map fun i => if i < 32 then lane (s.vaReg a) i else lane (s.vaReg (a + 1)) (i - 32)

/-- The gather that MGATHER puts into the unit's queue. -/
def gatherOf (s : State) (a b : Nat) : Gather :=
  { group := s.w.group, seq := s.g.gathers + 1, desc := s.sreg b, idx := gatherIndexes s a, wave := s.cur }

/-- A gather joins its core's queue. -/
def State.queueGather (s : State) (d : DWord) (idx : List Word) : State :=
  let g := s.g
  let v := s.setG { g with gathers := g.gathers + 1, latchRow := 32 * bits d.toNat 55 48 }
  let k := v.core g.core
  (v.setCore g.core { k with gatherQ := k.gatherQ ++
    [{ group := v.w.group, seq := g.gathers + 1, desc := d, idx := idx, wave := v.cur }] }).pokeArray g.core

section
variable {a b : Nat} {s : State} (hno : ¬Claims.skipped s) (hr : Ready s 4 (gatherOps a b) none)
include hno hr

/-- The descriptor fails a check. -/
theorem mgather_descriptor {x : Trap} (hx : Claims.firstBad (gatherFirst (s.sreg b) b) = some x) :
    exec (.mgather a b) s = .next (s.trap { x with len := 4 }) := by
  show execMgather a b s = _
  rw [execMgather]
  dsimp only
  rw [tileThen_awake hno, gatherCheck_eq, hx]
  exact withOperands_bad hr _ _

variable (hd : Claims.firstBad (gatherFirst (s.sreg b) b) = none)
  (hp : (s.sreg b).getLsbD 62 = true → (s.handle s.w.group (Claims.part (s.sreg b).toNat 56 6)).poison = none)
include hd hp

/-- The rows and the handler are checked, then the gather joins the queue. -/
theorem mgather_checked : exec (.mgather a b) s =
    (Claims.firstBad ((List.range 64).map (gatherRow s.g (s.sreg b) (gatherIndexes s a)) ++
      [(s.w.handler, Claims.protects 0x02 0)])).elim
    (let u := (s.touched (gatherOps a b)).drain s.cur
      if !u.w.storeQ.isEmpty then .next u.block else .next ((u.queueGather (s.sreg b) (gatherIndexes s a)).finish 4))
    fun x => .next ((s.touched (gatherOps a b)).trap x) := by
  have hc : gatherCheck (s.sreg b) b = none := (gatherCheck_eq _ _).trans hd
  have hclean : ∀ n ∈ (waitHandle (s.sreg b)).toList,
      ((s.touched (gatherOps a b)).handle (s.touched (gatherOps a b)).w.group n).poison = none := by
    intro n hn
    rw [waitHandle_toList] at hn
    split_ifs at hn with h
    · rw [List.mem_singleton.mp hn, State.touched_group]
      exact hp h
    · exact absurd hn (by simp)
  have hprot : Claims.firstBad [(s.w.handler, Claims.protects 0x02 0)] =
      if s.w.handler then some { cause := 0x0E, info := 0x02 } else none := rfl
  show execMgather a b s = _
  rw [execMgather]
  dsimp only
  rw [tileThen_awake hno, hc]
  refine (withOperands_ready hr _).trans ?_
  simp only [State.touched_sreg]
  rw [State.handlesThen_clean hclean]
  simp only [State.touched_sreg, State.touched_vaReg, firstTrap_two, State.touched_g, State.touched_handler]
  rw [firstBad_append, hprot, ← gatherRange_eq hc (by rw [gatherIndexes, List.length_map, List.length_range])]
  rw [show (List.range 64).map (gatherIndex (s.vaReg a) (s.vaReg (a + 1))) = gatherIndexes s a from rfl]
  generalize Option.or _ _ = o
  cases o <;> rfl

/-- A row passes the reservation, or the wave is in its handler. -/
theorem mgather_rows {x : Trap} (hx : Claims.firstBad ((List.range 64).map (gatherRow s.g (s.sreg b) (gatherIndexes s a)) ++
    [(s.w.handler, Claims.protects 0x02 0)]) = some x) : exec (.mgather a b) s = .next ((s.touched (gatherOps a b)).trap x) := by
  rw [mgather_checked hno hr hd hp, hx]
  rfl

theorem mgather_queued (hx : Claims.firstBad ((List.range 64).map (gatherRow s.g (s.sreg b) (gatherIndexes s a)) ++
    [(s.w.handler, Claims.protects 0x02 0)]) = none) (hq : s.w.storeQ = []) :
    exec (.mgather a b) s = .next (((s.touched (gatherOps a b)).queueGather (s.sreg b) (gatherIndexes s a)).finish 4) := by
  have hq' : (s.touched (gatherOps a b)).w.storeQ = [] := by rw [State.touched_w, Wave.touch_storeQ, hq]
  have hdrain : (s.touched (gatherOps a b)).drain s.cur = s.touched (gatherOps a b) := State.drain_empty hq'
  rw [mgather_checked hno hr hd hp, hx, hdrain]
  dsimp only [Option.elim]
  rw [hq']
  rfl

end

/-- The trap of a gather's check, at its descriptor or after the operands were read. -/
theorem mgather_traps {a b : Nat} {s : State} (hno : ¬Claims.skipped s) (hr : Ready s 4 (gatherOps a b) none)
    (hp : (s.sreg b).getLsbD 62 = true → (s.handle s.w.group (Claims.part (s.sreg b).toNat 56 6)).poison = none) {x : Trap}
    (hx : Claims.firstBad (Claims.gatherChecks s (s.sreg b) b (gatherIndexes s a)) = some x) :
    ∃ t, exec (.mgather a b) s = .next t ∧ Claims.Takes s t x ∧ TrapLeaves s t s.w.group := by
  have hcause := (gatherChecks_checks _ _ _ _).firstBad hx
  rw [gatherChecks_eq, List.append_assoc, firstBad_append] at hx
  cases hd : Claims.firstBad (gatherFirst (s.sreg b) b) with
  | some y =>
    rw [hd] at hx
    cases Option.some.inj hx
    obtain ⟨htakes, hl, -⟩ := State.trap_takes (s := s) (x := { x with len := 4 }) hcause
    exact ⟨_, mgather_descriptor hno hr hd, htakes, hl⟩
  | none =>
    rw [hd] at hx
    obtain ⟨htakes, hl, -⟩ := State.trap_takes (s := s.touched (gatherOps a b)) hcause
    refine ⟨_, mgather_rows hno hr hd hp hx, Takes.of_touched htakes, ?_⟩
    rw [State.touched_group] at hl
    refine TrapLeaves.trans (.ofCores (fun core => SameMemory.touched _ _ _) rfl rfl (fun c => ⟨_, rfl⟩) (fun k => ?_) fun _ => rfl) hl
    rw [show s.touched (gatherOps a b) = s.setW (s.w.touch s.now (gatherOps a b)) from rfl, State.setW, State.wave_setWave]
    split_ifs with h
    · rw [h, Wave.touch_eq]; rfl
    · rfl

/-- What a queued gather leaves of the device. -/
structure GatherQueued (s r : State) (d : DWord) (idx : List Word) : Prop where
  w : r.w = s.w
  seen : ∀ core, SameMemory s r core
  group : r.g = { s.g with gathers := s.g.gathers + 1, latchRow := 32 * bits d.toNat 55 48 }
  queue : (r.core s.g.core).gatherQ = s.c.gatherQ ++
    [{ group := s.w.group, seq := s.g.gathers + 1, desc := d, idx := idx, wave := s.cur }]

theorem State.queueGather_queued (s : State) (d : DWord) (idx : List Word) : GatherQueued s (s.queueGather d idx) d idx := by
  let v := s.setG { s.g with gathers := s.g.gathers + 1, latchRow := 32 * bits d.toNat 55 48 }
  let k : Core := { s.c with gatherQ := s.c.gatherQ ++
    [{ group := s.w.group, seq := s.g.gathers + 1, desc := d, idx := idx, wave := s.cur }] }
  have hp : Posts (v.setCore s.g.core k) (s.queueGather d idx) := State.posts_pokeArray _ _
  have hg : v.g = { s.g with gathers := s.g.gathers + 1, latchRow := 32 * bits d.toNat 55 48 } :=
    (State.group_setGroup _ _ _ _).trans (if_pos rfl)
  refine ⟨hp.w, fun core => ?_, hp.g.trans hg, ?_⟩
  · exact ((SameMemory.setGroup s s.w.group _ core).trans (SameMemory.setCore v (x := k) rfl core)).trans (hp.seen core)
  · rw [hp.core, State.core_setCore, if_pos rfl]

theorem mgather_done {a b : Nat} {s : State} (hs : Issues s) (hno : ¬Claims.skipped s) (hr : Ready s 4 (gatherOps a b) none)
    (hp : (s.sreg b).getLsbD 62 = true → (s.handle s.w.group (Claims.part (s.sreg b).toNat 56 6)).poison = none)
    (hx : Claims.firstBad (Claims.gatherChecks s (s.sreg b) b (gatherIndexes s a)) = none) (hq : s.w.storeQ = []) :
    ∃ t, exec (.mgather a b) s = .next t ∧ Done s t [] [] [] false ∧ t.c.gatherQ = s.c.gatherQ ++ [gatherOf s a b] ∧
      t.g.gathers = s.g.gathers + 1 ∧ t.g.latchRow = 32 * bits (s.sreg b).toNat 55 48 := by
  rw [gatherChecks_eq, List.append_assoc, firstBad_append, Option.or_eq_none_iff] at hx
  have Q := (s.touched (gatherOps a b)).queueGather_queued (s.sreg b) (gatherIndexes s a)
  refine ⟨_, mgather_queued hno hr hx.1 hp hx.2 hq, ?_⟩
  generalize State.queueGather _ _ _ = r at Q ⊢
  obtain ⟨hw, hseen, hg, hqueue⟩ := Q
  rw [State.touched_w] at hw
  rw [State.touched_g] at hg
  rw [State.touched_g, State.touched_c, State.touched_group] at hqueue
  obtain ⟨hdone, u, ht, -, -, hrest⟩ := State.done_touched hw ((SameMemory.touched _ _ _).trans (hseen _)) hs
  rw [ht] at hdone ⊢
  have hgt : (r.setW u).g = r.g := by rw [State.g, State.setW_w, Wave.group_of_rest hrest]; rfl
  refine ⟨hdone, ?_, by rw [hgt, hg], by rw [hgt, hg]⟩
  rw [State.c, hgt, hg]
  exact hqueue

/-- Settles O35, along each command's checks, its place and its answer. -/
theorem matrixCommandsAreQueued : Obligations.MatrixCommandsAreQueued := by
  unfold Obligations.MatrixCommandsAreQueued
  refine ⟨fun i s r hm _ hs => ?_, fun a b s _ hs hno hr hp => ⟨fun x hx _ => ?_, fun hx hq => ?_⟩⟩
  · obtain ⟨body, hi⟩ := matrix_issued hm
    refine ⟨hi.skips hs, fun hno hr _ x hx => hi.traps hno hr hx,
      fun hno hr hc hq hp => ⟨hi.waits hno hr hc hq hp, fun hroom => ?_⟩⟩
    obtain ⟨t, ht, P⟩ := hi.placed hno hr hc hq hp hs hroom
    obtain ⟨hmoved, hregs, hmem⟩ := P.done
    refine ⟨t, ht, hmoved, hmem, hregs, P.sreg, P.busy, fun hh hw => ?_, fun h => ?_, fun j => ?_⟩
    · have hf : (s.groupHandler s.w.group && !s.w.handler) = true := by rw [hh, hw]; rfl
      exact ⟨by rw [P.batch, hf]; rfl, by rw [P.queue, hf]; rfl⟩
    · have hf : (s.groupHandler s.w.group && !s.w.handler) = false := by
        obtain h | h := h <;> simp [h]
      exact ⟨by rw [P.queue, hf]; rfl, by rw [P.batch, hf]; rfl⟩
    · rw [P.tiles]
      obtain ⟨hb, ho⟩ | ⟨d, hb, ho⟩ := hi.busy <;> simp [hb, ho]
  · obtain ⟨t, ht, htakes, hl⟩ := mgather_traps hno hr hp hx
    exact ⟨t, ht, hl.seen _, hl.gatherQ _, by rw [hl.g]; exact hl.gathers, htakes⟩
  · obtain ⟨t, ht, hdone, hqueue, hgathers, hrow⟩ := mgather_done hs hno hr hp hx hq
    exact ⟨t, ht, hdone, hqueue, hgathers, hrow⟩

end Sys2Proof.Machine
end

section
/-! # Stop requests

What a stop request changes, whoever makes it (R231, R244, R444). -/

namespace Sys2Proof.Machine

/-! ### Rows that are set stay -/

theorem mem_rowsSet_key {α : Type} {l : List (Nat × α)} {j k : Nat} {v : α} :
    j ∈ (rowsSet l k v).map (·.1) ↔ j = k ∨ j ∈ l.map (·.1) := by
  induction l with
  | nil => simp [rowsSet]
  | cons p l ih =>
    obtain ⟨i, u⟩ := p
    simp only [rowsSet]
    split_ifs with h1 h2
    · simp
    · simp [h2]
    · rw [List.map_cons, List.mem_cons, ih, List.map_cons, List.mem_cons]
      tauto

/-- A row survives a set, or it is the row that was read, with its new value. -/
theorem rowsSet_keeps {α : Type} (d : α) {l : List (Nat × α)} {k : Nat} (v : α) {p : Nat × α} (hp : p ∈ l) :
    p ∈ rowsSet l k v ∨ (p = (k, rowsGet d l k) ∧ (k, v) ∈ rowsSet l k v) := by
  induction l with
  | nil => exact absurd hp (by simp)
  | cons q l ih =>
    obtain ⟨i, u⟩ := q
    by_cases h : k = i
    · subst h
      simp only [rowsSet, rowsGet, lt_irrefl, if_true, if_false]
      obtain rfl | hp := List.mem_cons.mp hp
      · exact .inr ⟨rfl, List.mem_cons_self⟩
      · exact .inl (List.mem_cons_of_mem _ hp)
    · simp only [rowsSet, rowsGet, if_neg h, if_neg (Ne.symm h)]
      split_ifs
      · exact .inl (List.mem_cons_of_mem _ hp)
      · obtain rfl | hp := List.mem_cons.mp hp
        · exact .inl List.mem_cons_self
        · exact (ih hp).imp (List.mem_cons_of_mem _) fun h => ⟨h.1, List.mem_cons_of_mem _ h.2⟩

theorem State.resident_setGroup {s : State} {g : Nat} {x : Group} (hcore : x.core = (s.group g).core)
    (hphase : x.phase.holds = (s.group g).phase.holds) {core j : Nat} (h : j ∈ s.resident core) :
      j ∈ (s.setGroup g x).resident core := by
  simp only [State.resident, List.mem_map, List.mem_filter, Bool.and_eq_true, decide_eq_true_eq] at h ⊢
  obtain ⟨p, ⟨hp, hc, hh⟩, rfl⟩ := h
  obtain hp' | ⟨e, hp'⟩ := rowsSet_keeps ({} : Group) (k := g) x hp
  · exact ⟨p, ⟨hp', hc, hh⟩, rfl⟩
  · rw [e] at hc hh
    exact ⟨(g, x), ⟨hp', hcore.trans hc, hphase.trans hh⟩, by rw [e]⟩

/-! ### Asking groups to stop -/

/-- The group has its stop request. -/
def State.asked (s : State) (g : Nat) : State :=
  ((((s.setGroup g { s.group g with stopReq := some s.now }).parkWaiting g).post (100 * Config.usCycles) (.preemptTimeout g)).post
    (200 * Config.usCycles) (.predoneTimeout g)).postOnce 0 (.groupStop g)

theorem State.requestStop_cases (s : State) (g : Nat) : s.requestStop g = s ∨ s.requestStop g = s.asked g := by
  exact ite_eq_or_eq _ _ _

theorem State.requestStop_resident {s : State} {g : Nat} (h : (s.group g).phase = .resident) (hs : (s.group g).stopReq = none) :
    s.requestStop g = s.asked g := by
  refine if_neg ?_
  rw [h, hs]
  simp

/-- From `s` to `t` groups were asked to stop, and cores marked: the groups that wait at a barrier are parked. -/
structure Asks (s t : State) : Prop where
  same : t = { s with waves := t.waves, groups := t.groups, cores := t.cores, agenda := t.agenda }
  wave : ∀ k, ∃ p, t.wave k = { s.wave k with phase := p }
  group : ∀ g, ∃ r, t.group g = { s.group g with stopReq := r } ∧ ((s.group g).stopReq ≠ none → r ≠ none)
  core : ∀ c, ∃ l b, t.core c = { s.core c with leaving := l, testing := b } ∧ ((s.core c).testing = true → b = true)
  resident : ∀ core g, g ∈ s.resident core → g ∈ t.resident core
  kept : ∀ q ∈ s.agenda, q ∈ t.agenda

namespace Asks

theorem refl (s : State) : Asks s s :=
    ⟨rfl, fun _ => ⟨_, rfl⟩, fun _ => ⟨_, rfl, id⟩, fun _ => ⟨_, _, rfl, id⟩, fun _ _ => id, fun _ => id⟩

theorem trans {s t u : State} (h : Asks s t) (k : Asks t u) : Asks s u := by
  refine ⟨by rw [k.same, h.same], fun i => ?_, fun g => ?_, fun c => ?_, fun core g hg => k.resident core g (h.resident core g hg),
    fun q hq => k.kept q (h.kept q hq)⟩
  · obtain ⟨p, hp⟩ := h.wave i
    obtain ⟨q, hq⟩ := k.wave i
    exact ⟨q, by rw [hq, hp]⟩
  · obtain ⟨r, hr, hs⟩ := h.group g
    obtain ⟨q, hq, ht⟩ := k.group g
    exact ⟨q, by rw [hq, hr], fun hn => ht (by rw [hr]; exact hs hn)⟩
  · obtain ⟨l, b, hl, hb⟩ := h.core c
    obtain ⟨m, d, hm, hd⟩ := k.core c
    exact ⟨m, d, by rw [hm, hl], fun hn => hd (by rw [hl]; exact hb hn)⟩

theorem foldl {α : Type} {f : State → α → State} (h : ∀ s a, Asks s (f s a)) (l : List α) (s : State) : Asks s (l.foldl f s) := by
  induction l generalizing s with
  | nil => exact refl s
  | cons a l ih => exact (h s a).trans (ih _)

theorem ofPosts {s t : State} (h : Posts s t) : Asks s t :=
  ⟨by conv_lhs => rw [h.same]
      rw [h.waves, h.groups, h.cores],
    fun k => ⟨_, by rw [h.wave]⟩, fun g => ⟨_, by rw [h.group], id⟩, fun c => ⟨_, _, by rw [h.core], id⟩,
    fun core g hg => by rwa [State.resident, h.groups], h.kept⟩

theorem setPhase (s : State) (k : Nat) (p : Phase) : Asks s (s.setWave k { s.wave k with phase := p }) := by
  refine ⟨rfl, fun j => ?_, fun _ => ⟨_, rfl, id⟩, fun _ => ⟨_, _, rfl, id⟩, fun _ _ => id, fun _ => id⟩
  rw [State.wave_setWave]
  split_ifs with h
  · exact ⟨p, by rw [h]⟩
  · exact ⟨_, rfl⟩

theorem setStop (s : State) (g : Nat) {r : Option Nat} (hr : r ≠ none) : Asks s (s.setGroup g { s.group g with stopReq := r }) := by
  refine ⟨rfl, fun _ => ⟨_, rfl⟩, fun j => ?_, fun _ => ⟨_, _, rfl, id⟩, fun core j hj =>
    State.resident_setGroup (x := { s.group g with stopReq := r }) rfl rfl hj, fun _ => id⟩
  rw [State.group_setGroup]
  split_ifs with h
  · exact ⟨r, by rw [h], fun _ => hr⟩
  · exact ⟨_, rfl, id⟩

theorem parkWaiting (s : State) (g : Nat) : Asks s (s.parkWaiting g) := by
  unfold State.parkWaiting
  split_ifs
  · exact refl s
  · refine foldl (fun s k => ?_) _ s
    dsimp only
    split
    · exact setPhase s k _
    · exact refl s

theorem asked (s : State) (g : Nat) : Asks s (s.asked g) :=
  ((setStop s g (by simp)).trans (parkWaiting _ _)).trans (.ofPosts (((State.posts_post _ _ _).trans (State.posts_post _ _ _)).trans
    (State.posts_postOnce _ _ _)))

theorem requestStop (s : State) (g : Nat) : Asks s (s.requestStop g) := by
  obtain h | h := s.requestStop_cases g <;> rw [h]
  · exact refl s
  · exact asked s g

theorem leaveCore (s : State) (c core : Nat) (below : Bool) : Asks s (s.leaveCore c core below) := by
  unfold State.leaveCore
  dsimp only
  refine Asks.trans (t := if (s.core core).leaving.contains (c, below) then s
    else s.setCore core { s.core core with leaving := (s.core core).leaving ++ [(c, below)] }) ?_
      ((foldl requestStop _ _).trans (.ofPosts (State.posts_post _ _ _)))
  split_ifs
  · exact refl s
  · refine ⟨rfl, fun _ => ⟨_, rfl⟩, fun _ => ⟨_, rfl, id⟩, fun k => ?_, fun _ _ => id, fun _ => id⟩
    rw [State.core_setCore]
    split_ifs with h
    · exact ⟨_, _, by rw [h], by rw [h]; exact id⟩
    · exact ⟨_, _, rfl, id⟩

section
variable {s t : State} (h : Asks s t)
include h

theorem ctx (g : Nat) : (t.group g).ctx = (s.group g).ctx := by
  obtain ⟨r, e, -⟩ := h.group g
  rw [e]
theorem phase (g : Nat) : (t.group g).phase = (s.group g).phase := by
  obtain ⟨r, e, -⟩ := h.group g
  rw [e]
theorem stopReq {g : Nat} (hg : (s.group g).stopReq ≠ none) : (t.group g).stopReq ≠ none := by
  obtain ⟨r, e, hr⟩ := h.group g
  rw [e]
  exact hr hg
theorem testing {c : Nat} (hc : (s.core c).testing = true) : (t.core c).testing = true := by
  obtain ⟨l, b, e, hb⟩ := h.core c
  rw [e]
  exact hb hc
end

end Asks

theorem State.requestStop_asked {s : State} {g : Nat} (h : (s.group g).phase = .resident) :
    ((s.requestStop g).group g).stopReq ≠ none := by
  by_cases hs : (s.group g).stopReq ≠ none
  · exact (Asks.requestStop s g).stopReq hs
  · rw [not_not] at hs
    rw [State.requestStop_resident h hs]
    refine (Asks.ofPosts (((State.posts_post _ _ _).trans (State.posts_post _ _ _)).trans (State.posts_postOnce _ _ _))).stopReq
      ((Asks.parkWaiting _ _).stopReq ?_)
    rw [State.group_setGroup, if_pos rfl]
    simp

/-- Groups that are asked one after another. -/
theorem State.requestStops_asked {s : State} {l : List Nat} {g : Nat} (hg : g ∈ l) (h : (s.group g).phase = .resident) :
    ((l.foldl (fun s g => s.requestStop g) s).group g).stopReq ≠ none := by
  induction l generalizing s with
  | nil => exact absurd hg (by simp)
  | cons j l ih =>
    obtain rfl | hg := List.mem_cons.mp hg
    · exact (Asks.foldl Asks.requestStop l _).stopReq (State.requestStop_asked h)
    · exact ih hg (((Asks.requestStop s j).phase g).trans h)

theorem State.leaveCore_asked {s : State} {c core : Nat} {below : Bool} {g : Nat} (hg : g ∈ s.stillOn c core below)
    (h : (s.group g).phase = .resident) : ((s.leaveCore c core below).group g).stopReq ≠ none := by
  unfold State.leaveCore
  dsimp only
  rw [(State.posts_post _ _ _).group]
  split_ifs
  · exact State.requestStops_asked hg h
  · exact State.requestStops_asked hg h

end Sys2Proof.Machine
end

section
/-! # Device health (O54) -/

namespace Sys2Proof.Machine

/-! ### Bring-up (R441, R442) -/

/-- The better of a block and a copy's block. -/
def newer (b : Option PackageConfig) (x : FlashCopy) : Option PackageConfig :=
  match b with
  | some y => if y.version < x.block.version then some x.block else b
  | none => some x.block

theorem newer_none (x : FlashCopy) : newer none x = some x.block := rfl
theorem newer_some (y : PackageConfig) (x : FlashCopy) :
    newer (some y) x = if y.version < x.block.version then some x.block else some y := rfl

theorem State.bestBlock_eq (s : State) : s.bestBlock =
    (s.flash.filter fun x => x.valid && decide (s.firmware.minVersion ≤ x.block.version)).foldl newer none := rfl

/-- The fold finds a copy above which there is no other. -/
theorem foldl_newer {x : FlashCopy} {l : List FlashCopy} (hbest : ∀ y ∈ l, y.block.version < x.block.version ∨ y = x)
    {b : Option PackageConfig} (h : b = some x.block ∨ (x ∈ l ∧ ∀ z, b = some z → z.version < x.block.version)) :
    l.foldl newer b = some x.block := by
  induction l generalizing b with
  | nil => exact h.elim id fun h => absurd h.1 (by simp)
  | cons y l ih =>
    refine ih (fun z hz => hbest z (List.mem_cons_of_mem _ hz)) ?_
    have hy := hbest y List.mem_cons_self
    obtain rfl | ⟨hx, hb⟩ := h
    · refine .inl ?_
      obtain hy | rfl := hy
      · rw [newer_some, if_neg (by omega)]
      · rw [newer_some, if_neg (lt_irrefl _)]
    · by_cases e : y = x
      · subst e
        refine .inl ?_
        cases b with
        | none => rfl
        | some z => rw [newer_some, if_pos (hb z rfl)]
      · have hlt := hy.resolve_right e
        refine .inr ⟨(List.mem_cons.mp hx).resolve_left fun h => e h.symm, fun z hz => ?_⟩
        cases b with
        | none => rw [← Option.some.inj hz]; exact hlt
        | some u =>
          rw [newer_some] at hz
          split_ifs at hz
          · rw [← Option.some.inj hz]; exact hlt
          · rw [← Option.some.inj hz]; exact hb u rfl

theorem mem_usable {s : State} {x : FlashCopy} :
    (x ∈ s.flash.filter fun x => x.valid && decide (s.firmware.minVersion ≤ x.block.version)) ↔
      x ∈ s.flash ∧ Claims.usable s x := by
  simp [Claims.usable]

theorem State.bestBlock_none {s : State} (h : ∀ x ∈ s.flash, ¬Claims.usable s x) : s.bestBlock = none := by
  rw [State.bestBlock_eq, List.eq_nil_iff_forall_not_mem.mpr fun x hx => h x (mem_usable.mp hx).1 (mem_usable.mp hx).2]
  rfl

theorem State.bestBlock_some {s : State} {x : FlashCopy} (hx : x ∈ s.flash) (hu : Claims.usable s x)
    (hbest : ∀ y ∈ s.flash, Claims.usable s y → y.block.version < x.block.version ∨ y = x) : s.bestBlock = some x.block := by
  rw [State.bestBlock_eq]
  exact foldl_newer (fun y hy => hbest y (mem_usable.mp hy).1 (mem_usable.mp hy).2)
    (.inr ⟨mem_usable.mpr ⟨hx, hu⟩, fun z hz => absurd hz (by simp)⟩)

/-- A domain that the configuration block fixes. -/
def State.fixDomain (s : State) (p : Nat × Nat × Nat) : State :=
  if p.1 < 8 then s.setDomain p.1 { s.domain p.1 with point := p.2.1, underv := p.2.2 } else s

theorem State.fixDomains_eq (s : State) : s.fixDomains = s.config.fixed.rows.foldl State.fixDomain s := rfl

theorem State.foldl_fixDomain_same (l : List (Nat × Nat × Nat)) (s : State) :
    l.foldl State.fixDomain s = { s with domains := (l.foldl State.fixDomain s).domains } := by
  induction l generalizing s with
  | nil => rfl
  | cons p l ih =>
    rw [List.foldl_cons, ih]
    unfold State.fixDomain
    split_ifs <;> rfl

theorem State.domain_fixDomain (s : State) (p : Nat × Nat × Nat) (d : Nat) (hd : d < 8) : (s.fixDomain p).domain d =
    if p.1 = d then { s.domain d with point := p.2.1, underv := p.2.2 } else s.domain d := by
  unfold State.fixDomain
  by_cases h : p.1 = d
  · subst h
    rw [if_pos hd, if_pos rfl, State.domain_setDomain, if_pos rfl]
  · rw [if_neg h]
    split_ifs
    · rw [State.domain_setDomain, if_neg (Ne.symm h)]
    · rfl

theorem Tab.get?_of_not_mem {α : Type} {l : List (Nat × α)} {k : Nat} (h : k ∉ l.map (·.1)) : (⟨l⟩ : Tab α).get? k = none := by
  induction l with
  | nil => rfl
  | cons p l ih =>
    simp only [List.map_cons, List.mem_cons, not_or] at h
    exact (if_neg (Ne.symm h.1)).trans (ih h.2)

/-- Each domain is fixed by its row. -/
theorem State.domain_foldl_fixDomain {l : List (Nat × Nat × Nat)} (hl : (l.map (·.1)).Nodup) (s : State) {d : Nat} (hd : d < 8) :
    (l.foldl State.fixDomain s).domain d = match (⟨l⟩ : Tab (Nat × Nat)).get? d with
      | some p => { s.domain d with point := p.1, underv := p.2 }
      | none => s.domain d := by
  induction l generalizing s with
  | nil => rfl
  | cons p l ih =>
    rw [List.map_cons, List.nodup_cons] at hl
    rw [List.foldl_cons, ih hl.2, State.domain_fixDomain _ _ _ hd]
    have hget : (⟨p :: l⟩ : Tab (Nat × Nat)).get? d = if p.1 = d then some p.2 else (⟨l⟩ : Tab (Nat × Nat)).get? d := rfl
    rw [hget]
    by_cases h : p.1 = d
    · subst h
      rw [if_pos rfl, if_pos rfl, Tab.get?_of_not_mem hl.1]
    · rw [if_neg h, if_neg h]

/-- The four cores of a cluster are retired. -/
def State.retireCluster (s : State) (c : Nat) : State :=
  (List.range 4).foldl (fun s i => s.setCore (4 * c + i) { s.core (4 * c + i) with retired := true }) s

theorem State.bootTests_eq (s : State) :
    s.bootTests = ((List.range 96).filter fun c => !Config.bootTestPasses c).foldl State.retireCluster s := rfl

theorem State.retireCluster_same (s : State) (c : Nat) : s.retireCluster c = { s with cores := (s.retireCluster c).cores } := rfl

theorem State.bootTests_same (s : State) : s.bootTests = { s with cores := s.bootTests.cores } := by
  rw [State.bootTests_eq]
  induction ((List.range 96).filter fun c => !Config.bootTestPasses c) generalizing s with
  | nil => rfl
  | cons c l ih => rw [List.foldl_cons, ih, State.retireCluster_same]

theorem State.retired_setCore (s : State) (k j : Nat) :
    ((s.setCore k { s.core k with retired := true }).core j).retired = ((s.core j).retired || decide (j = k)) := by
  rw [State.core_setCore]
  by_cases h : j = k <;> simp [h]

theorem State.retired_retireCluster (s : State) (c k : Nat) :
    ((s.retireCluster c).core k).retired = ((s.core k).retired || decide (k / 4 = c)) := by
  have hk : decide (k / 4 = c) =
    (decide (k = 4 * c + 0) || decide (k = 4 * c + 1) || decide (k = 4 * c + 2) || decide (k = 4 * c + 3)) := by
    rw [Bool.eq_iff_iff]
    simp only [Bool.or_eq_true, decide_eq_true_eq]
    omega
  unfold State.retireCluster
  simp only [show List.range 4 = [0, 1, 2, 3] from rfl, List.foldl_cons, List.foldl_nil, State.retired_setCore, hk, Bool.or_assoc]

theorem State.retired_bootTests (s : State) (k : Nat) :
    (s.bootTests.core k).retired = ((s.core k).retired || (decide (k < 384) && !Config.bootTestPasses (k / 4))) := by
  have hfold : ∀ (l : List Nat) (s : State), ((l.foldl State.retireCluster s).core k).retired =
      ((s.core k).retired || decide (k / 4 ∈ l)) := by
    intro l
    induction l with
    | nil => intro s; simp
    | cons c l ih =>
      intro s
      rw [List.foldl_cons, ih, State.retired_retireCluster, Bool.or_assoc]
      by_cases h : k / 4 = c <;> simp [h]
  rw [State.bootTests_eq, hfold]
  congr 1
  rw [Bool.eq_iff_iff]
  simp only [decide_eq_true_eq, List.mem_filter, List.mem_range, Bool.and_eq_true]
  exact and_congr (by omega) Iff.rfl

theorem bringup_stops {s : State} (h : s.firmware.valid = false ∨ ∀ x ∈ s.flash, ¬Claims.usable s x) :
    exec .powerOnBringup s = .next s := by
  show execPowerOnBringup s = _
  unfold execPowerOnBringup
  obtain h | h := h
  · rw [h]; rfl
  · rw [State.bestBlock_none h]
    exact ite_self _

theorem bringup_starts {s : State} (hv : s.firmware.valid = true) {x : FlashCopy} (hx : s.bestBlock = some x.block) :
    ∃ t, exec .powerOnBringup s = .next t ∧ t.up = true ∧ t.config = x.block ∧ t.ctxs = s.ctxs ∧
      (x.block.fixed.keys.Nodup → ∀ d, d < 8 → t.domain d = match x.block.fixed.get? d with
        | some p => { s.domain d with point := p.1, underv := p.2 }
        | none => s.domain d) ∧
      ∀ k, (t.core k).retired = ((s.core k).retired || (decide (k < 384) && !Config.bootTestPasses (k / 4))) := by
  have hfix := State.foldl_fixDomain_same x.block.fixed.rows { s with config := x.block }
  refine ⟨{ ({ s with config := x.block } : State).fixDomains.bootTests with up := true },
    ?_, rfl, ?_, ?_, fun hnodup d hd => ?_, fun k => ?_⟩
  · show execPowerOnBringup s = _
    rw [execPowerOnBringup, hv, hx]
    rfl
  · show State.config (State.bootTests _) = _
    rw [State.bootTests_same, State.fixDomains_eq, hfix]
  · show State.ctxs (State.bootTests _) = _
    rw [State.bootTests_same, State.fixDomains_eq, hfix]
  · show State.domain (State.bootTests _) d = _
    rw [State.bootTests_same, State.fixDomains_eq]
    exact State.domain_foldl_fixDomain hnodup _ hd
  · show ((State.bootTests _).core k).retired = _
    rw [State.retired_bootTests, State.fixDomains_eq, hfix]
    rfl

/-! ### The health page (R443) -/

theorem health_word {s : State} {c : Nat} (hc : c < 96) (hup : s.up = true) (hg : (s.cluster c).guard < 256)
    (ht : (s.cluster c).trans < 256) :
    ∃ w, s.hostRead (8 * c) = some w ∧ (∀ k, k < 4 → w.getLsbD (52 + k) = (s.core (4 * c + k)).retired) ∧
      w.toNat / 2 ^ 56 = 0 ∧ w.toNat / 2 ^ 48 % 16 = 0 ∧ w.toNat / 2 ^ 40 % 256 = (s.cluster c).guard ∧
      w.toNat / 2 ^ 32 % 256 = (s.cluster c).trans ∧ w.toNat % 2 ^ 32 = (s.cluster c).eol.toNat := by
  have hword : s.hostRead (8 * c) = some (s.healthWord c) := by
    rw [State.hostRead, hup, if_neg (by simp), if_pos (by omega), if_pos (by omega), Nat.mul_div_cancel_left c (by decide)]
  have hb : ∀ b : Bool, b.toNat ≤ 1 := Bool.toNat_le
  have heol := (s.cluster c).eol.isLt
  have hn : (s.healthWord c).toNat = 2 ^ 52 * (s.core (4 * c + 0)).retired.toNat + 2 ^ 53 * (s.core (4 * c + 1)).retired.toNat +
      2 ^ 54 * (s.core (4 * c + 2)).retired.toNat + 2 ^ 55 * (s.core (4 * c + 3)).retired.toNat + 2 ^ 40 * (s.cluster c).guard +
      2 ^ 32 * (s.cluster c).trans + (s.cluster c).eol.toNat := by
    have h0 := hb (s.core (4 * c + 0)).retired
    have h1 := hb (s.core (4 * c + 1)).retired
    have h2 := hb (s.core (4 * c + 2)).retired
    have h3 := hb (s.core (4 * c + 3)).retired
    unfold State.healthWord
    dsimp only
    simp only [show List.range 4 = [0, 1, 2, 3] from rfl, List.map_cons, List.map_nil, sumNat, List.foldr_cons, List.foldr_nil,
      Nat.mod_eq_of_lt hg, Nat.mod_eq_of_lt ht, BitVec.toNat_ofNat]
    rw [Nat.mod_eq_of_lt] <;> omega
  have h0 := hb (s.core (4 * c + 0)).retired
  have h1 := hb (s.core (4 * c + 1)).retired
  have h2 := hb (s.core (4 * c + 2)).retired
  have h3 := hb (s.core (4 * c + 3)).retired
  have hbit : ∀ k, k < 4 → (s.healthWord c).toNat / 2 ^ (52 + k) % 2 = (s.core (4 * c + k)).retired.toNat := by
    intro k hk
    rw [hn]
    interval_cases k <;> simp only [Nat.reduceAdd, Nat.reducePow] at * <;> omega
  refine ⟨_, hword, fun k hk => ?_, by rw [hn]; omega⟩
  rw [← BitVec.testBit_toNat, Nat.testBit_eq_decide_div_mod_eq, hbit k hk]
  cases (s.core (4 * c + k)).retired <;> rfl

end Sys2Proof.Machine
end

section
/-! ### Self-tests of slices and rows (R444, R445) -/

namespace Sys2Proof.Machine

theorem Tab.getD_erase_same {α : Type} (t : Tab α) (k : Nat) (d : α) : (t.erase k).getD k d = d := by
  unfold Tab.getD Tab.erase
  simp only
  induction t.rows with
  | nil => rfl
  | cons p l ih =>
    obtain ⟨j, v⟩ := p
    simp only [rowsErase]
    split_ifs with h
    · exact ih
    · rw [rowsGet, if_neg (Ne.symm h)]
      exact ih

theorem sliceTest_starts {s : State} {loc : Nat} (h : s.slices.getD loc 0 = 0) :
    ∃ t pass, exec (.selfTestStart 7 loc) s = .next t ∧ t.slices.getD loc 0 = 1 ∧ (∀ p ∈ t.msc.rows, p.1 / 2048 ≠ loc) ∧
      Claims.Due t (.selfTestComplete 7 loc pass) := by
  refine ⟨({ s with slices := s.slices.set loc 1, msc := ⟨s.msc.rows.filter fun p => p.1 / 2048 != loc⟩ } : State).post
    (Config.selfTestTime s.now) (.selfTestComplete 7 loc (Config.selfTestPasses s.now)), _, ?_, Tab.getD_set_same _ _ _ _, fun p hp => ?_,
    State.due_post _ _ _⟩
  · show execSelfTestStart 7 loc s = _
    simp only [execSelfTestStart, h, ne_eq, not_true_eq_false, and_false, false_and, if_false, if_true, or_self,
      show ¬(7 = 8) by decide]
  · have := (List.mem_filter.mp (show p ∈ s.msc.rows.filter fun p => p.1 / 2048 != loc from hp)).2
    simpa using this

theorem sliceTest_again {s : State} {loc : Nat} (h : s.slices.getD loc 0 ≠ 0) : exec (.selfTestStart 7 loc) s = .next s :=
  if_pos (.inl ⟨rfl, h⟩)

theorem rowTest_starts {s : State} {loc : Nat} (h : s.rows.getD loc 0 % 2 = 0) :
    ∃ t pass, exec (.selfTestStart 8 loc) s = .next t ∧ t.rows.getD loc 0 = s.rows.getD loc 0 + 1 ∧ t.hbm = s.hbm ∧
      Claims.Due t (.selfTestComplete 8 loc pass) := by
  refine ⟨({ s with rows := s.rows.set loc (s.rows.getD loc 0 + 1) } : State).post (Config.selfTestTime s.now)
    (.selfTestComplete 8 loc (Config.selfTestPasses s.now)), _, ?_, Tab.getD_set_same _ _ _ _, rfl, State.due_post _ _ _⟩
  show execSelfTestStart 8 loc s = _
  simp only [execSelfTestStart, h, ne_eq, not_true_eq_false, and_false, false_and, if_false, if_true, or_self, zero_ne_one,
    show ¬(8 = 7) by decide]

theorem rowTest_again {s : State} {loc : Nat} (h : s.rows.getD loc 0 % 2 = 1) : exec (.selfTestStart 8 loc) s = .next s :=
  if_pos (.inr (.inl ⟨rfl, h⟩))

theorem State.cluster_countTransient (s : State) (c : Nat) :
    ((s.countTransient c).cluster c).trans = min 255 ((s.cluster c).trans + 1) := by
  rw [State.countTransient, State.cluster_setCluster, if_pos rfl]

theorem sliceTest_ends {s : State} {loc : Nat} (pass : Bool) (h : s.slices.getD loc 0 = 1) :
    ∃ t, exec (.selfTestComplete 7 loc pass) s = .next t ∧ t.slices.getD loc 0 = (if pass then 0 else 2) ∧
      if pass then (t.cluster (s.metIn.getD (2 * loc) 0)).trans = min 255 ((s.cluster (s.metIn.getD (2 * loc) 0)).trans + 1)
      else t.clusters = s.clusters := by
  have hexec : exec (.selfTestComplete 7 loc pass) s =
      if pass then .next (({ s with slices := s.slices.erase loc } : State).countTransient (s.metIn.getD (2 * loc) 0))
      else .next { s with slices := s.slices.set loc 2 } := by
    show execSelfTestComplete 7 loc pass s = _
    rw [execSelfTestComplete, if_pos rfl, if_neg (by rw [h]; simp)]
  rw [hexec]
  cases pass
  · exact ⟨_, rfl, Tab.getD_set_same _ _ _ _, rfl⟩
  · exact ⟨_, rfl, Tab.getD_erase_same _ _ _, State.cluster_countTransient _ _⟩

theorem rowTest_ends {s : State} {loc : Nat} (pass : Bool) (h : s.rows.getD loc 0 % 2 = 1) :
    ∃ t, exec (.selfTestComplete 8 loc pass) s = .next t ∧ t.rows.getD loc 0 = (if pass then s.rows.getD loc 0 - 1 else 2) ∧
      if pass then (t.cluster (s.metIn.getD (2 * loc + 1) 0)).trans = min 255 ((s.cluster (s.metIn.getD (2 * loc + 1) 0)).trans + 1)
      else t.clusters = s.clusters := by
  have hexec : exec (.selfTestComplete 8 loc pass) s =
      if pass then .next (({ s with rows := s.rows.set loc (s.rows.getD loc 0 - 1) } : State).countTransient (s.metIn.getD (2 * loc + 1) 0))
      else .next { s with rows := s.rows.set loc 2 } := by
    show execSelfTestComplete 8 loc pass s = _
    unfold execSelfTestComplete
    dsimp only
    rw [if_neg (by decide), if_pos rfl, if_neg (by omega)]
  rw [hexec]
  cases pass
  · exact ⟨_, rfl, Tab.getD_set_same _ _ _ _, rfl⟩
  · exact ⟨_, rfl, Tab.getD_set_same _ _ _ _, State.cluster_countTransient _ _⟩

/-! ### Drowsy banks (R61) -/

section
variable {s : State} {core bank : Nat}

/-- Bank `bank` backs a register of wave `k` that is not demoted, and the wave does not wait for a load. -/
theorem bankIdle_iff : s.bankIdle core bank = true ↔ ∀ k ∈ s.wavesOn core,
    (∃ r, r < 8 * (s.wave k).granules ∧ r % 16 = bank ∧ (s.wave k).isDemoted r = false) →
      (s.wave k).waiting = true ∧ (s.wave k).loading = true := by
  unfold State.bankIdle
  rw [List.all_eq_true]
  refine forall₂_congr fun k _ => ?_
  simp only [Bool.or_eq_true, Bool.and_eq_true, Bool.not_eq_true', List.any_eq_false, List.mem_range, beq_iff_eq]
  constructor
  · rintro (h | h) ⟨r, hr, hb, hd⟩
    · exact h
    · exact absurd hd (by simpa [hb] using h r hr)
  · intro h
    by_cases hbacks : ∃ r, r < 8 * (s.wave k).granules ∧ r % 16 = bank ∧ (s.wave k).isDemoted r = false
    · exact .inl (h hbacks)
    · refine .inr fun r hr hrb => hbacks ⟨r, hr, hrb.1, hrb.2⟩

theorem drowsy_setCore (hb : bank < 16) (b : Bool) :
    ((s.setCore core { s.core core with drowsy := setBit (s.core core).drowsy bank b }).core core).drowsy.getLsbD bank = b := by
  rw [State.core_setCore, if_pos rfl, getLsbD_setBit, if_pos ⟨rfl, hb⟩]

theorem bankDrowsyEntry_spec (hb : bank < 16) :
    let held := fun k => (s.wave k).waiting = true ∧ (s.wave k).loading = true
    let backs := fun k => ∃ r, r < 8 * (s.wave k).granules ∧ r % 16 = bank ∧ (s.wave k).isDemoted r = false
    ∃ t, exec (.bankDrowsyEntry core bank) s = .next t ∧ t.waves = s.waves ∧
      ((∀ k ∈ s.wavesOn core, backs k → held k) → (t.core core).drowsy.getLsbD bank = true) ∧
      ((∃ k ∈ s.wavesOn core, backs k ∧ ¬held k) → t = s) := by
  intro held backs
  by_cases h : s.bankIdle core bank = true
  · exact ⟨_, if_pos h, rfl, fun _ => drowsy_setCore hb true,
    fun ⟨k, hk, hbacks, hheld⟩ => absurd (bankIdle_iff.mp h k hk hbacks) hheld⟩
  · exact ⟨s, if_neg h, rfl, fun hall => absurd (bankIdle_iff.mpr hall) h, fun _ => rfl⟩

end

/-! ### The start of a quantum (R169) -/

theorem Wave.quantumReady_iff (w : Wave) : w.quantumReady = true ↔
    w.regen = [] ∧ w.stay = none ∧ w.quantum = none ∧ w.waitingLanes ≠ 0 ∧
    (w.quantumDue = true ∨ (w.ppoint.getLsbD 17 = true ∧ w.backBranch = true ∧ w.ppoint.toNat % 2 ^ 17 ≤ w.timer)) := by
  have hbits : bits w.ppoint.toNat 16 0 = w.ppoint.toNat % 2 ^ 17 := by simp [bits]
  simp only [Wave.quantumReady, hbits, Bool.and_eq_true, Bool.or_eq_true, List.isEmpty_iff, Option.isNone_iff_eq_none, bne_iff_ne,
    decide_eq_true_eq, and_assoc]

theorem bit_waitingLanes (w : Wave) {l : Nat} (hl : l < 32) :
    bit w.waitingLanes l = true ↔ bit w.eligible l = true ∧ w.ipc < (lane w.duct l).toNat := by
  rw [Wave.waitingLanes, bit_maskOf _ hl, Bool.and_eq_true, decide_eq_true_eq]

/-- The least of some numbers, below a bound that none exceeds. -/
theorem foldr_min {f : Nat → Nat} {l : List Nat} {b : Nat} (hb : ∀ a ∈ l, f a ≤ b) {a : Nat} (ha : a ∈ l) :
    f a = l.foldr (fun a n => min (f a) n) b ↔ ∀ c ∈ l, f a ≤ f c := by
  have hle : ∀ (l : List Nat) (c : Nat), c ∈ l → l.foldr (fun a n => min (f a) n) b ≤ f c := by
    intro l
    induction l with
    | nil => simp
    | cons d l ih =>
      intro c hc
      obtain rfl | hc := List.mem_cons.mp hc
      · exact min_le_left _ _
      · exact (min_le_right _ _).trans (ih c hc)
  have hge : ∀ (l : List Nat) (n : Nat), n ≤ b → (∀ c ∈ l, n ≤ f c) → n ≤ l.foldr (fun a n => min (f a) n) b := by
    intro l
    induction l with
    | nil => intro n hn _; exact hn
    | cons d l ih => exact fun n hn h => le_min (h d List.mem_cons_self) (ih n hn fun c hc => h c (List.mem_cons_of_mem _ hc))
  exact ⟨fun h c hc => h ▸ hle l c hc, fun h => le_antisymm (hge l _ (hb a ha) h) (hle l a ha)⟩

theorem quantumStart_spec (k : Nat) (s : State) :
    let w := s.wave k
    let waits := fun l => bit w.eligible l = true ∧ w.ipc < (lane w.duct l).toNat
    let ripe := w.ppoint.getLsbD 17 = true ∧ w.backBranch = true ∧ w.ppoint.toNat % 2 ^ 17 ≤ w.timer
    (w.quantumDue = false → ¬ripe → exec (.quantumStart k) s = .next s) ∧
    (w.regen = [] → w.stay = none → w.quantum = none → (∃ l, l < 32 ∧ waits l) → (w.quantumDue = true ∨ ripe) →
      ∃ t q, exec (.quantumStart k) s = .next t ∧ (t.wave k).quantum = some (q, 0) ∧ (t.wave k).timer = 0 ∧
        (t.wave k).dx = w.dx ∧ (t.wave k).file = w.file ∧
        ∀ l, l < 32 → (bit q l = true ↔
          waits l ∧ ∀ j, j < 32 → waits j → (lane w.duct l).toNat ≤ (lane w.duct j).toNat)) := by
  intro w waits ripe
  refine ⟨fun hdue hripe => if_neg fun h => ?_, fun hregen hstay hquantum hwaits hready => ?_⟩
  · obtain ⟨-, -, -, -, h⟩ := (s.wave k).quantumReady_iff.mp h
    exact h.elim (fun h => absurd h (by rw [show (s.wave k).quantumDue = false from hdue]; simp)) hripe
  · obtain ⟨l, hl, hwl⟩ := hwaits
    have hr : w.quantumReady = true :=
      w.quantumReady_iff.mpr ⟨hregen, hstay, hquantum, mask_ne_zero ((bit_waitingLanes w hl).mpr hwl), hready⟩
    have hw : (s.setWave k w.beginQuantum).wave k = w.beginQuantum := by rw [State.wave_setWave, if_pos rfl]
    refine ⟨_, _, if_pos hr, by rw [hw]; rfl, by rw [hw]; rfl, by rw [hw]; rfl, by rw [hw]; rfl, fun l hl => ?_⟩
    have hmem : ∀ {l}, l ∈ lanesIn w.waitingLanes ↔ l < 32 ∧ waits l := fun {l} => by
      rw [mem_lanesIn]
      exact and_congr_right fun h => bit_waitingLanes w h
    rw [bit_maskOf _ hl, Bool.and_eq_true, bit_waitingLanes w hl, beq_iff_eq]
    refine and_congr_right fun hwl => ?_
    rw [foldr_min (f := fun l => (lane w.duct l).toNat) (fun a _ => by have := (lane w.duct a).isLt; omega) (hmem.mpr ⟨hl, hwl⟩)]
    exact ⟨fun h j hj hwj => h j (hmem.mpr ⟨hj, hwj⟩), fun h c hc => h c (hmem.mp hc).1 (hmem.mp hc).2⟩

end Sys2Proof.Machine
end

section
/-! ### Self-tests of cores (R444, R445) -/

namespace Sys2Proof.Machine

/-! #### A core is taken out of use -/

theorem Asks.setTesting (s : State) (core : Nat) : Asks s (s.setCore core { s.core core with testing := true }) := by
  refine ⟨rfl, fun _ => ⟨_, rfl⟩, fun _ => ⟨_, rfl, id⟩, fun k => ?_, fun _ _ => id, fun _ => id⟩
  rw [State.core_setCore]
  split_ifs with h
  · exact ⟨_, _, by rw [h], fun _ => rfl⟩
  · exact ⟨_, _, rfl, id⟩

theorem Asks.testCore (s : State) (core : Nat) : Asks s (s.testCore core) :=
  (Asks.setTesting s core).trans (.foldl (fun s c => leaveCore s c core false) _ _)

theorem State.testing_testCore (s : State) (core : Nat) : ((s.testCore core).core core).testing = true := by
  refine (Asks.foldl (fun s c => Asks.leaveCore s c core false) _ _).testing ?_
  rw [State.core_setCore, if_pos rfl]

theorem State.leaveCores_asked {s : State} {core g : Nat} {l : List Nat} (hl : (s.group g).ctx ∈ l) (hg : g ∈ s.resident core)
    (h : (s.group g).phase = .resident) : ((l.foldl (fun s c => s.leaveCore c core false) s).group g).stopReq ≠ none := by
  induction l generalizing s with
  | nil => exact absurd hl (by simp)
  | cons c l ih =>
    have hask := Asks.leaveCore s c core false
    obtain hc | hl := List.mem_cons.mp hl
    · refine (Asks.foldl (fun s c => Asks.leaveCore s c core false) l _).stopReq
        (State.leaveCore_asked (List.mem_filter.mpr ⟨hg, ?_⟩) h)
      simpa using hc
    · exact ih (by rw [hask.ctx]; exact hl) (hask.resident core g hg) ((hask.phase g).trans h)

theorem State.testCore_asked {s : State} {core g : Nat} (hg : g ∈ s.resident core) (h : (s.group g).phase = .resident) :
    ((s.testCore core).group g).stopReq ≠ none :=
  State.leaveCores_asked (List.mem_eraseDups.mpr (List.mem_map.mpr ⟨g, hg, rfl⟩)) hg h

/-- Cores that are taken out of use one after another. -/
theorem State.testCores_asked {s : State} {cores : List Nat} {k : Nat} (hk : k ∈ cores) :
    let t := cores.foldl (fun s k => s.testCore k) s
    (t.core k).testing = true ∧ ∀ g ∈ s.resident k, (s.group g).phase = .resident → (t.group g).stopReq ≠ none := by
  induction cores generalizing s with
  | nil => exact absurd hk (by simp)
  | cons j cores ih =>
    have hrest := Asks.foldl Asks.testCore cores (s.testCore j)
    have hask := Asks.testCore s j
    obtain rfl | hk := List.mem_cons.mp hk
    · exact ⟨hrest.testing (s.testing_testCore k), fun g hg h => hrest.stopReq (State.testCore_asked hg h)⟩
    · exact ⟨(ih hk).1, fun g hg h => (ih hk).2 g (hask.resident k g hg) ((hask.phase g).trans h)⟩

section
variable {s : State} {unit loc : Nat} (h7 : unit ≠ 7) (h8 : unit ≠ 8)
include h7 h8

theorem coreTest_start : exec (.selfTestStart unit loc) s =
    let cores := (unitCores unit loc).filter fun k => !(s.core k).testing && !(s.core k).retired
    if cores = [] then .next s
    else .next ((cores.foldl (fun s k => s.testCore k) s).post (Config.selfTestTime (cores.foldl (fun s k => s.testCore k) s).now)
      (.selfTestComplete unit loc (Config.selfTestPasses (cores.foldl (fun s k => s.testCore k) s).now))) := by
  show execSelfTestStart unit loc s = _
  simp only [execSelfTestStart, h7, h8, ne_eq, not_false_eq_true, true_and, false_and, false_or, if_false, List.isEmpty_iff]

theorem coreTest_starts (hne : unitCores unit loc ≠ [])
    (h : ∀ k ∈ unitCores unit loc, (s.core k).testing = false ∧ (s.core k).retired = false) :
    ∃ t, exec (.selfTestStart unit loc) s = .next t ∧ Claims.TestsCores s t unit loc (unitCores unit loc) := by
  have hall : (unitCores unit loc).filter (fun k => !(s.core k).testing && !(s.core k).retired) = unitCores unit loc :=
    List.filter_eq_self.mpr fun k hk => by rw [(h k hk).1, (h k hk).2]; rfl
  rw [coreTest_start h7 h8, hall]
  exact ⟨_, if_neg hne, ⟨_, State.due_post _ _ _⟩, fun k hk => State.testCores_asked hk⟩

end

/-! #### The test is over -/

theorem chain_head (s : State) (c : Nat) : ∃ l, s.chain c = c :: l := by
  unfold State.chain State.chainFuel
  split
  · exact ⟨_, rfl⟩
  · exact ⟨_, rfl⟩

/-- Cores may have left the grants, and units look at their work again. -/
structure Ungrants (s t : State) : Prop where
  ctx : ∀ c, ∃ p, t.ctx c = { s.ctx c with cores := (s.ctx c).cores.filter p }
  keys : ∀ c ∈ s.ctxs.keys, c ∈ t.ctxs.keys

namespace Ungrants

theorem refl (s : State) : Ungrants s s := ⟨fun c => ⟨fun _ => true, by rw [List.filter_true]⟩, fun _ => id⟩

theorem trans {s t u : State} (h : Ungrants s t) (k : Ungrants t u) : Ungrants s u := by
  refine ⟨fun c => ?_, fun c hc => k.keys c (h.keys c hc)⟩
  obtain ⟨p, hp⟩ := h.ctx c
  obtain ⟨q, hq⟩ := k.ctx c
  exact ⟨fun a => q a && p a, by rw [hq, hp, List.filter_filter]⟩

theorem foldl {α : Type} {f : State → α → State} (h : ∀ s a, Ungrants s (f s a)) (l : List α) (s : State) :
    Ungrants s (l.foldl f s) := by
  induction l generalizing s with
  | nil => exact refl s
  | cons a l ih => exact (h s a).trans (ih _)

theorem ofCtxs {s t : State} (h : t.ctxs = s.ctxs) : Ungrants s t :=
  ⟨fun c => ⟨fun _ => true, by rw [List.filter_true, State.ctx, h]; rfl⟩, fun c hc => by rwa [h]⟩

theorem dropCore (s : State) (c core : Nat) :
    Ungrants s (s.setCtx c { s.ctx c with cores := (s.ctx c).cores.filter fun p => p.1 != core }) := by
  refine ⟨fun d => ?_, fun d hd => mem_rowsSet_key.mpr (.inr hd)⟩
  rw [State.ctx_setCtx]
  split_ifs with h
  · exact ⟨_, by rw [h]⟩
  · exact (refl s).ctx d

theorem granted {s t : State} (h : Ungrants s t) {c core : Nat} (hg : s.granted c core = false) : t.granted c core = false := by
  obtain ⟨p, hp⟩ := h.ctx c
  rw [State.granted, hp]
  rw [State.granted, List.any_eq_false] at hg
  exact List.any_eq_false.mpr fun a ha => hg a (List.mem_of_mem_filter ha)

end Ungrants

/-- The grants without a core. -/
def State.ungrant (s : State) (core : Nat) : State :=
  s.ctxs.keys.foldl (fun s c => s.setCtx c { s.ctx c with cores := (s.ctx c).cores.filter fun p => p.1 != core }) s

theorem State.ungrant_same (s : State) (core : Nat) : s.ungrant core = { s with ctxs := (s.ungrant core).ctxs } := by
  unfold State.ungrant
  generalize s.ctxs.keys = l
  induction l generalizing s with
  | nil => rfl
  | cons c l ih =>
    rw [List.foldl_cons, ih]
    rfl

theorem State.granted_foldl_dropCore {l : List Nat} {c : Nat} (hc : c ∈ l) (s : State) (core : Nat) :
    (l.foldl (fun s c => s.setCtx c { s.ctx c with cores := (s.ctx c).cores.filter fun p => p.1 != core }) s).granted c core = false := by
  induction l generalizing s with
  | nil => exact absurd hc (by simp)
  | cons d l ih =>
    obtain rfl | hc := List.mem_cons.mp hc
    · refine (Ungrants.foldl (fun s c => Ungrants.dropCore s c core) l _).granted ?_
      rw [State.granted, State.ctx_setCtx, if_pos rfl]
      simp
    · exact ih hc _

theorem State.regranted_same (s : State) (cl : Nat) :
    s.regranted cl = { s with clusters := (s.regranted cl).clusters, agenda := (s.regranted cl).agenda } := by
  have hdrop : s.dropQueued cl = { s with clusters := (s.dropQueued cl).clusters } := by
    unfold State.dropQueued
    generalize List.filter _ _ = l
    induction l generalizing s with
    | nil => rfl
    | cons g l ih =>
      rw [List.foldl_cons, ih]
      rfl
  have hp : Posts (s.dropQueued cl) (s.regranted cl) :=
    ((State.posts_pokePairs _).trans (State.posts_pokeQueues _)).trans (State.posts_pokeGatherer _)
  rw [hp.clusters]
  conv_lhs => rw [hp.same, hdrop]

theorem State.retireCore_eq (s : State) (core : Nat) : s.retireCore core =
    ((s.ungrant core).setCore core { s.core core with
      testing := false, retired := true, turns := ⟨[]⟩, turnEnds := ⟨[]⟩ }).regranted (clusterOf core) := by
  have h : (s.ungrant core).core core = s.core core := by rw [State.ungrant_same]; rfl
  rw [← h]
  rfl

theorem State.retireCore_ctxs (s : State) (core : Nat) : (s.retireCore core).ctxs = (s.ungrant core).ctxs := by
  rw [State.retireCore_eq, State.regranted_same]
  rfl

theorem Ungrants.retireCore (s : State) (core : Nat) : Ungrants s (s.retireCore core) :=
  (foldl (fun s c => dropCore s c core) _ s).trans (ofCtxs (s.retireCore_ctxs core))

theorem State.core_retireCore (s : State) (core k : Nat) : (s.retireCore core).core k =
    if k = core then { s.core core with testing := false, retired := true, turns := ⟨[]⟩, turnEnds := ⟨[]⟩ } else s.core k := by
  rw [State.retireCore_eq, State.regranted_same]
  show (State.setCore _ _ _).core k = _
  rw [State.core_setCore]
  split_ifs
  · rfl
  · rw [State.ungrant_same]; rfl

theorem State.granted_retireCore {s : State} {c : Nat} (hc : c ∈ s.ctxs.keys) (core : Nat) : (s.retireCore core).granted c core = false :=
  (Ungrants.ofCtxs (s.retireCore_ctxs core)).granted (State.granted_foldl_dropCore hc s core)

/-- Cores that are retired one after another. -/
theorem State.retireCores_spec {s : State} {cores : List Nat} {k : Nat} (hk : k ∈ cores) :
    let t := cores.foldl (fun s k => s.retireCore k) s
    (t.core k).testing = false ∧ (t.core k).retired = true ∧ ∀ c ∈ s.ctxs.keys, t.granted c k = false := by
  have hstay : ∀ (l : List Nat) (s : State), (s.core k).testing = false → (s.core k).retired = true →
      ((l.foldl (fun s k => s.retireCore k) s).core k).testing = false ∧
        ((l.foldl (fun s k => s.retireCore k) s).core k).retired = true := by
    intro l
    induction l with
    | nil => exact fun s h1 h2 => ⟨h1, h2⟩
    | cons j l ih =>
      intro s h1 h2
      refine ih _ ?_ ?_ <;> rw [State.core_retireCore] <;> split_ifs
      · rfl
      · exact h1
      · rfl
      · exact h2
  induction cores generalizing s with
  | nil => exact absurd hk (by simp)
  | cons j cores ih =>
    obtain rfl | hk := List.mem_cons.mp hk
    · obtain ⟨h1, h2⟩ := hstay cores (s.retireCore k)
        (by rw [State.core_retireCore, if_pos rfl]) (by rw [State.core_retireCore, if_pos rfl])
      exact ⟨h1, h2, fun c hc => (Ungrants.foldl Ungrants.retireCore cores _).granted (State.granted_retireCore hc k)⟩
    · obtain ⟨h1, h2, h3⟩ := ih hk (s := s.retireCore j)
      exact ⟨h1, h2, fun c hc => h3 c ((Ungrants.retireCore s j).keys c hc)⟩

/-! #### The retirement is reported -/

/-- Entries went to rings, and to front ends. -/
structure Reports (s t : State) : Prop where
  ctx : ∀ c, ∃ q p, t.ctx c = { s.ctx c with ringQ := q, pmc := p } ∧ ∀ e ∈ (s.ctx c).ringQ, e ∈ q
  cores : t.cores = s.cores

namespace Reports

theorem refl (s : State) : Reports s s := ⟨fun _ => ⟨_, _, rfl, fun _ => id⟩, rfl⟩

theorem trans {s t u : State} (h : Reports s t) (k : Reports t u) : Reports s u := by
  refine ⟨fun c => ?_, k.cores.trans h.cores⟩
  obtain ⟨q, p, e, hq⟩ := h.ctx c
  obtain ⟨q', p', e', hq'⟩ := k.ctx c
  exact ⟨q', p', by rw [e', e], fun x hx => hq' x (by rw [e]; exact hq x hx)⟩

theorem foldl {α : Type} {f : State → α → State} (h : ∀ s a, Reports s (f s a)) (l : List α) (s : State) :
    Reports s (l.foldl f s) := by
  induction l generalizing s with
  | nil => exact refl s
  | cons a l ih => exact (h s a).trans (ih _)

theorem toRing (s : State) (ring : Option Nat) (part : Nat) (e : RingEntry) : Reports s (s.toRing ring part e) := by
  have h := s.toRing_got ring part e
  refine ⟨fun c => ?_, by rw [h.same]⟩
  obtain ⟨q, p, hc⟩ := h.ctx c
  refine ⟨q, p, hc, fun x hx => ?_⟩
  have hq : q = (((s.toRing ring part e).ctx c).ringQ) := by rw [hc]
  rw [hq]
  by_cases hr : ring = some c
  · have hg := h.got
    rw [hr] at hg
    rw [hr, hg]
    exact List.mem_append_left _ hx
  · rw [h.others c hr]
    exact hx

end Reports

/-- The entry of a retirement in a context's ring. -/
def retirement (s : State) (unit c : Nat) : RingEntry :=
  { ctx := c, tcause := 0x0B, tinfo := BitVec.ofNat 64 (2 ^ 32 + 2 ^ 24 * unit), word2c := 2 ^ 16 * (s.ctx c).depth }

/-- One context is told of a retirement. -/
def State.reportTo (s : State) (unit c : Nat) : State :=
  let u := s.toRing (s.ringOf (s.chain c)) (s.partition c) (retirement s unit c)
  if (s.ringOf (s.chain c)).isSome && (u.ctx c).depth == 1 then u.notice c (retirement s unit c) else u

theorem State.reportRetired_eq (s : State) (holders : List Nat) (unit : Nat) :
    s.reportRetired holders unit = holders.foldl (fun s c => s.reportTo unit c) s := rfl

theorem State.reportTo_ctx (s : State) (unit c : Nat) :
    (s.reportTo unit c).ctxs = (s.toRing (s.ringOf (s.chain c)) (s.partition c) (retirement s unit c)).ctxs ∧
      (s.reportTo unit c).cores = (s.toRing (s.ringOf (s.chain c)) (s.partition c) (retirement s unit c)).cores := by
  unfold State.reportTo
  dsimp only
  split_ifs
  · exact ⟨rfl, rfl⟩
  · exact ⟨rfl, rfl⟩

theorem Reports.reportTo (s : State) (unit c : Nat) : Reports s (s.reportTo unit c) := by
  obtain ⟨hctxs, hcores⟩ := s.reportTo_ctx unit c
  have h := Reports.toRing s (s.ringOf (s.chain c)) (s.partition c) (retirement s unit c)
  exact ⟨fun d => by rw [State.ctx, hctxs]; exact h.ctx d, hcores.trans h.cores⟩

/-- A context that takes faults has the entry in its own ring. -/
theorem State.reportTo_told {s : State} {unit c : Nat} (h : (s.ctx c).fltEn = true) :
    retirement s unit c ∈ ((s.reportTo unit c).ctx c).ringQ := by
  have hring : s.ringOf (s.chain c) = some c := by
    obtain ⟨l, hl⟩ := chain_head s c
    rw [State.ringOf, hl, List.find?_cons, h]
  have hg := (s.toRing_got (s.ringOf (s.chain c)) (s.partition c) (retirement s unit c)).got
  rw [State.ctx, (s.reportTo_ctx unit c).1]
  rw [hring] at hg ⊢
  show _ ∈ (State.ctx _ c).ringQ
  rw [hg]
  exact List.mem_append_right _ (List.mem_singleton_self _)

theorem State.reportRetired_told {s : State} {holders : List Nat} {unit c : Nat} (hc : c ∈ holders) (h : (s.ctx c).fltEn = true) :
    ∃ e ∈ ((s.reportRetired holders unit).ctx c).ringQ, e.ctx = c ∧ e.tcause = 0x0B ∧ e.ticket = 0 ∧
      e.tinfo = BitVec.ofNat 64 (2 ^ 32 + 2 ^ 24 * unit) := by
  rw [State.reportRetired_eq]
  induction holders generalizing s with
  | nil => exact absurd hc (by simp)
  | cons d l ih =>
    obtain rfl | hc := List.mem_cons.mp hc
    · obtain ⟨q, p, hq, hmem⟩ := (Reports.foldl (fun s c => Reports.reportTo s unit c) l (s.reportTo unit c)).ctx c
      refine ⟨retirement s unit c, ?_, rfl, rfl, rfl, rfl⟩
      rw [List.foldl_cons, hq]
      exact hmem _ (State.reportTo_told h)
    · obtain ⟨q, p, hq, -⟩ := (Reports.reportTo s unit d).ctx c
      exact ih hc (by rw [hq]; exact h)

theorem Reports.reportRetired (s : State) (holders : List Nat) (unit : Nat) : Reports s (s.reportRetired holders unit) :=
  foldl (fun s c => reportTo s unit c) holders s

/-! #### The end of the test -/

theorem State.foldl_untest (l : List Nat) (s : State) (k : Nat) :
    ((l.foldl (fun s k => s.setCore k { s.core k with testing := false }) s).core k).retired = (s.core k).retired ∧
      (((s.core k).testing = false ∨ k ∈ l) →
        ((l.foldl (fun s k => s.setCore k { s.core k with testing := false }) s).core k).testing = false) := by
  induction l generalizing s with
  | nil => exact ⟨rfl, fun h => h.elim id fun h => absurd h (by simp)⟩
  | cons j l ih =>
    obtain ⟨h1, h2⟩ := ih (s.setCore j { s.core j with testing := false })
    by_cases hk : k = j
    · subst hk
      rw [State.core_setCore, if_pos rfl] at h1 h2
      exact ⟨h1, fun _ => h2 (.inl rfl)⟩
    · rw [State.core_setCore, if_neg hk] at h1 h2
      exact ⟨h1, fun h => h2 (h.imp id fun h => (List.mem_cons.mp h).resolve_left hk)⟩

theorem State.foldl_untest_clusters (l : List Nat) (s : State) :
    (l.foldl (fun s k => s.setCore k { s.core k with testing := false }) s).clusters = s.clusters := by
  induction l generalizing s with
  | nil => rfl
  | cons j l ih => rw [List.foldl_cons, ih]; rfl

section
variable {s : State} {unit loc : Nat} (h7 : unit ≠ 7) (h8 : unit ≠ 8)
  (htest : ∀ k ∈ unitCores unit loc, (s.core k).testing = true) (hne : unitCores unit loc ≠ [])
include h7 h8 htest hne

theorem coreTest_over (pass : Bool) : exec (.selfTestComplete unit loc pass) s =
    if (unitCores unit loc).any (fun k => !(s.resident k).isEmpty || !(s.core k).leaving.isEmpty) then
      .next (s.postOnce Config.usCycles (.selfTestComplete unit loc pass))
    else if pass then
      let r := (unitCores unit loc).foldl (fun s k => s.setCore k { s.core k with testing := false }) s
      .next ((((r.countTransient (clusterOf ((unitCores unit loc).headD 0))).pokePairs).pokeQueues).pokeGatherer)
    else
      .next (((unitCores unit loc).foldl (fun s k => s.retireCore k) s).reportRetired
        (s.ctxs.keys.filter fun c => (unitCores unit loc).any (s.granted c)) (if unit = 11 then 11 else 12)) := by
  have hall : (unitCores unit loc).filter (fun k => (s.core k).testing) = unitCores unit loc := List.filter_eq_self.mpr htest
  show execSelfTestComplete unit loc pass s = _
  unfold execSelfTestComplete
  rw [if_neg h7, if_neg h8]
  dsimp only
  rw [hall, if_neg (by simpa using hne)]

theorem coreTest_ends {code : Nat} (hcode : code = if unit = 11 then 11 else 12) :
    Claims.TestEnds s unit loc code (unitCores unit loc) := by
  have hover := coreTest_over h7 h8 htest hne
  refine ⟨fun hbusy pass => ⟨s.postOnce Config.usCycles (.selfTestComplete unit loc pass), ?_, (State.posts_postOnce _ _ _).cores,
    State.due_postOnce _ _ _⟩, fun hquiet => ?_⟩
  · rw [hover, if_pos]
    obtain ⟨k, hk, hb⟩ := hbusy
    exact List.any_eq_true.mpr ⟨k, hk, by simpa [List.isEmpty_iff] using hb⟩
  · have hnot : (unitCores unit loc).any (fun k => !(s.resident k).isEmpty || !(s.core k).leaving.isEmpty) = false :=
      List.any_eq_false.mpr fun k hk => by simp [(hquiet k hk).1, (hquiet k hk).2]
    refine ⟨⟨_, by rw [hover, hnot]; rfl, fun k hk => ?_, ?_⟩,
      _, by rw [hover, hnot]; rfl, fun k hk => ?_, fun c hc ⟨k, hk, hg⟩ hflt => ?_⟩
    · rw [((State.posts_pokePairs _).trans ((State.posts_pokeQueues _).trans (State.posts_pokeGatherer _))).core]
      exact ⟨(State.foldl_untest _ s k).2 (.inr hk), (State.foldl_untest _ s k).1⟩
    · rw [((State.posts_pokePairs _).trans ((State.posts_pokeQueues _).trans (State.posts_pokeGatherer _))).cluster]
      refine (State.cluster_countTransient _ _).trans ?_
      rw [State.cluster, State.foldl_untest_clusters]
      rfl
    · obtain ⟨h1, h2, h3⟩ := State.retireCores_spec (s := s) hk
      have hr := Reports.reportRetired ((unitCores unit loc).foldl (fun s k => s.retireCore k) s)
        (s.ctxs.keys.filter fun c => (unitCores unit loc).any (s.granted c)) (if unit = 11 then 11 else 12)
      refine ⟨by rw [State.core, hr.cores]; exact h1, by rw [State.core, hr.cores]; exact h2, fun c hc => ?_⟩
      obtain ⟨q, p, e, -⟩ := hr.ctx c
      rw [State.granted, e]
      exact h3 c hc
    · rw [hcode]
      refine State.reportRetired_told (List.mem_filter.mpr ⟨hc, List.any_eq_true.mpr ⟨k, hk, hg⟩⟩) ?_
      obtain ⟨p, e⟩ := (Ungrants.foldl Ungrants.retireCore (unitCores unit loc) s).ctx c
      rw [e]
      exact hflt

end

theorem unitCores_one {unit : Nat} (h7 : unit ≠ 7) (h8 : unit ≠ 8) (h11 : unit ≠ 11) (core : Nat) : unitCores unit core = [core] := by
  simp [unitCores, h7, h8, h11]

theorem unitCores_cluster (cl : Nat) : unitCores 11 cl = [4 * cl, 4 * cl + 1, 4 * cl + 2, 4 * cl + 3] := rfl

/-- A core under test, or out of use, is not tested. -/
theorem coreTest_idle {s : State} {unit core : Nat} (h7 : unit ≠ 7) (h8 : unit ≠ 8) (h11 : unit ≠ 11)
    (h : (s.core core).testing = true ∨ (s.core core).retired = true) : exec (.selfTestStart unit core) s = .next s := by
  rw [coreTest_start h7 h8, unitCores_one h7 h8 h11]
  refine if_pos (List.filter_eq_nil_iff.mpr fun k hk => ?_)
  rw [List.mem_singleton.mp hk]
  obtain h | h := h <;> simp [h]

/-- Settles O54, part by part: bring-up, reports, the health page, self-tests, drowsy banks and quanta. -/
theorem deviceHealth : Obligations.DeviceHealth := by
  unfold Obligations.DeviceHealth
  intro s
  refine ⟨bringup_stops, fun hv x hx hu hbest => bringup_starts hv (State.bestBlock_some hx hu hbest), fun nonce hup => ?_,
    fun cl hours guard => rfl, fun c hc hup hg ht => health_word hc hup hg ht,
    fun loc => ⟨sliceTest_starts, sliceTest_again, rowTest_starts, rowTest_again⟩,
      fun unit core h7 h8 h11 => ⟨fun ht hr => ?_, ?_, fun ht => ?_⟩,
    fun cl => ⟨fun h => ?_, fun h => ?_⟩, fun loc pass => ⟨sliceTest_ends pass, rowTest_ends pass⟩,
    fun core bank hb => ⟨bankDrowsyEntry_spec hb, _, rfl, rfl, drowsy_setCore hb false⟩, fun k => quantumStart_spec k s⟩
  · refine ⟨_, _, if_pos hup, rfl, rfl, rfl, rfl, rfl, rfl, rfl⟩
  · have h := coreTest_starts (s := s) (loc := core) h7 h8
    rw [unitCores_one h7 h8 h11] at h
    exact h (by simp) fun k hk => by rw [List.mem_singleton.mp hk]; exact ⟨ht, hr⟩
  · exact coreTest_idle h7 h8 h11
  · have h := coreTest_ends (s := s) (loc := core) h7 h8
    rw [unitCores_one h7 h8 h11] at h
    exact h (fun k hk => by rw [List.mem_singleton.mp hk]; exact ht) (by simp) (by rw [if_neg h11])
  · exact coreTest_starts (by decide) (by decide) (by rw [unitCores_cluster]; simp) h
  · exact coreTest_ends (unit := 11) (by decide) (by decide) h (by rw [unitCores_cluster]; simp) rfl

end Sys2Proof.Machine
end

section
/-! # What a stop leaves of groups and cores

A stop drains stores, cleans caches, ends engine operations and writes a folio (R118, R244). None of it moves a group or takes a lock
bit: `Memories` says so of the memories and caches, `Calm` of all of it. -/

namespace Sys2Proof.Machine

/-! ### Memories and caches -/

/-- Memories, caches and counts may have changed from `s` to `t`. -/
structure Memories (s t : State) : Prop where
  waves : t.waves = s.waves
  groups : t.groups = s.groups
  locks : ∀ c, (t.core c).locks = (s.core c).locks
  zeroing : ∀ c, (t.core c).zeroing = (s.core c).zeroing

namespace Memories

theorem refl (s : State) : Memories s s := ⟨rfl, rfl, fun _ => rfl, fun _ => rfl⟩

theorem trans {s t u : State} (h : Memories s t) (k : Memories t u) : Memories s u :=
  ⟨k.waves.trans h.waves, k.groups.trans h.groups, fun c => (k.locks c).trans (h.locks c), fun c => (k.zeroing c).trans (h.zeroing c)⟩

theorem foldl {α : Type} {f : State → α → State} (h : ∀ s a, Memories s (f s a)) (l : List α) (s : State) :
    Memories s (l.foldl f s) := by
  induction l generalizing s with
  | nil => exact refl s
  | cons a l ih => exact (h s a).trans (ih _)

/-- Waves, groups and cores are the same. -/
theorem of_same {s t : State} (hw : t.waves = s.waves) (hg : t.groups = s.groups) (hc : t.cores = s.cores) : Memories s t :=
  ⟨hw, hg, fun c => by rw [State.core, hc]; rfl, fun c => by rw [State.core, hc]; rfl⟩

theorem ofPosts {s t : State} (h : Posts s t) : Memories s t := of_same h.waves h.groups h.cores

theorem ofTouches {s t : State} (h : Touches s t) : Memories s t := of_same (by rw [h.same]) (by rw [h.same]) (by rw [h.same])

theorem setCore (s : State) {k : Nat} {x : Core} (hl : x.locks = (s.core k).locks) (hz : x.zeroing = (s.core k).zeroing) :
    Memories s (s.setCore k x) := by
  refine ⟨rfl, rfl, fun c => ?_, fun c => ?_⟩ <;> rw [State.core_setCore] <;> split_ifs with h
  · rw [hl, h]
  · rfl
  · rw [hz, h]
  · rfl

theorem cure (s : State) (unit core a n : Nat) : Memories s (s.cure unit core a n) := by
  rw [State.cure_eq]
  exact of_same rfl rfl rfl

theorem cureHome (s : State) (pa n : Nat) : Memories s (s.cureHome pa n) := (cure s 7 0 pa n).trans (cure _ 8 0 pa n)

theorem postEarly (s : State) (d : Nat) (e : Event) : Memories s (s.postEarly d e) := by
  unfold State.postEarly
  split_ifs
  · exact refl s
  · exact of_same rfl rfl rfl

theorem charge (s : State) (c ev n : Nat) : Memories s (s.charge c ev n) := ofTouches (.charge s c ev n)

theorem writeBack (s : State) (l : L1Line) : Memories s (s.writeBack l) := by
  unfold State.writeBack
  dsimp only
  have h : Memories s { s.homeTouch l.ctx (128 * l.line) 128 true with
      hbm := l.flushTo (s.homeTouch l.ctx (128 * l.line) 128 true).hbm } := (ofTouches (.homeTouch _ _ _ _ _)).trans (of_same rfl rfl rfl)
  split_ifs
  · exact refl s
  · exact h
  · refine h.trans (foldl (fun s i => ?_) _ _)
    split_ifs
    · exact cureHome s _ _
    · exact refl s

theorem l1Clean (s : State) (core : Nat) (p : L1Line → Bool) : Memories s (s.l1Clean core p).1 := by
  unfold State.l1Clean
  dsimp only
  refine trans (foldl writeBack ((s.core core).l1.filter fun l => l.dirty != 0 && p l) s) ?_
  exact setCore _ rfl rfl

theorem l1Drop (s : State) (core : Nat) (p : L1Line → Bool) : Memories s (s.l1Drop core p) := setCore _ rfl rfl

theorem l1Put (s : State) (core : Nat) (l : L1Line) : Memories s (s.l1Put core l) := by
  unfold State.l1Put
  dsimp only
  split_ifs
  · exact setCore _ rfl rfl
  · split
    · exact setCore _ rfl rfl
    · refine trans ?_ (writeBack _ _)
      exact setCore _ rfl rfl

theorem l1Store (s : State) (core c pa exp : Nat) (x : List Byte) : Memories s (s.l1Store core c pa exp x) := by
  unfold State.l1Store
  dsimp only
  exact ((l1Put _ _ _).trans (cure _ _ _ _ _)).trans (postEarly _ _ _)

theorem setBuf_locks (k : Core) (b : Buf) (m : Memory) : (k.setBuf b m).locks = k.locks ∧ (k.setBuf b m).zeroing = k.zeroing := by
  cases b <;> exact ⟨rfl, rfl⟩

theorem bufWrite (s : State) (core : Nat) (b : Buf) (off : Nat) (x : List Byte) : Memories s (s.bufWrite core b off x) :=
  (setCore s (setBuf_locks _ _ _).1 (setBuf_locks _ _ _).2).trans (cure _ _ _ _ _)

theorem homeWrite (s : State) (c pa : Nat) (x : List Byte) : Memories s (s.homeWrite c pa x) := by
  have h : Memories s { s.homeTouch c pa x.length true with hbm := memWriteN (s.homeTouch c pa x.length true).hbm pa x } :=
    (ofTouches (.homeTouch s c pa x.length true)).trans (of_same rfl rfl rfl)
  exact h.trans (cureHome _ _ _)

theorem globWriteRun {s t : State} {c va : Nat} {x : List Byte} (h : s.globWriteRun c va x = .ok t) : Memories s t := by
  unfold State.globWriteRun at h
  dsimp only at h
  split at h
  · exact absurd h (by simp)
  · split_ifs at h
    · rw [← Except.ok.inj h]
      exact (ofTouches (.walkTouch s c va)).trans (of_same rfl rfl rfl)
    · rw [← Except.ok.inj h]
      exact (ofTouches (.walkTouch s c va)).trans (homeWrite _ _ _ _)

theorem globWrites {s t : State} {c : Nat} {l : List (Nat × List Byte)} (h : s.globWrites c l = .ok t) : Memories s t := by
  induction l generalizing s with
  | nil => rw [← Except.ok.inj h]; exact refl s
  | cons p l ih =>
    unfold State.globWrites at h
    split at h
    · exact absurd h (by simp)
    · next hr => exact (globWriteRun hr).trans (ih h)

theorem toRing (s : State) (ring : Option Nat) (part : Nat) (e : RingEntry) : Memories s (s.toRing ring part e) := by
  have h := s.toRing_got ring part e
  exact of_same (by rw [h.same]) (by rw [h.same]) (by rw [h.same])

theorem deviceFault (s : State) (c : Nat) (f : MemFault) (write : Bool) : Memories s (s.deviceFault c f write) := toRing _ _ _ _

theorem acquireOn (s : State) (core c kind obj : Nat) (extra : List (Nat × Nat)) : Memories s (s.acquireOn core c kind obj extra) := by
  unfold State.acquireOn
  dsimp only
  split_ifs
  · exact refl s
  · exact l1Drop _ _ _

theorem noteDeadlock (s : State) (core : Nat) : Memories s (s.noteDeadlock core) := by
  unfold State.noteDeadlock
  dsimp only
  split_ifs
  · split
    · exact refl s
    · exact (setCore s (k := core) (x := { s.core core with deadlockSince := some s.now }) rfl rfl).trans
        (ofPosts (State.posts_post _ _ _))
  · exact setCore _ rfl rfl

theorem freedOn (s : State) (core : Nat) : Memories s (s.freedOn core) :=
  (ofPosts (((((State.posts_qFell s core).trans (State.posts_poke _ _)).trans (State.posts_pokeQueues _)).trans
    (State.posts_pokeGatherer _)).trans (State.posts_pokeGate _ _))).trans (noteDeadlock _ _)

end Memories

/-! ### Groups stay where they are -/

/-- A group's context, its waves, its core and reservations, its phase and its stop requests. -/
def Group.outline (x : Group) : Nat × Nat × Nat × (Range × Range × Range × Range) × GroupPhase × Option Nat × Option Nat :=
  (x.ctx, x.waves, x.core, (x.rs, x.ra, x.rw, x.rc), x.phase, x.stopReq, x.forced)

theorem Group.outline_range {x y : Group} (h : y.outline = x.outline) (b : Buf) : y.range b = x.range b := by
  simp only [Group.outline, Prod.mk.injEq] at h
  obtain ⟨-, -, -, ⟨hs, ha, hw, hc⟩, -⟩ := h
  cases b <;> assumption

theorem Group.outline_core {x y : Group} (h : y.outline = x.outline) : y.core = x.core := congrArg (·.2.2.1) h
theorem Group.outline_ctx {x y : Group} (h : y.outline = x.outline) : y.ctx = x.ctx := congrArg (·.1) h
theorem Group.outline_waves {x y : Group} (h : y.outline = x.outline) : y.waves = x.waves := congrArg (·.2.1) h
theorem Group.outline_phase {x y : Group} (h : y.outline = x.outline) : y.phase = x.phase := congrArg (·.2.2.2.2.1) h
theorem Group.outline_stopReq {x y : Group} (h : y.outline = x.outline) : y.stopReq = x.stopReq := congrArg (·.2.2.2.2.2.1) h
theorem Group.outline_forced {x y : Group} (h : y.outline = x.outline) : y.forced = x.forced := congrArg (·.2.2.2.2.2.2) h

/-- No group moved, no lock bit was taken or released, and what is to be zeroed still is. -/
structure Calm (s t : State) : Prop where
  outline : ∀ g, (t.group g).outline = (s.group g).outline
  locks : ∀ c, (t.core c).locks = (s.core c).locks
  zeroing : ∀ c, ∀ z ∈ (s.core c).zeroing, z ∈ (t.core c).zeroing

namespace Calm

theorem refl (s : State) : Calm s s := ⟨fun _ => rfl, fun _ => rfl, fun _ _ => id⟩

theorem trans {s t u : State} (h : Calm s t) (k : Calm t u) : Calm s u :=
  ⟨fun g => (k.outline g).trans (h.outline g), fun c => (k.locks c).trans (h.locks c), fun c z hz => k.zeroing c z (h.zeroing c z hz)⟩

theorem foldl {α : Type} {f : State → α → State} (h : ∀ s a, Calm s (f s a)) (l : List α) (s : State) : Calm s (l.foldl f s) := by
  induction l generalizing s with
  | nil => exact refl s
  | cons a l ih => exact (h s a).trans (ih _)

theorem ofMemories {s t : State} (h : Memories s t) : Calm s t :=
  ⟨fun g => by rw [State.group, h.groups]; rfl, h.locks, fun c z hz => by rwa [h.zeroing]⟩

theorem ofPosts {s t : State} (h : Posts s t) : Calm s t := ofMemories (.ofPosts h)

theorem of_same {s t : State} (hg : t.groups = s.groups) (hc : t.cores = s.cores) : Calm s t :=
  ⟨fun g => by rw [State.group, hg]; rfl, fun c => by rw [State.core, hc]; rfl, fun c z hz => by rw [State.core, hc]; exact hz⟩

theorem setGroup (s : State) {g : Nat} {x : Group} (h : x.outline = (s.group g).outline) : Calm s (s.setGroup g x) := by
  refine ⟨fun j => ?_, fun _ => rfl, fun _ _ => id⟩
  rw [State.group_setGroup]
  split_ifs with hj
  · rw [h, hj]
  · rfl

theorem setCore (s : State) {k : Nat} {x : Core} (hl : x.locks = (s.core k).locks) (hz : ∀ z ∈ (s.core k).zeroing, z ∈ x.zeroing) :
    Calm s (s.setCore k x) := by
  refine ⟨fun _ => rfl, fun c => ?_, fun c z => ?_⟩ <;> rw [State.core_setCore] <;> split_ifs with h
  · rw [hl, h]
  · rfl
  · exact fun hm => hz z (h ▸ hm)
  · exact id

theorem setWave (s : State) (k : Nat) (w : Wave) : Calm s (s.setWave k w) := of_same rfl rfl

/-! #### Draining -/

theorem performStore (s : State) (core c k : Nat) (p : Place) (x : List Byte) : Calm s (s.performStore core c k p x) := by
  cases p with
  | phys pa exp => exact ofMemories (.l1Store s core c pa exp x)
  | buf b o => exact ofMemories (.bufWrite s core b o x)
  | host a => exact of_same rfl rfl

theorem presentStore (s : State) (k : Nat) (p : Place) (x : List Byte) (rest : List (Place × List Byte)) :
    Calm s (s.presentStore k p x rest) := by
  unfold State.presentStore
  dsimp only
  split_ifs
  · exact setWave _ _ _
  · exact (setWave s k _).trans (performStore _ _ _ _ _ _)

theorem drainFuel (s : State) (k n : Nat) : Calm s (s.drainFuel k n) := by
  induction n generalizing s with
  | zero => exact refl s
  | succ n ih =>
    unfold State.drainFuel
    dsimp only
    split
    · exact refl s
    · split_ifs
      · exact refl s
      · exact (presentStore _ _ _ _ _).trans (ih _)

theorem drainGroup (s : State) (g : Nat) : Calm s (s.drainGroup g) := foldl (fun s k => drainFuel s k _) _ s

/-! #### The heads of the engine queues -/

theorem fullHandle (s : State) (g h : Nat) (st : HStatus) : Calm s (s.fullHandle g h st) := by
  refine Calm.trans (t := s.putHandle g h { s.handle g h with st := { st with state := 2 }, work := .idle }) (setGroup s rfl) ?_
  unfold State.fullHandle
  dsimp only
  refine Calm.trans (of_same ?_ ?_) (ofPosts (State.posts_poke _ _)) <;> rw [State.progress_eq]

theorem landSlot (s : State) (o : EngineOp) : Calm s (s.landSlot o) := by
  unfold State.landSlot
  split
  · exact setCore _ rfl fun _ => id
  · exact refl s

theorem opEnded (s : State) (g : Nat) : Calm s (s.opEnded g) := by
  unfold State.opEnded
  dsimp only
  split_ifs
  · exact (ofPosts (State.posts_noteStop s g)).trans (ofPosts (State.posts_postOnce _ _ _))
  · exact ofPosts (State.posts_noteStop s g)

theorem setQueue (s : State) (cl e q : Nat) (l : List EngineOp) : Calm s (s.setQueue cl e q l) := of_same rfl rfl

theorem endOp (s : State) (cl e q : Nat) (o : EngineOp) (st : HStatus) : Calm s (s.endOp cl e q o st) := by
  unfold State.endOp
  dsimp only
  refine trans (trans (trans (trans ?_ (landSlot _ o)) (fullHandle _ _ _ _)) (ofPosts (State.posts_pokeEngines _ _))) (opEnded _ _)
  exact setQueue s cl e q _

theorem checkTargets (s : State) (cl e q : Nat) (o : EngineOp) : Calm s (s.checkTargets cl e q o) := by
  unfold State.checkTargets
  dsimp only
  split_ifs
  · exact setQueue _ _ _ _ _
  all_goals exact endOp _ _ _ _ _ _

theorem releaseHead (s : State) (g cl key : Nat) : Calm s (s.releaseHead g cl key) := by
  unfold State.releaseHead
  dsimp only
  split
  · exact refl s
  · next o t _ =>
    split_ifs
    · exact refl s
    · refine trans ?_ (ofPosts (State.posts_pokeEngines _ _))
      exact (setQueue s cl (key / 4) (key % 4) t).trans (setGroup _ rfl)
    · exact refl s
    · exact checkTargets _ _ _ _ _
    · exact refl s

theorem releaseHeads (s : State) (g : Nat) : Calm s (s.releaseHeads g) := foldl (fun s key => releaseHead s g _ key) _ s

end Calm

end Sys2Proof.Machine
end

section
/-! # Groups come to their stop (R53, R244, R250) -/

namespace Sys2Proof.Machine

/-! ### Waves that park, and waves that drop what they had begun -/

theorem Phase.still_park (p : Phase) (i : Nat) (h : p.still = true) : (p.park i).still = true := by
  cases p with
  | bar n k e => cases e with
    | none => exact absurd h (by simp [Phase.still])
    | some _ => exact h
  | lbar k e => cases e with
    | none => exact absurd h (by simp [Phase.still])
    | some _ => exact h
  | _ => exact h

/-- One wave parks, if it waits at a barrier with a liveness entry. -/
def State.parkWave (s : State) (g k : Nat) : State :=
  match s.entryAt g (s.wave k).barrierPc with
  | some i => s.setWave k { s.wave k with phase := (s.wave k).phase.park i }
  | none => s

theorem State.parkWaiting_eq (s : State) (g : Nat) :
    s.parkWaiting g = if s.holdsLock g then s else (s.wavesOf g).foldl (fun s k => s.parkWave g k) s := rfl

/-- From `s` to `t` waves may have parked. -/
structure Parks (s t : State) : Prop where
  same : t = { s with waves := t.waves }
  wave : ∀ k, ∃ p, t.wave k = { s.wave k with phase := p } ∧ ((s.wave k).phase.still = true → p.still = true) ∧
    ((s.wave k).phase = .run → p = .run)

namespace Parks

theorem refl (s : State) : Parks s s := ⟨rfl, fun _ => ⟨_, rfl, id, id⟩⟩

theorem trans {s t u : State} (h : Parks s t) (k : Parks t u) : Parks s u := by
  refine ⟨by rw [k.same, h.same], fun i => ?_⟩
  obtain ⟨p, hp, h1, h2⟩ := h.wave i
  obtain ⟨q, hq, k1, k2⟩ := k.wave i
  exact ⟨q, by rw [hq, hp], fun hs => k1 (by rw [hp]; exact h1 hs), fun hs => k2 (by rw [hp]; exact h2 hs)⟩

theorem foldl {α : Type} {f : State → α → State} (h : ∀ s a, Parks s (f s a)) (l : List α) (s : State) :
    Parks s (l.foldl f s) := by
  induction l generalizing s with
  | nil => exact refl s
  | cons a l ih => exact (h s a).trans (ih _)

theorem parkWave (s : State) (g k : Nat) : Parks s (s.parkWave g k) := by
  unfold State.parkWave
  split
  · next i _ =>
    refine ⟨rfl, fun j => ?_⟩
    rw [State.wave_setWave]
    split_ifs with hj
    · refine ⟨_, by rw [hj], fun h => ?_, fun h => ?_⟩
      · rw [hj] at h; exact (s.wave k).phase.still_park i h
      · rw [hj] at h; rw [h]; rfl
    · exact ⟨_, rfl, id, id⟩
  · exact refl s

theorem parkWaiting (s : State) (g : Nat) : Parks s (s.parkWaiting g) := by
  rw [State.parkWaiting_eq]
  split_ifs
  · exact refl s
  · exact foldl (fun s k => parkWave s g k) _ s

theorem groups {s t : State} (h : Parks s t) : t.groups = s.groups := by rw [h.same]
theorem group {s t : State} (h : Parks s t) (g : Nat) : t.group g = s.group g := by rw [h.same]; rfl
theorem wavesOf {s t : State} (h : Parks s t) (g : Nat) : t.wavesOf g = s.wavesOf g := by rw [h.same]; rfl

/-- A wave that runs is as it was. -/
theorem run {s t : State} (h : Parks s t) {k : Nat} (hk : (s.wave k).phase = .run) : t.wave k = s.wave k := by
  obtain ⟨p, hp, -, hrun⟩ := h.wave k
  rw [hp, hrun hk, ← hk]

end Parks

theorem State.groups_undo (s : State) (k : Nat) : (s.undo k).groups = s.groups := by rw [(s.dropped_undo k).same]

theorem State.groups_settleWaves (s : State) (g : Nat) : (s.settleWaves g).groups = s.groups := by
  have hone : ∀ s k, (State.settleWave s k).groups = s.groups := by
    intro s k
    unfold State.settleWave
    dsimp only
    split
    · split_ifs
      · rfl
      · exact s.groups_undo k
    · exact State.groups_undo _ k
    · rfl
  unfold State.settleWaves
  generalize s.wavesOf g = l
  induction l generalizing s with
  | nil => rfl
  | cons k l ih => rw [List.foldl_cons, ih, hone]

/-! ### Lock bits -/

theorem State.outline_saveLocks (s : State) (g j : Nat) : ((s.saveLocks g).group j).outline = (s.group j).outline := by
  unfold State.saveLocks
  dsimp only
  rw [State.group_setGroup]
  split_ifs with h
  · rw [h]; rfl
  · rfl

theorem State.locks_saveLocks (s : State) (g : Nat) {p : Nat × Nat} (hp : p ∈ ((s.saveLocks g).core (s.group g).core).locks.rows) :
    p.2 / 16 ≠ g := by
  have hcore : ((s.saveLocks g).core (s.group g).core).locks =
    ⟨(s.core (s.group g).core).locks.rows.filter fun p => p.2 / 16 != g⟩ := by
    show ((s.setCore _ _).core _).locks = _
    rw [State.core_setCore, if_pos rfl]
  rw [hcore] at hp
  simpa using (List.mem_filter.mp hp).2

/-! ### The folio is taken -/

/-- What a stop saves goes into the group's row and into its folio. -/
def State.saveFolio (u : State) (g kind : Nat) : State :=
  let x := u.group g
  let cbs := ((u.core x.core).cbs.rows.filter fun p => p.2.valid && p.2.owner == g)
  let v := u.setGroup g { x with
    savedCbs := cbs, savedTiles := u.tileWords g, images := allBufs.map fun b => (b, u.imageOf kind g b) }
  ((v.wavesOf g).foldl (fun s k => s.trimWave kind k) v).writeFolio kind g

theorem Calm.trimWave (s : State) (kind k : Nat) : Calm s (s.trimWave kind k) := setWave _ _ _

theorem Calm.writeFolio (s : State) (kind g : Nat) : Calm s (s.writeFolio kind g) := by
  unfold State.writeFolio
  dsimp only
  split
  · next t h => exact (ofMemories (.globWrites h)).trans (setGroup _ rfl)
  · next f _ =>
    have h := Memories.deviceFault s (s.group g).ctx f true
    exact (ofMemories h).trans (setGroup _ ((ofMemories h).outline g).symm)

theorem Calm.saveFolio (s : State) (g kind : Nat) : Calm s (s.saveFolio g kind) := by
  unfold State.saveFolio
  dsimp only
  refine trans (trans ?_ (foldl (fun s k => trimWave s kind k) _ _)) (writeFolio _ _ _)
  exact setGroup _ rfl

theorem Calm.startZeroing (s : State) (g : Nat) : Calm s (s.startZeroing g) := by
  unfold State.startZeroing
  dsimp only
  refine trans ?_ (ofPosts (State.posts_post _ _ _))
  exact setCore _ rfl fun z hz => List.mem_append_left _ hz

/-- The ranges of a group are to be zeroed. -/
theorem State.zeroing_startZeroing (s : State) (g : Nat) {b : Buf} (hb : ((s.group g).range b).size ≠ 0) :
    (g, b, (s.group g).range b) ∈ ((s.startZeroing g).core (s.group g).core).zeroing := by
  unfold State.startZeroing
  dsimp only
  rw [(State.posts_post _ _ _).core, State.core_setCore, if_pos rfl]
  refine List.mem_append_right _ (List.mem_map.mpr ⟨b, List.mem_filter.mpr ⟨by cases b <;> decide, ?_⟩, rfl⟩)
  simpa using hb

theorem Calm.releaseCbs (s : State) (g core : Nat) : Calm s (s.releaseCbs g core) := setCore _ rfl fun _ => id

/-- A group that has stopped: it waits for a new place. -/
def State.setStopped (s : State) (g kind : Nat) : State :=
  s.setGroup g { s.group g with phase := .stopped kind, stopReq := none, forced := none }

/-- The counts of a spill, and the units that look for room. -/
def State.afterStop (s : State) (kind ctx core : Nat) : State :=
  let s := if kind = 2 then
      let c := s.ctx ctx
      ((s.setCtx ctx { c with spills := c.spills + 1 }).charge ctx 0x0C 1).post 1 (.growDeadlockBreaker core)
    else s
  ((s.freedOn core).poke core).post 1 (.sliceExpiry core)

theorem Memories.afterStop (s : State) (kind ctx core : Nat) : Memories s (s.afterStop kind ctx core) := by
  unfold State.afterStop
  dsimp only
  refine trans (trans (trans ?_ (freedOn _ _)) (ofPosts (State.posts_poke _ _))) (ofPosts (State.posts_post _ _ _))
  split_ifs
  · refine trans ?_ (ofPosts (State.posts_post _ _ _))
    refine trans ?_ (charge _ _ _ _)
    exact of_same rfl rfl rfl
  · exact refl s

theorem State.takeFolio_eq (s : State) (g kind : Nat) : s.takeFolio g kind =
    let u := (s.l1Clean (s.group g).core fun _ => true).1.saveLocks g
    ((((u.saveFolio g kind).startZeroing g).releaseCbs g (u.group g).core).setStopped g kind).afterStop kind (u.group g).ctx
      (u.group g).core := rfl

/-- A group has come to its stop: its lock bits are released, and its ranges are to be zeroed. -/
structure Stopped (x : Group) (t : State) (g kind : Nat) : Prop where
  phase : (t.group g).phase = .stopped kind
  stopReq : (t.group g).stopReq = none
  forced : (t.group g).forced = none
  locks : ∀ p ∈ (t.core x.core).locks.rows, p.2 / 16 ≠ g
  zeroing : ∀ b, (x.range b).size ≠ 0 → (g, b, x.range b) ∈ (t.core x.core).zeroing

theorem State.afterStop_stopped {x : Group} {w : State} {g : Nat} (hlocks : ∀ p ∈ (w.core x.core).locks.rows, p.2 / 16 ≠ g)
    (hzero : ∀ b, (x.range b).size ≠ 0 → (g, b, x.range b) ∈ (w.core x.core).zeroing) (kind ctx core : Nat) :
    Stopped x ((w.setStopped g kind).afterStop kind ctx core) g kind := by
  have hmem := Memories.afterStop (w.setStopped g kind) kind ctx core
  generalize (w.setStopped g kind).afterStop kind ctx core = t at hmem ⊢
  have hgroup : t.group g = { w.group g with phase := .stopped kind, stopReq := none, forced := none } := by
    rw [State.group, hmem.groups]
    exact (State.group_setGroup _ _ _ _).trans (if_pos rfl)
  exact ⟨by rw [hgroup], by rw [hgroup], by rw [hgroup], by rw [hmem.locks]; exact hlocks, by rw [hmem.zeroing]; exact hzero⟩

theorem State.takeFolio_stopped {s : State} {g : Nat} {x : Group} (hx : (s.group g).outline = x.outline) (kind : Nat) :
    Stopped x (s.takeFolio g kind) g kind := by
  rw [State.takeFolio_eq]
  dsimp only
  have hclean : Memories s (s.l1Clean (s.group g).core fun _ => true).1 := .l1Clean s _ _
  generalize (s.l1Clean (s.group g).core fun _ => true).1 = r at hclean ⊢
  have hr : (r.group g).outline = x.outline := by rw [State.group, hclean.groups]; exact hx
  have hsave := Calm.saveFolio (r.saveLocks g) g kind
  have hv : (((r.saveLocks g).saveFolio g kind).group g).outline = x.outline :=
    ((hsave.outline g).trans (r.outline_saveLocks g g)).trans hr
  have hlocks := fun p => r.locks_saveLocks g (p := p)
  rw [Group.outline_core hr, ← hsave.locks] at hlocks
  generalize (r.saveLocks g).saveFolio g kind = v at hv hlocks ⊢
  have hzero := fun b => v.zeroing_startZeroing g (b := b)
  have hstart := Calm.startZeroing v g
  have hcbs := Calm.releaseCbs (v.startZeroing g) g ((r.saveLocks g).group g).core
  refine State.afterStop_stopped ?_ (fun b hb => ?_) _ _ _
  · rw [hcbs.locks, hstart.locks]
    exact hlocks
  · rw [← Group.outline_range hv b] at hb ⊢
    rw [← Group.outline_core hv]
    exact hcbs.zeroing _ _ (hzero b hb)

/-! ### A restore is given up -/

theorem State.abandonRestore_spec (s : State) (g kind : Nat) :
    ((s.abandonRestore g kind).group g).phase = .stopped kind ∧ ((s.abandonRestore g kind).group g).images = (s.group g).images := by
  have hmem : Memories ((s.startZeroing g).setStopped g kind) (s.abandonRestore g kind) :=
    (Memories.freedOn _ _).trans (.ofPosts (State.posts_post _ _ _))
  have hgroup : (s.abandonRestore g kind).group g = { s.group g with phase := .stopped kind, stopReq := none, forced := none } := by
    rw [State.group, hmem.groups]
    exact (State.group_setGroup _ _ _ _).trans (if_pos rfl)
  rw [hgroup]
  exact ⟨rfl, rfl⟩

/-! ### GROUP_STOP -/

section
variable {g : Nat} {s : State}

theorem groupStop_idle (hs : (s.group g).stopReq = none) (hf : (s.group g).forced = none) : exec (.groupStop g) s = .next s := by
  refine if_pos ?_
  rw [hs, hf]
  rfl

theorem groupStop_restoring {kind : Nat} (hp : (s.group g).phase = .restoring kind)
    (h : (s.group g).stopReq ≠ none ∨ (s.group g).forced ≠ none) : exec (.groupStop g) s = .next (s.abandonRestore g kind) := by
  show execGroupStop g s = _
  unfold execGroupStop
  dsimp only
  rw [if_neg (by simp only [Bool.and_eq_true, Option.isNone_iff_eq_none]; tauto), hp]

/-- A group that is asked to stop. -/
theorem groupStop_asked (hp : (s.group g).phase = .resident) (hs : (s.group g).stopReq ≠ none) (hf : (s.group g).forced = none) :
    exec (.groupStop g) s =
      let u := s.parkWaiting g
      if !((u.wavesOf g).all fun k => (u.wave k).phase.still) then .next u
      else
        let v := ((u.settleWaves g).drainGroup g).releaseHeads g
        if v.groupQuiet g then .next (v.takeFolio g 0) else .next (v.postOnce 64 (.groupStop g)) := by
  show execGroupStop g s = _
  unfold execGroupStop
  dsimp only
  rw [if_neg (by simp [Option.isNone_iff_eq_none, hs]), hp, hf]
  simp

/-- A group that is stopped where it stands. -/
theorem groupStop_forced {kind : Nat} (hp : (s.group g).phase = .resident) (hf : (s.group g).forced = some kind) :
    exec (.groupStop g) s =
      let v := (((s.settleWaves g).saveLocks g).drainGroup g).releaseHeads g
      if v.groupQuiet g then .next (v.takeFolio g kind) else .next (v.postOnce 64 (.groupStop g)) := by
  show execGroupStop g s = _
  unfold execGroupStop
  dsimp only
  rw [if_neg (by simp [hf]), hp, hf]
  simp

theorem groupStop_waits (hp : (s.group g).phase = .resident) (hs : (s.group g).stopReq ≠ none) (hf : (s.group g).forced = none)
    (hrun : ∃ k ∈ s.wavesOf g, (s.wave k).phase = .run) : ∃ t, exec (.groupStop g) s = .next t ∧ t.groups = s.groups ∧
      ∀ k, (t.wave k).dx = (s.wave k).dx ∧ (t.wave k).file = (s.wave k).file := by
  have hparks := Parks.parkWaiting s g
  refine ⟨s.parkWaiting g, ?_, hparks.groups, fun k => ?_⟩
  · rw [groupStop_asked hp hs hf]
    refine if_pos ?_
    obtain ⟨k, hk, hkrun⟩ := hrun
    rw [Bool.not_eq_true', List.all_eq_false]
    refine ⟨k, by rw [hparks.wavesOf]; exact hk, ?_⟩
    rw [hparks.run hkrun, hkrun]
    simp [Phase.still]
  · obtain ⟨p, hp, -⟩ := hparks.wave k
    rw [hp]
    exact ⟨rfl, rfl⟩

theorem groupStop_stops (hp : (s.group g).phase = .resident) (hs : (s.group g).stopReq ≠ none) (hf : (s.group g).forced = none)
    (hstill : Claims.AllStill s g) (hq : ((((s.parkWaiting g).settleWaves g).drainGroup g).releaseHeads g).groupQuiet g = true) :
    ∃ t, exec (.groupStop g) s = .next t ∧ Stopped (s.group g) t g 0 := by
  have hparks := Parks.parkWaiting s g
  refine ⟨_, ?_, State.takeFolio_stopped (s := (((s.parkWaiting g).settleWaves g).drainGroup g).releaseHeads g) ?_ 0⟩
  · rw [groupStop_asked hp hs hf]
    dsimp only
    rw [if_neg, if_pos hq]
    rw [Bool.not_eq_true', Bool.not_eq_false, List.all_eq_true]
    intro k hk
    rw [hparks.wavesOf] at hk
    obtain ⟨p, hp, hpstill, -⟩ := hparks.wave k
    rw [hp]
    exact hpstill (hstill k hk)
  · rw [((Calm.drainGroup _ _).trans (Calm.releaseHeads _ _)).outline, State.group, State.groups_settleWaves, hparks.groups]
    rfl

theorem groupStop_stops_forced {kind : Nat} (hp : (s.group g).phase = .resident) (hf : (s.group g).forced = some kind)
    (hq : ((((s.settleWaves g).saveLocks g).drainGroup g).releaseHeads g).groupQuiet g = true) :
    ∃ t, exec (.groupStop g) s = .next t ∧ Stopped (s.group g) t g kind := by
  refine ⟨_, by rw [groupStop_forced hp hf]; exact if_pos hq, State.takeFolio_stopped ?_ kind⟩
  rw [((Calm.drainGroup _ _).trans (Calm.releaseHeads _ _)).outline, State.outline_saveLocks, State.group, State.groups_settleWaves]
  rfl

end

end Sys2Proof.Machine
end

section
/-! # A placed group resumes (R250) -/

namespace Sys2Proof.Machine

/-- Waves and groups are as they were. -/
structure Elsewhere (s t : State) : Prop where
  waves : t.waves = s.waves
  groups : t.groups = s.groups

namespace Elsewhere

theorem refl (s : State) : Elsewhere s s := ⟨rfl, rfl⟩
theorem trans {s t u : State} (h : Elsewhere s t) (k : Elsewhere t u) : Elsewhere s u :=
  ⟨k.waves.trans h.waves, k.groups.trans h.groups⟩
theorem foldl {α : Type} {f : State → α → State} (h : ∀ s a, Elsewhere s (f s a)) (l : List α) (s : State) :
    Elsewhere s (l.foldl f s) := by
  induction l generalizing s with
  | nil => exact refl s
  | cons a l ih => exact (h s a).trans (ih _)
theorem ofMemories {s t : State} (h : Memories s t) : Elsewhere s t := ⟨h.waves, h.groups⟩
theorem ofPosts {s t : State} (h : Posts s t) : Elsewhere s t := ⟨h.waves, h.groups⟩
theorem wave {s t : State} (h : Elsewhere s t) (k : Nat) : t.wave k = s.wave k := by rw [State.wave, h.waves]; rfl
theorem group {s t : State} (h : Elsewhere s t) (g : Nat) : t.group g = s.group g := by rw [State.group, h.groups]; rfl

end Elsewhere

/-! ### Reading the folio back -/

/-- The wave has done its PREDONE. -/
def Phase.predoned : Phase → Bool
  | .predone _ => true
  | _ => false

/-- What a wave stands for, as far as a restore goes: a verdict, or the end of its PREDONE. -/
def Phase.stance (p : Phase) : Bool × Bool := (p.awaits, p.predoned)

theorem Phase.stance_read (code entry ticket : Nat) (p : Phase) : (p.read code entry ticket).stance = p.stance := by
  cases p <;> simp only [Phase.read] <;> split_ifs <;> rfl

theorem Group.waves_readSets (x : Group) (b : List Byte) : (x.readSets b).waves = x.waves := rfl
theorem Group.waves_readObjects (x : Group) (b : List Byte) : (x.readObjects b).waves = x.waves := rfl
theorem Group.waves_readTiles (x : Group) (b : List Byte) : (x.readTiles b).waves = x.waves := rfl
theorem Group.waves_readLatch (x : Group) (b : List Byte) : { x with latch := b.take x.latch.length }.waves = x.waves := rfl

/-- The number of a group's waves, as a fact about the row that does not take it apart. -/
def Group.Counts (x : Group) (n : Nat) : Prop := x.waves = n

/-- From `s` to `t` waves were read from a folio, and group `g` with them. -/
structure Loads (s t : State) (g : Nat) : Prop where
  stance : ∀ k, (t.wave k).phase.stance = (s.wave k).phase.stance
  waves : (t.group g).waves = (s.group g).waves

namespace Loads

theorem refl (s : State) (g : Nat) : Loads s s g := ⟨fun _ => rfl, rfl⟩
theorem trans {s t u : State} {g : Nat} (h : Loads s t g) (k : Loads t u g) : Loads s u g :=
  ⟨fun i => (k.stance i).trans (h.stance i), k.waves.trans h.waves⟩
theorem foldl {α : Type} {f : State → α → State} {g : Nat} (h : ∀ s a, Loads s (f s a) g) (l : List α) (s : State) :
    Loads s (l.foldl f s) g := by
  induction l generalizing s with
  | nil => exact refl s g
  | cons a l ih => exact (h s a).trans (ih _)
theorem ofElsewhere {s t : State} (h : Elsewhere s t) (g : Nat) : Loads s t g := ⟨fun k => by rw [h.wave], by rw [h.group]⟩

theorem setWave {s : State} {k : Nat} {w : Wave} (h : w.phase.stance = (s.wave k).phase.stance) (g : Nat) : Loads s (s.setWave k w) g := by
  refine ⟨fun j => ?_, rfl⟩
  rw [State.wave_setWave]
  split_ifs with hj
  · rw [h, hj]
  · rfl

theorem folioTouch (s : State) (kind g : Nat) : Loads s (s.folioTouch kind g) g := by
  unfold State.folioTouch
  split_ifs
  · exact ofElsewhere (.ofMemories (.ofTouches (.foldl (fun s p => Touches.globTouch s _ _ _) _ s))) g
  · exact refl s g

theorem loadImages (s : State) (kind g : Nat) : Loads s (s.loadImages kind g) g := by
  unfold State.loadImages
  refine ofElsewhere (.foldl ?_ _ s) g
  exact fun _ _ => ⟨rfl, rfl⟩

theorem readRegs_phase (s : State) (base : Nat) (w : Wave) : (s.readRegs base w).phase = w.phase := by
  unfold State.readRegs
  dsimp only
  split <;> rfl

theorem readWave (s : State) (base k g : Nat) : Loads s (s.readWave base k) g := by
  refine setWave ?_ g
  rw [readRegs_phase]
  split
  · exact Phase.stance_read _ _ _ _
  · rfl

theorem loadWaves (s : State) (g : Nat) : Loads s (s.loadWaves g) g := by
  unfold State.loadWaves
  split_ifs
  · exact foldl (fun s k => readWave s _ k g) _ s
  · exact refl s g

/-- Reading the parts of a group's row leaves its number of waves. -/
theorem counts_readParts {read : Nat → Nat → (Group → List Byte → Group) → Group → Group} {n : Nat}
    (hread : ∀ k a f x, (∀ b, (f x b).waves = x.waves) → x.Counts n → (read k a f x).Counts n)
      {x x1 x2 x3 x4 : Group} (hx : x.Counts n)
    (h1 : x1 = read 1 0 Group.readSets x) (h2 : x2 = read 16 0x48000 Group.readObjects x1) (h3 : x3 = read 1 0x4B000 Group.readTiles x2)
    (h4 : x4 = if x3.gathers = 0 then x3
      else read ((x3.latch.length + 127) / 128) 0x4C000 (fun x b => { x with latch := b.take x.latch.length }) x3) : x4.Counts n := by
  have hx3 : x3.Counts n := by
    rw [h3, h2, h1]
    exact hread _ _ _ _ (Group.waves_readTiles _)
      (hread _ _ _ _ (Group.waves_readObjects _) (hread _ _ _ _ (Group.waves_readSets _) hx))
  rw [h4]
  split_ifs
  · exact hx3
  · exact hread _ _ _ _ (Group.waves_readLatch x3) hx3

theorem loadGroup (s : State) (g : Nat) : Loads s (s.loadGroup g) g := by
  unfold State.loadGroup
  extract_lets x0 base read x1 x2 x3 x4
  have hread : ∀ k a (f : Group → List Byte → Group) (x : Group), (∀ b, (f x b).waves = x.waves) →
      x.Counts (s.group g).waves → (read k a f x).Counts (s.group g).waves := by
    intro n a f x hf hx
    simp only [read]
    split
    · exact (hf _).trans hx
    · exact hx
  have h4 : x4.Counts (s.group g).waves :=
    counts_readParts hread (x := x0) rfl (x1 := x1) rfl (x2 := x2) (by simp only [x2])
    (x3 := x3) (by simp only [x3]) (by simp only [x4])
  have hset : ∀ x : Group, x.Counts (s.group g).waves → Loads s (s.setGroup g { x with
      spineIn := x.spineIn.map (s.readSpine x.ctx (base + 0x49000))
      spineOut := x.spineOut.map (s.readSpine x.ctx (base + 0x50000)) }) g :=
    fun x hx => ⟨fun _ => rfl, by rw [State.group_setGroup, if_pos rfl]; exact hx⟩
  split_ifs
  · exact refl s g
  · exact hset x4 h4

end Loads

/-- The group is resident, its folio spent. -/
def State.setResident (s : State) (g : Nat) : State :=
  s.setGroup g { s.group g with
    phase := .resident, savedLocks := [], withdrawn := [], savedCbs := [], savedTiles := [], images := [], spineIn := none
    spineOut := none }

theorem Elsewhere.setCore (s : State) (c : Nat) (k : Core) : Elsewhere s (s.setCore c k) := ⟨rfl, rfl⟩

theorem Elsewhere.cureMeta (s : State) (core t : Nat) : Elsewhere s (s.cureMeta core t) := by
  unfold State.cureMeta
  split_ifs
  · exact refl s
  · exact ⟨rfl, rfl⟩

theorem Elsewhere.setSpine (s : State) (n : Nat) (f : Spine) : Elsewhere s (s.setSpine n f) := ⟨rfl, rfl⟩

/-- The withdrawn operations go back to the ends of their queues. -/
theorem Elsewhere.requeue (s : State) (cl : Nat) (l : List (Nat × EngineOp)) : Elsewhere s (l.foldl (fun s p =>
    s.setQueue cl (p.1 / 4) (p.1 % 4) (s.queueOf cl (p.1 / 4) (p.1 % 4) ++ [p.2])) s) := by
  refine .foldl ?_ l s
  exact fun _ _ => ⟨rfl, rfl⟩

/-- The waves' recipes take new numbers. -/
structure Renumbered (s t : State) : Prop where
  groups : t.groups = s.groups
  phase : ∀ k, (t.wave k).phase = (s.wave k).phase

theorem State.renumber_renumbered (s : State) (g : Nat) : Renumbered s (s.renumber g) := by
  have hfold : ∀ (f : State × List Nat → Nat → State × List Nat),
      (∀ u k, Renumbered u.1 (f u k).1) → ∀ (l : List Nat) (u : State × List Nat), Renumbered u.1 (l.foldl f u).1 := by
    intro f hf l
    induction l with
    | nil => exact fun u => ⟨rfl, fun _ => rfl⟩
    | cons k l ih =>
      intro u
      obtain ⟨h1, h2⟩ := hf u k
      obtain ⟨h3, h4⟩ := ih (f u k)
      exact ⟨h3.trans h1, fun j => (h4 j).trans (h2 j)⟩
  unfold State.renumber
  refine hfold _ ?_ _ (s, _)
  refine fun u k => ⟨rfl, fun j => ?_⟩
  rw [State.wave_setWave]
  split_ifs with h
  · rw [h]
  · rfl

/-- A group whose folio was put into its core. -/
structure Refilled (s t : State) (g : Nat) : Prop where
  stance : ∀ k, (t.wave k).phase.stance = (s.wave k).phase.stance
  waves : (t.group g).waves = (s.group g).waves
  phase : (t.group g).phase = .resident
  savedLocks : (t.group g).savedLocks = []
  withdrawn : (t.group g).withdrawn = []

theorem State.setResident_refilled {s d : State} {g : Nat} (h : Loads s d g) (cl : Nat) :
    Refilled s (((d.setResident g).renumber g).pokeEngines cl) g := by
  have hren := (d.setResident g).renumber_renumbered g
  have hgroup : ((d.setResident g).renumber g).group g = { d.group g with
      phase := .resident, savedLocks := [], withdrawn := [], savedCbs := [], savedTiles := [], images := [], spineIn := none
      spineOut := none } := by
    rw [State.group, hren.groups]
    exact (State.group_setGroup _ _ _ _).trans (if_pos rfl)
  have hg := Posts.group (State.posts_pokeEngines ((d.setResident g).renumber g) cl) g
  rw [hgroup] at hg
  refine ⟨fun k => ?_, by rw [hg]; exact h.waves, by rw [hg], by rw [hg], by rw [hg]⟩
  rw [(State.posts_pokeEngines _ _).wave, hren.phase]
  exact h.stance k

theorem State.putFolio_refilled (s : State) (g kind : Nat) : Refilled s (s.putFolio g kind) g := by
  unfold State.putFolio
  extract_lets core cl u v x k filled a b c d spent
  have hu : Loads s u g := .ofElsewhere (.ofMemories ((Memories.l1Clean s _ _).trans (Memories.l1Drop _ _ _))) g
  have hv : Loads u v g := ((Loads.folioTouch u kind g).trans (.loadImages _ kind g)).trans ((Loads.loadWaves _ g).trans (.loadGroup _ g))
  have ha : Elsewhere v a := Elsewhere.trans (.setCore v x.core filled) (.foldl (fun s p => .cureMeta s _ _) _ _)
  have hb : Elsewhere a b := by
    simp only [b]
    split
    · exact .setSpine a _ _
    · exact .refl a
  have hc : Elsewhere b c := by
    simp only [c]
    split
    · exact .setSpine b _ _
    · exact .refl b
  have hd : Elsewhere c d := .requeue c cl x.withdrawn
  exact State.setResident_refilled ((hu.trans hv).trans (.ofElsewhere (ha.trans (hb.trans (hc.trans hd))) g)) cl

/-! ### The waves resume -/

/-- One wave of a restored group resumes, no verdict awaited. -/
theorem State.resumeWave_spec {s : State} {k : Nat} (h : (s.wave k).phase.awaits = false) :
    (s.resumeWave k).groups = s.groups ∧ (∀ j, j ≠ k → (s.resumeWave k).wave j = s.wave j) ∧
      ((s.resumeWave k).wave k).phase.awaits = false ∧
      ((s.wave k).phase.predoned = true ∨ (s.wave k).phase = .run → ((s.resumeWave k).wave k).phase = .run) := by
  have hset : ∀ w : Wave, w.phase.awaits = false → ((s.wave k).phase.predoned = true ∨ (s.wave k).phase = .run → w.phase = .run) →
      (s.setWave k w).groups = s.groups ∧ (∀ j, j ≠ k → (s.setWave k w).wave j = s.wave j) ∧
        ((s.setWave k w).wave k).phase.awaits = false ∧
        ((s.wave k).phase.predoned = true ∨ (s.wave k).phase = .run → ((s.setWave k w).wave k).phase = .run) := by
    intro w ha hr
    rw [State.wave_setWave, if_pos rfl]
    exact ⟨rfl, fun j hj => by rw [State.wave_setWave, if_neg hj], ha, hr⟩
  have hsame : ((s.wave k).phase.predoned = true ∨ (s.wave k).phase = .run → (s.wave k).phase = .run) →
      s.groups = s.groups ∧ (∀ j, j ≠ k → s.wave j = s.wave j) ∧ (s.wave k).phase.awaits = false ∧
        ((s.wave k).phase.predoned = true ∨ (s.wave k).phase = .run → (s.wave k).phase = .run) :=
    fun hr => ⟨rfl, fun _ _ => rfl, h, hr⟩
  unfold State.resumeWave
  dsimp only
  split
  · next hp =>
    rw [hp] at hset hsame
    split_ifs
    · exact hp ▸ hsame (by simp [Phase.predoned])
    · exact hp ▸ hset _ rfl (by simp [Phase.predoned])
  · next hp =>
    rw [hp] at hset hsame
    split_ifs
    · exact hp ▸ hsame (by simp [Phase.predoned])
    · exact hp ▸ hset _ rfl (by simp [Phase.predoned])
  · exact hset _ rfl fun _ => rfl
  · next hp => rw [hp] at h; exact absurd h (by simp [Phase.awaits])
  · next hp => exact hset _ (by rw [← h]) fun _ => hp
  · next hp1 hp2 hp3 hp4 hp5 =>
    refine hsame fun hr => hr.elim (fun hr => ?_) id
    cases hph : (s.wave k).phase with
    | predone e => exact absurd hph (hp3 e)
    | _ => exact absurd hr (by simp [hph, Phase.predoned])

theorem State.resumeWaves_spec {s : State} {l : List Nat} (h : ∀ k ∈ l, (s.wave k).phase.awaits = false) :
    (l.foldl (fun s k => s.resumeWave k) s).groups = s.groups ∧
      ∀ k, ((k ∈ l ∧ (s.wave k).phase.predoned = true) ∨ (s.wave k).phase = .run) →
        ((l.foldl (fun s k => s.resumeWave k) s).wave k).phase = .run := by
  induction l generalizing s with
  | nil => exact ⟨rfl, fun k hk => hk.elim (fun h => absurd h.1 (by simp)) id⟩
  | cons j l ih =>
    obtain ⟨hg, hothers, hawait, hrun⟩ := State.resumeWave_spec (h j List.mem_cons_self)
    have hl : ∀ k ∈ l, ((s.resumeWave j).wave k).phase.awaits = false := by
      intro k hk
      by_cases e : k = j
      · rw [e]; exact hawait
      · rw [hothers k e]; exact h k (List.mem_cons_of_mem _ hk)
    obtain ⟨ig, iw⟩ := ih hl
    refine ⟨ig.trans hg, fun k hk => iw k ?_⟩
    by_cases e : k = j
    · subst e
      exact .inr (hrun (hk.imp (·.2) id))
    · rw [hothers k e]
      exact hk.imp (fun h => ⟨(List.mem_cons.mp h.1).resolve_left e, h.2⟩) id

theorem Elsewhere.restoreAcquire (s : State) (k : Nat) : Elsewhere s (s.restoreAcquire k) := by
  unfold State.restoreAcquire
  dsimp only
  split_ifs
  · exact refl s
  · split
    · exact ofMemories (.acquireOn _ _ _ _ _ _)
    · exact ofMemories (.acquireOn _ _ _ _ _ _)
    · exact refl s

/-! ### GROUP_RESTORE -/

section
variable {g kind : Nat} {s : State} (hp : (s.group g).phase = .restoring kind)
include hp

theorem groupRestore_gives_up (h : (s.group g).stopReq ≠ none ∨ (s.group g).forced ≠ none) :
    exec (.groupRestore g) s = .next (s.abandonRestore g kind) := by
  show execGroupRestore g s = _
  unfold execGroupRestore
  dsimp only
  rw [hp]
  refine if_pos ?_
  simpa [Option.isSome_iff_ne_none] using h

variable (hs : (s.group g).stopReq = none) (hf : (s.group g).forced = none)
include hs hf

theorem groupRestore_waits (hc : s.canRestore g = false) : exec (.groupRestore g) s = .next (s.postOnce 64 (.groupRestore g)) := by
  show execGroupRestore g s = _
  unfold execGroupRestore
  dsimp only
  rw [hp, hs, hf, hc]
  rfl

theorem groupRestore_goes_on (hc : s.canRestore g = true) : exec (.groupRestore g) s =
    let u := s.putFolio g kind
    let done := (u.wavesOf g).filter u.barrierDone
    let v := done.foldl (fun s k => s.restoreAcquire k) u
    let w := (v.wavesOf g).foldl (fun s k => s.resumeWave k) v
    let w := if done.isEmpty then w else (w.raiseRestored g).postOnce 0 .startEventAdmission
    .next (((w.postOnce 0 (.growGrant (s.group g).core)).poke (s.group g).core).noteDeadlock (s.group g).core) := by
  show execGroupRestore g s = _
  unfold execGroupRestore
  dsimp only
  rw [hp, hs, hf, hc]
  rfl

theorem groupRestore_resumes (hc : s.canRestore g = true) (hv : ∀ k ∈ s.wavesOf g, ∀ n, (s.wave k).phase ≠ .verdict n) :
    ∃ t, exec (.groupRestore g) s = .next t ∧ (t.group g).phase = .resident ∧ (t.group g).savedLocks = [] ∧
      (t.group g).withdrawn = [] ∧ ∀ k ∈ s.wavesOf g, ∀ e, (s.wave k).phase = .predone e → (t.wave k).phase = .run := by
  refine ⟨_, groupRestore_goes_on hp hs hf hc, ?_⟩
  obtain ⟨hstance, hwaves, hphase, hlocks, hwithdrawn⟩ := s.putFolio_refilled g kind
  generalize s.putFolio g kind = u at hstance hwaves hphase hlocks hwithdrawn ⊢
  have hacq := Elsewhere.foldl Elsewhere.restoreAcquire ((u.wavesOf g).filter u.barrierDone) u
  generalize ((u.wavesOf g).filter u.barrierDone).isEmpty = noneDone
  generalize ((u.wavesOf g).filter u.barrierDone).foldl (fun s k => s.restoreAcquire k) u = v at hacq ⊢
  have hof : v.wavesOf g = s.wavesOf g := by rw [State.wavesOf, State.wavesOf, hacq.group, hwaves]
  have hawait : ∀ k ∈ v.wavesOf g, (v.wave k).phase.awaits = false := by
    intro k hk
    rw [hof] at hk
    rw [hacq.wave, show (u.wave k).phase.awaits = (s.wave k).phase.awaits from congrArg (·.1) (hstance k)]
    cases hph : (s.wave k).phase with
    | verdict n => exact absurd hph (hv k hk n)
    | _ => rfl
  obtain ⟨hg, hrun⟩ := State.resumeWaves_spec hawait
  generalize (v.wavesOf g).foldl (fun s k => s.resumeWave k) v = w at hg hrun ⊢
  have hraise : Elsewhere w (if noneDone then w else (w.raiseRestored g).postOnce 0 .startEventAdmission) := by
    cases noneDone
    · exact Elsewhere.trans (t := w.raiseRestored g) ⟨rfl, rfl⟩ (.ofPosts (State.posts_postOnce _ _ _))
    · exact .refl w
  generalize (if noneDone then w else (w.raiseRestored g).postOnce 0 .startEventAdmission) = r at hraise ⊢
  have hend := hraise.trans (((Elsewhere.ofPosts (State.posts_postOnce r 0 (.growGrant (s.group g).core))).trans
    (.ofPosts (State.posts_poke _ (s.group g).core))).trans (.ofMemories (.noteDeadlock _ (s.group g).core)))
  have hgroup : ∀ {t : State}, Elsewhere w t → t.group g = u.group g := fun h => by
    rw [h.group, State.group, hg, hacq.groups]; rfl
  rw [hgroup hend]
  refine ⟨hphase, hlocks, hwithdrawn, fun k hk e he => ?_⟩
  rw [hend.wave]
  refine hrun k (.inl ⟨by rw [hof]; exact hk, ?_⟩)
  rw [hacq.wave, show (u.wave k).phase.predoned = (s.wave k).phase.predoned from congrArg (·.2) (hstance k), he]
  rfl

end

end Sys2Proof.Machine
end

section
/-! # The time limits of a stop request (R246) -/

namespace Sys2Proof.Machine

/-! ### Arrivals that are withdrawn -/

/-- From row `x` to row `y` of a group, arrivals at its barriers were withdrawn. -/
structure Group.Withdraws (x y : Group) : Prop where
  ep : y.ep = x.ep
  ctx : y.ctx = x.ctx
  k : ∀ n, (y.set n).k = (x.set n).k
  arrived : ∀ n i, (x.set n).arrived.getLsbD i = false → (y.set n).arrived.getLsbD i = false

namespace Group.Withdraws

theorem refl (x : Group) : x.Withdraws x := ⟨rfl, rfl, fun _ => rfl, fun _ _ => id⟩
theorem trans {x y z : Group} (h : x.Withdraws y) (k : y.Withdraws z) : x.Withdraws z :=
  ⟨k.ep.trans h.ep, k.ctx.trans h.ctx, fun n => (k.k n).trans (h.k n), fun n i hi => k.arrived n i (h.arrived n i hi)⟩

theorem putSet (x : Group) (n : Nat) {m : MSet} (hk : m.k = (x.set n).k)
    (ha : ∀ i, (x.set n).arrived.getLsbD i = false → m.arrived.getLsbD i = false) : x.Withdraws (x.putSet n m) := by
  have hset : ∀ j, (x.putSet n m).set j = if j = n then m else x.set j := fun j => Tab.getD_set _ _ _ _ _
  refine ⟨rfl, rfl, fun j => ?_, fun j i hi => ?_⟩
  · rw [hset]
    split_ifs with h
    · rw [hk, h]
    · rfl
  · rw [hset]
    split_ifs with h
    · exact ha i (by rw [← h]; exact hi)
    · exact hi

end Group.Withdraws

/-- From `s` to `t` only wave `k` changed of the waves, and arrivals were withdrawn. -/
structure Spares (s t : State) (k : Nat) : Prop where
  waves : ∀ j, j ≠ k → t.wave j = s.wave j
  groups : ∀ g, (s.group g).Withdraws (t.group g)

namespace Spares

theorem refl (s : State) (k : Nat) : Spares s s k := ⟨fun _ _ => rfl, fun _ => .refl _⟩
theorem trans {s t u : State} {k : Nat} (h : Spares s t k) (l : Spares t u k) : Spares s u k :=
  ⟨fun j hj => (l.waves j hj).trans (h.waves j hj), fun g => (h.groups g).trans (l.groups g)⟩
theorem ofElsewhere {s t : State} (h : Elsewhere s t) (k : Nat) : Spares s t k :=
  ⟨fun j _ => h.wave j, fun g => by rw [h.group]; exact .refl _⟩
theorem ofPosts {s t : State} (h : Posts s t) (k : Nat) : Spares s t k := ofElsewhere (.ofPosts h) k

theorem setWave (s : State) (k : Nat) (w : Wave) : Spares s (s.setWave k w) k :=
  ⟨fun j hj => by rw [State.wave_setWave, if_neg hj], fun _ => .refl _⟩

theorem setGroup {s : State} {g : Nat} {x : Group} (h : (s.group g).Withdraws x) (k : Nat) : Spares s (s.setGroup g x) k := by
  refine ⟨fun _ _ => rfl, fun j => ?_⟩
  rw [State.group_setGroup]
  split_ifs with hj
  · rw [hj]; exact h
  · exact .refl _

theorem setLaunch (s : State) (l : Nat) (x : Launch) (k : Nat) : Spares s (s.setLaunch l x) k := 
  ofElsewhere (s := s) (t := s.setLaunch l x) ⟨rfl, rfl⟩ k

theorem undo (s : State) (k : Nat) : Spares s (s.undo k) k := by
  have hd := s.dropped_undo k
  exact ⟨fun j hj => by rw [hd.wave, if_neg hj], fun g => by rw [State.group, hd.same]; exact .refl _⟩

theorem freeze (s : State) (g k : Nat) : Spares s (s.freeze g) k := by
  unfold State.freeze
  dsimp only
  refine trans (t := s.setCore _ _) (ofElsewhere (.setCore _ _ _) k) (setGroup ?_ k)
  exact ⟨rfl, rfl, fun _ => rfl, fun _ _ => id⟩

theorem charge (s : State) (c ev n k : Nat) : Spares s (s.charge c ev n) k := by
  rw [State.charge_eq]
  exact ⟨fun _ _ => rfl, fun _ => .refl _⟩

theorem toRing (s : State) (ring : Option Nat) (part : Nat) (e : RingEntry) (k : Nat) : Spares s (s.toRing ring part e) k := by
  have h := (s.toRing_got ring part e).same
  refine ofElsewhere ⟨?_, ?_⟩ k <;> rw [h]

theorem reflect (u : State) (k tepc : Nat) (x : Trap) (cs : List Nat) (refl : Bool) : Spares u (u.reflect k tepc x cs refl) k := by
  rw [State.reflect_eq]
  refine trans (trans ?_ (toRing _ _ _ _ k)) (ofPosts (State.posts_noteStop _ _) k)
  exact ⟨fun j hj => (State.wave_setWave _ _ _ _).trans (if_neg hj), fun _ => .refl _⟩

theorem trapAt (s : State) (k tepc : Nat) (x : Trap) : Spares s (s.trapAt k tepc x) k := by
  have hu := undo s k
  unfold State.trapAt
  dsimp only
  generalize s.undo k = u at hu ⊢
  refine hu.trans ?_
  have henter := (setWave u k ((u.wave k).enter x tepc)).trans (charge _ (u.group (u.wave k).group).ctx 0x10 1 k)
  split_ifs
  · exact henter.trans (freeze _ _ k)
  · exact henter
  · exact reflect _ _ _ _ _ _
  · exact reflect _ _ _ _ _ _

theorem withdrawArrival (s : State) (k : Nat) : Spares s (s.withdrawArrival k) k := by
  have hagain := setWave s k (s.wave k).again
  unfold State.withdrawArrival
  dsimp only
  split
  · next n j _ =>
    split_ifs
    · exact hagain
    all_goals
      refine hagain.trans (setGroup ?_ k)
      refine Group.Withdraws.putSet (s.group (s.wave k).group) n rfl fun i hi => ?_
      rw [getLsbD_setBit, hi, ite_self]
  · split_ifs
    · exact refl s k
    · exact hagain
    all_goals exact hagain.trans (setLaunch _ _ _ k)
  · exact hagain.trans (ofPosts (State.posts_qFell _ _) k)
  · exact refl s k

theorem preemptWave (s : State) (k : Nat) : Spares s (s.preemptWave k) k := by
  unfold State.preemptWave
  dsimp only
  refine (withdrawArrival s k).trans ?_
  split_ifs
  · exact setWave _ _ _
  · exact trapAt _ _ _ _

end Spares

/-- From `s` to `t` wave `k` was left as it was, and arrivals were withdrawn. -/
structure Passes (s t : State) (k : Nat) : Prop where
  wave : t.wave k = s.wave k
  groups : ∀ g, (s.group g).Withdraws (t.group g)

theorem Passes.preemptWaves (s : State) {k : Nat} {l : List Nat} (hk : k ∉ l) : Passes s (l.foldl (fun s k => s.preemptWave k) s) k := by
  induction l generalizing s with
  | nil => exact ⟨rfl, fun _ => .refl _⟩
  | cons j l ih =>
    obtain ⟨hj, hl⟩ := not_or.mp (mt List.mem_cons.mpr hk)
    have h := Spares.preemptWave s j
    obtain ⟨hw, hg⟩ := ih (s.preemptWave j) hl
    exact ⟨hw.trans (h.waves k hj), fun g => (h.groups g).trans (hg g)⟩

/-! ### One wave takes PREEMPT -/

theorem State.toHandler_of {s u : State} {k : Nat} (hgroup : (u.wave k).group = (s.wave k).group)
    (htvec : (u.wave k).tvec = (s.wave k).tvec) (hhandler : (u.wave k).handler = (s.wave k).handler)
    (hg : (s.group (s.wave k).group).Withdraws (u.group (s.wave k).group)) (x : Trap) : u.toHandler k x = s.toHandler k x := by
  simp only [State.toHandler, hgroup, htvec, hhandler, hg.ep, hg.ctx]

/-- A wave that enters its handler. -/
theorem State.wave_trapAt {s : State} {k tepc : Nat} {x : Trap} (h : s.toHandler k x = true) :
    (s.trapAt k tepc x).wave k = (s.wave k).dropped.enter x tepc := by
  have hd := s.dropped_undo k
  have hw : (s.undo k).wave k = (s.wave k).dropped := by rw [hd.wave, if_pos rfl]
  have hto : (s.undo k).toHandler k x = true :=
    (State.toHandler_of (by rw [hw]; rfl) (by rw [hw]; rfl) (by rw [hw]; rfl) ((Spares.undo s k).groups _) x).trans h
  have hset : ∀ g, (((s.undo k).setWave k ((s.wave k).dropped.enter x tepc)).charge g 0x10 1).wave k =
    (s.wave k).dropped.enter x tepc := by
    intro g
    rw [State.charge_eq]
    exact (State.wave_setWave _ _ _ _).trans (if_pos rfl)
  unfold State.trapAt
  dsimp only
  rw [if_pos hto, hw]
  split_ifs
  · exact hset _
  · exact hset _

/-- A wave that runs takes PREEMPT where it stands. -/
theorem State.preemptWave_runs {s : State} {k : Nat} (hp : (s.wave k).phase = .run) : s.preemptWave k =
    if (s.wave k).handler || (s.wave k).remoteHold then s.setWave k { s.wave k with preemptDue := true }
    else s.trapAt k (s.wave k).ipc { cause := 0x0C } := by
  have hw : s.withdrawArrival k = s := by
    unfold State.withdrawArrival
    dsimp only
    rw [hp]
  unfold State.preemptWave
  dsimp only
  rw [hw, hp]
  simp

/-- A wave that waits at a barrier of a set, its arrival withdrawn. -/
def State.withdrawn (s : State) (k n : Nat) : State :=
  let x := s.group (s.wave k).group
  let a := setBit (x.set n).arrived (s.wave k).wid false
  (s.setWave k (s.wave k).again).setGroup (s.wave k).group (x.putSet n { x.set n with
    begun := a ≠ 0, arrived := a, counted := if a = 0 then 0 else (x.set n).counted })

theorem State.preemptWave_waits {s : State} {k n : Nat} (hp : (s.wave k).phase = .bar n ((s.group (s.wave k).group).set n).k none)
    (hh : (s.wave k).handler = false) (hr : (s.wave k).remoteHold = false) :
    s.preemptWave k = (s.withdrawn k n).trapAt k (s.wave k).ipc { cause := 0x0C } := by
  have hw : s.withdrawArrival k = s.withdrawn k n := by
    unfold State.withdrawArrival
    dsimp only
    rw [hp]
    exact if_neg (by simp)
  have hwk : (s.withdrawn k n).wave k = (s.wave k).again := (State.wave_setWave _ _ _ _).trans (if_pos rfl)
  unfold State.preemptWave
  dsimp only
  rw [hw, hwk]
  exact if_neg (by simp [Wave.again, hh, hr])

theorem State.withdrawn_spares (s : State) (k n : Nat) : Spares s (s.withdrawn k n) k := by
  refine (Spares.setWave s k (s.wave k).again).trans (Spares.setGroup ?_ k)
  refine Group.Withdraws.putSet (s.group (s.wave k).group) n rfl fun i hi => ?_
  rw [getLsbD_setBit, hi, ite_self]

theorem State.arrived_withdrawn (s : State) (k n : Nat) :
    (((s.withdrawn k n).group (s.wave k).group).set n).arrived.getLsbD (s.wave k).wid = false := by
  unfold State.withdrawn
  dsimp only
  rw [State.group_setGroup, if_pos rfl, Group.putSet, Group.set, Tab.getD_set_same, getLsbD_setBit]
  split_ifs with h
  · rfl
  · exact BitVec.getLsbD_of_ge _ _ (by omega)

/-- What PREEMPT gives a wave. -/
structure Preempted (s t : State) (k : Nat) (w : Wave) : Prop where
  preempted : (t.wave k).preempted = true
  phase : (t.wave k).phase = .run
  entered : EnteredHandler s t k w.ipc { cause := 0x0C }

theorem State.trapAt_preempts {u : State} {k pc : Nat} (hrun : (u.wave k).phase = .run) (ht : u.toHandler k { cause := 0x0C } = true) :
    ((u.trapAt k pc { cause := 0x0C }).wave k).preempted = true ∧ ((u.trapAt k pc { cause := 0x0C }).wave k).phase = .run := by
  rw [State.wave_trapAt ht]
  exact ⟨rfl, hrun⟩

/-- A wave that runs, or waits at a barrier that lasts, takes PREEMPT, its arrival withdrawn. -/
theorem State.preemptWave_enters {s : State} {k : Nat}
    (hp : (s.wave k).phase = .run ∨ ∃ n, (s.wave k).phase = .bar n ((s.group (s.wave k).group).set n).k none)
    (hh : (s.wave k).handler = false) (hr : (s.wave k).remoteHold = false) (ht : s.toHandler k { cause := 0x0C } = true) :
    Preempted s (s.preemptWave k) k (s.wave k) ∧ ∀ n j, (s.wave k).phase = .bar n j none →
      (((s.preemptWave k).group (s.wave k).group).set n).arrived.getLsbD (s.wave k).wid = false := by
  obtain hp | ⟨n, hp⟩ := hp
  · rw [State.preemptWave_runs hp, hh, hr]
    obtain ⟨h1, h2⟩ := State.trapAt_preempts (pc := (s.wave k).ipc) hp ht
    exact ⟨⟨h1, h2, (State.trapAt_handler ht).1⟩, fun n j h => absurd (hp.symm.trans h) (by simp)⟩
  · rw [State.preemptWave_waits hp hh hr]
    have hs := s.withdrawn_spares k n
    have hw : (s.withdrawn k n).wave k = (s.wave k).again := (State.wave_setWave _ _ _ _).trans (if_pos rfl)
    have harrived := s.arrived_withdrawn k n
    generalize s.withdrawn k n = u at hs hw harrived ⊢
    have ht' : u.toHandler k { cause := 0x0C } = true := 
      (State.toHandler_of (by rw [hw]; rfl) (by rw [hw]; rfl) (by rw [hw]; rfl) (hs.groups _) _).trans ht
    obtain ⟨h1, h2⟩ := State.trapAt_preempts (pc := (s.wave k).ipc) (by rw [hw]; rfl) ht'
    refine ⟨⟨h1, h2, ?_⟩, fun m j hm => ?_⟩
    · have he := (State.trapAt_handler (tepc := (s.wave k).ipc) ht').1
      simp only [EnteredHandler, hw] at he ⊢
      exact he
    · obtain rfl : n = m := by
        rw [hp] at hm
        exact (Phase.bar.inj hm).1
      exact ((Spares.trapAt u k _ _).groups _).arrived n _ harrived

/-! ### PREEMPT_TIMEOUT -/

theorem State.wavesOf_nodup (s : State) (g : Nat) : (s.wavesOf g).Nodup :=
  List.Nodup.map (fun a b h => by simpa using h) List.nodup_range

/-- Of waves that are preempted one after another, each is preempted in a state that left it alone, and left alone afterwards. -/
theorem State.preemptWaves_at (s : State) {k : Nat} {l : List Nat} (hk : k ∈ l) (hl : l.Nodup) :
    ∃ u, Passes s u k ∧ Passes (u.preemptWave k) (l.foldl (fun s k => s.preemptWave k) s) k := by
  obtain ⟨l1, l2, rfl⟩ := List.append_of_mem hk
  rw [List.foldl_append, List.foldl_cons]
  rw [List.nodup_append] at hl
  obtain ⟨-, hl2, hdisj⟩ := hl
  exact ⟨_, .preemptWaves s fun h => hdisj k h k List.mem_cons_self rfl, .preemptWaves _ (List.nodup_cons.mp hl2).1⟩

section
variable {g t0 : Nat} {s : State} (ht0 : (s.group g).stopReq = some t0)
include ht0

theorem preemptTimeout_early (h : s.now < t0 + 200000) : exec (.preemptTimeout g) s = .next s := by
  show execPreemptTimeout g s = _
  unfold execPreemptTimeout
  dsimp only
  rw [ht0]
  refine if_pos ?_
  have h' : s.now < t0 + 100 * Config.usCycles := h
  simp [h']

theorem predoneTimeout_early (h : s.now < t0 + 400000) : exec (.predoneTimeout g) s = .next s := by
  show execPredoneTimeout g s = _
  unfold execPredoneTimeout
  dsimp only
  rw [ht0]
  refine if_pos ?_
  have h' : s.now < t0 + 200 * Config.usCycles := h
  simp [h']

variable (hp : (s.group g).phase = .resident) (hf : (s.group g).forced = none)
include hp hf

/-- The waves of a group that a stop waits for, those that can be parked being parked. -/
def State.unparked (s : State) (g : Nat) : List Nat := (s.wavesOf g).filter fun k => !(s.wave k).phase.still

theorem preemptTimeout_due (h : t0 + 200000 ≤ s.now) {k : Nat} (hk : k ∈ (s.parkWaiting g).unparked g) :
    exec (.preemptTimeout g) s = .next (if (s.group g).ep.handler then
      ((((s.parkWaiting g).unparked g).foldl (fun s k => s.preemptWave k) (s.parkWaiting g)).noteStop g)
      else (s.parkWaiting g).forceStop g 1) := by
  have hlate : ¬ s.now < t0 + 100 * Config.usCycles := Nat.not_lt.mpr h
  have hne : ((s.parkWaiting g).unparked g).isEmpty = false := by
    cases hl : (s.parkWaiting g).unparked g with
    | nil => rw [hl] at hk; exact absurd hk (by simp)
    | cons a l => rfl
  show execPreemptTimeout g s = _
  unfold execPreemptTimeout
  dsimp only
  rw [ht0, hp, hf]
  simp only [hlate, decide_false, bne_self_eq_false, Option.isSome_none, Bool.or_self, Bool.false_eq_true, if_false]
  rw [State.unparked] at hne
  rw [hne]
  cases (s.group g).ep.handler <;> rfl

end

theorem State.unparked_run {s : State} {g k : Nat} (hk : k ∈ s.wavesOf g) (hrun : (s.wave k).phase = .run) :
    k ∈ (s.parkWaiting g).unparked g := by
  have hparks := Parks.parkWaiting s g
  refine List.mem_filter.mpr ⟨by rw [hparks.wavesOf]; exact hk, ?_⟩
  rw [hparks.run hrun, hrun]
  rfl

theorem State.forced_forceStop (s : State) (g kind : Nat) : ((s.forceStop g kind).group g).forced = some kind := by
  unfold State.forceStop
  rw [(State.posts_postOnce _ _ _).group, State.group_setGroup, if_pos rfl]

theorem preemptTimeout_forces {g t0 : Nat} {s : State} (ht0 : (s.group g).stopReq = some t0) (hp : (s.group g).phase = .resident)
    (hf : (s.group g).forced = none) (h : t0 + 200000 ≤ s.now) (hh : (s.group g).ep.handler = false)
    (hrun : ∃ k ∈ s.wavesOf g, (s.wave k).phase = .run) :
    ∃ t, exec (.preemptTimeout g) s = .next t ∧ (t.group g).forced = some 1 := by
  obtain ⟨k, hk, hkrun⟩ := hrun
  refine ⟨_, preemptTimeout_due ht0 hp hf h (State.unparked_run hk hkrun), ?_⟩
  rw [hh]
  exact State.forced_forceStop _ _ _

/-- What PREEMPT_TIMEOUT gives the waves of a group with a handler. -/
theorem preemptTimeout_preempts {g t0 : Nat} {s : State} (ht0 : (s.group g).stopReq = some t0) (hp : (s.group g).phase = .resident)
    (hf : (s.group g).forced = none) (h : t0 + 200000 ≤ s.now) (hh : (s.group g).ep.handler = true)
    (hrun : ∃ k ∈ s.wavesOf g, (s.wave k).phase = .run) :
    ∃ t, exec (.preemptTimeout g) s = .next t ∧ ∀ k ∈ s.wavesOf g,
      (s.parkWaiting g).wave k = s.wave k → (s.wave k).phase.still = false →
      ∃ u v, Passes s u k ∧ v = u.preemptWave k ∧ Passes v t k := by
  obtain ⟨k0, hk0, hkrun⟩ := hrun
  refine ⟨_, preemptTimeout_due ht0 hp hf h (State.unparked_run hk0 hkrun), fun k hk hkw hstill => ?_⟩
  rw [hh]
  have hparks := Parks.parkWaiting s g
  have hmem : k ∈ (s.parkWaiting g).unparked g :=
    List.mem_filter.mpr ⟨by rw [hparks.wavesOf]; exact hk, by rw [hkw, hstill]; rfl⟩
  obtain ⟨u, hu, hv⟩ := State.preemptWaves_at (s.parkWaiting g) hmem ((State.wavesOf_nodup _ _).filter _)
  have hpost := State.posts_noteStop (((s.parkWaiting g).unparked g).foldl (fun s k => s.preemptWave k) (s.parkWaiting g)) g
  refine ⟨u, _, ⟨hu.wave.trans hkw, fun j => ?_⟩, rfl, ⟨(hpost.wave k).trans hv.wave, fun j => ?_⟩⟩
  · rw [← hparks.group]; exact hu.groups j
  · exact (hv.groups j).trans (by rw [if_pos rfl, hpost.group]; exact .refl _)

theorem Phase.still_bar (n j : Nat) : (Phase.bar n j none).still = false := rfl

section
variable {g k : Nat} {s u t : State} (hu : Passes s u k) (ht : Passes (u.preemptWave k) t k)
include hu ht

/-- A wave that runs, or waits at a barrier without a liveness entry, takes PREEMPT. -/
theorem Passes.enters (hg : (s.wave k).group = g)
    (hp : (s.wave k).phase = .run ∨ ∃ n j, (s.wave k).phase = .bar n j none ∧ ((s.group g).set n).k = j)
    (hh : (s.wave k).handler = false) (hr : (s.wave k).remoteHold = false) (hto : s.toHandler k { cause := 0x0C } = true) :
    Preempted s t k (s.wave k) ∧ ∀ n j, (s.wave k).phase = .bar n j none →
      ((t.group g).set n).arrived.getLsbD (s.wave k).wid = false := by
  subst hg
  have hto' : u.toHandler k { cause := 0x0C } = true :=
    (State.toHandler_of (by rw [hu.wave]) (by rw [hu.wave]) (by rw [hu.wave]) (hu.groups _) _).trans hto
  have hp' : (u.wave k).phase = .run ∨ ∃ n, (u.wave k).phase = .bar n ((u.group (u.wave k).group).set n).k none := by
    rw [hu.wave]
    refine hp.imp id ?_
    rintro ⟨n, j, hn, rfl⟩
    exact ⟨n, by rw [hn, (hu.groups _).k]⟩
  obtain ⟨⟨h1, h2, h3⟩, h4⟩ := State.preemptWave_enters hp' (by rw [hu.wave]; exact hh) (by rw [hu.wave]; exact hr) hto'
  rw [hu.wave] at h3 h4
  refine ⟨⟨by rw [ht.wave]; exact h1, by rw [ht.wave]; exact h2, ?_⟩, fun n j hn => (ht.groups _).arrived n _ (h4 n j hn)⟩
  simp only [EnteredHandler, hu.wave, ht.wave] at h3 ⊢
  exact h3

/-- A wave in its handler, or held by an access to another package, takes PREEMPT later. -/
theorem Passes.defers (hp : (s.wave k).phase = .run) (hh : (s.wave k).handler = true ∨ (s.wave k).remoteHold = true) :
    (t.wave k).preemptDue = true ∧ (t.wave k).duct = (s.wave k).duct ∧ (t.wave k).file = (s.wave k).file := by
  have hw : (u.preemptWave k).wave k = { s.wave k with preemptDue := true } := by
    rw [State.preemptWave_runs (by rw [hu.wave]; exact hp), hu.wave, if_pos (by simpa using hh)]
    exact (State.wave_setWave _ _ _ _).trans (if_pos rfl)
  rw [ht.wave, hw]
  exact ⟨rfl, rfl, rfl⟩

end

/-! ### PREDONE_TIMEOUT -/

theorem RingGot.rang {s t : State} {part : Nat} {e : RingEntry} {cs : List Nat} (h : RingGot s t (s.ringOf cs) part e) {c : Nat}
    (hpart : part = s.partition c) : Claims.Rang s t c cs e := by
  have hg := h.got
  unfold Claims.Rang
  rw [State.ringOf] at hg
  cases hf : cs.find? (fun c => (s.ctx c).fltEn) with
  | some r =>
    rw [hf] at hg
    show e ∈ (t.ctx r).ringQ
    rw [show (t.ctx r).ringQ = (s.ctx r).ringQ ++ [e] from hg]
    simp
  | none =>
    rw [hf] at hg
    rw [← hpart]
    exact hg

/-- A later state in which the rings hold what they held, and the front ends their records. -/
theorem rang_later {s t u : State} {c : Nat} {cs : List Nat} {e : RingEntry} (h : Claims.Rang s t c cs e)
    (hq : ∀ c, ∀ e ∈ (t.ctx c).ringQ, e ∈ (u.ctx c).ringQ) (hf : ∀ f, (u.frontEnd f).event = (t.frontEnd f).event) :
    Claims.Rang s u c cs e := by
  unfold Claims.Rang at h ⊢
  split at h
  · exact hq _ e h
  · exact (hf _).trans h

theorem State.ctxs_forceStop (s : State) (g kind : Nat) : (s.forceStop g kind).ctxs = s.ctxs :=
  (State.posts_postOnce _ _ _).ctxs
theorem State.frontEnds_forceStop (s : State) (g kind : Nat) : (s.forceStop g kind).frontEnds = s.frontEnds :=
  (State.posts_postOnce _ _ _).frontEnds

theorem predoneTimeout_due {g t0 : Nat} {s : State} (ht0 : (s.group g).stopReq = some t0) (hp : (s.group g).phase = .resident)
    (hf : (s.group g).forced = none) (h : t0 + 400000 ≤ s.now) :
    ∃ t, exec (.predoneTimeout g) s = .next t ∧ (t.group g).forced = some 1 ∧
      Claims.Rang s t (s.group g).ctx (s.chain (s.group g).ctx).tail
        { ctx := (s.group g).ctx, tcause := 0x10, tinfo := BitVec.ofNat 64 (s.group g).gid, gid := (s.group g).gid
          word2c := 2 ^ 8 * (s.group g).node + 2 ^ 16 * (s.ctx (s.group g).ctx).depth } := by
  have hlate : ¬ s.now < t0 + 200 * Config.usCycles := Nat.not_lt.mpr h
  generalize he : ({ ctx := (s.group g).ctx, tcause := 0x10, tinfo := BitVec.ofNat 64 (s.group g).gid, gid := (s.group g).gid
                     word2c := 2 ^ 8 * (s.group g).node + 2 ^ 16 * (s.ctx (s.group g).ctx).depth } : RingEntry) = e
  have hgot := s.toRing_got (s.ringOf (s.chain (s.group g).ctx).tail) (s.partition (s.group g).ctx) e
  refine ⟨(s.toRing (s.ringOf (s.chain (s.group g).ctx).tail) (s.partition (s.group g).ctx) e).forceStop g 1, ?_,
    State.forced_forceStop _ _ _, ?_⟩
  · show execPredoneTimeout g s = _
    unfold execPredoneTimeout
    dsimp only
    rw [ht0, he]
    exact if_neg (by simp [hlate, hp, hf])
  · refine rang_later (hgot.rang rfl) (fun _ _ h => ?_) fun f => ?_
    · rw [State.ctx, State.ctxs_forceStop]; exact h
    · rw [State.frontEnd, State.frontEnds_forceStop]; rfl

end Sys2Proof.Machine
end

section
/-! # The hang stop (R224) -/

namespace Sys2Proof.Machine

theorem rowsGet_mem {α : Type} (d : α) (l : List (Nat × α)) (k : Nat) : rowsGet d l k = d ∨ (k, rowsGet d l k) ∈ l := by
  induction l with
  | nil => exact .inl rfl
  | cons p l ih =>
    obtain ⟨j, v⟩ := p
    simp only [rowsGet]
    split_ifs with h
    · subst h
      exact .inr List.mem_cons_self
    · exact ih.imp id (List.mem_cons_of_mem _)

theorem mem_of_mem_rowsSet {α : Type} {l : List (Nat × α)} {k : Nat} {v : α} {q : Nat × α} (h : q ∈ rowsSet l k v) :
    q = (k, v) ∨ q ∈ l := by
  induction l with
  | nil => exact .inl (List.mem_singleton.mp h)
  | cons p l ih =>
    obtain ⟨j, u⟩ := p
    simp only [rowsSet] at h
    split_ifs at h
    · exact List.mem_cons.mp h
    · exact (List.mem_cons.mp h).imp id (List.mem_cons_of_mem _)
    · obtain rfl | h := List.mem_cons.mp h
      · exact .inr List.mem_cons_self
      · exact (ih h).imp id (List.mem_cons_of_mem _)

/-! ### What the steps of a hang stop leave -/

/-- What a context stands for in the tree, and whether it hangs. -/
def Context.standing (x : Context) : Option Nat × Bool × Nat × Bool × Bool := (x.parent, x.fltEn, x.depth, x.hung, x.hangDue)

/-- From `s` to `t` the contexts kept their standing and the groups their contexts and phases; what is stopped in full stays so. -/
structure Endures (s t : State) : Prop where
  ctx : ∀ d, (t.ctx d).standing = (s.ctx d).standing
  keys : ∀ d ∈ s.ctxs.keys, d ∈ t.ctxs.keys
  forth : ∀ p ∈ s.groups.rows, ∃ q ∈ t.groups.rows, q.2.ctx = p.2.ctx ∧ q.2.phase = p.2.phase
  back : ∀ q ∈ t.groups.rows, q.2.phase.runs = true → ∃ p ∈ s.groups.rows, p.2.ctx = q.2.ctx ∧ p.2.phase = q.2.phase
  forced : ∀ g, (s.group g).forced = some 1 → (t.group g).forced = some 1

namespace Endures

theorem refl (s : State) : Endures s s :=
  ⟨fun _ => rfl, fun _ => id, fun p hp => ⟨p, hp, rfl, rfl⟩, fun p hp _ => ⟨p, hp, rfl, rfl⟩, fun _ => id⟩

theorem trans {s t u : State} (h : Endures s t) (k : Endures t u) : Endures s u := by
  refine ⟨fun d => (k.ctx d).trans (h.ctx d), fun d hd => k.keys d (h.keys d hd), fun p hp => ?_, fun q hq hr => ?_,
    fun g hg => k.forced g (h.forced g hg)⟩
  · obtain ⟨r, hr, h1, h2⟩ := h.forth p hp
    obtain ⟨q, hq, k1, k2⟩ := k.forth r hr
    exact ⟨q, hq, k1.trans h1, k2.trans h2⟩
  · obtain ⟨r, hrm, k1, k2⟩ := k.back q hq hr
    obtain ⟨p, hp, h1, h2⟩ := h.back r hrm (by rw [k2]; exact hr)
    exact ⟨p, hp, h1.trans k1, h2.trans k2⟩

theorem foldl {α : Type} {f : State → α → State} (h : ∀ s a, Endures s (f s a)) (l : List α) (s : State) :
    Endures s (l.foldl f s) := by
  induction l generalizing s with
  | nil => exact refl s
  | cons a l ih => exact (h s a).trans (ih _)

theorem of_same {s t : State} (hc : t.ctxs = s.ctxs) (hg : t.groups = s.groups) : Endures s t :=
  ⟨fun d => by rw [State.ctx, hc]; rfl, fun d hd => by rw [hc]; exact hd, fun p hp => ⟨p, by rw [hg]; exact hp, rfl, rfl⟩,
    fun p hp _ => ⟨p, by rw [← hg]; exact hp, rfl, rfl⟩, fun g h => by rw [State.group, hg]; exact h⟩

theorem ofPosts {s t : State} (h : Posts s t) : Endures s t := of_same h.ctxs h.groups

theorem setCtx (s : State) {c : Nat} {x : Context} (h : x.standing = (s.ctx c).standing) : Endures s (s.setCtx c x) := by
  refine ⟨fun d => ?_, fun d hd => mem_rowsSet_key.mpr (.inr hd), fun p hp => ⟨p, hp, rfl, rfl⟩, fun p hp _ => ⟨p, hp, rfl, rfl⟩,
    fun _ => id⟩
  rw [State.ctx_setCtx]
  split_ifs with hd
  · rw [h, hd]
  · rfl

theorem setGroup (s : State) {g : Nat} {x : Group} (hctx : x.ctx = (s.group g).ctx) (hphase : x.phase = (s.group g).phase)
    (hforced : (s.group g).forced = some 1 → x.forced = some 1) : Endures s (s.setGroup g x) := by
  refine ⟨fun _ => rfl, fun _ => id, fun p hp => ?_, fun q hq hr => ?_, fun j hj => ?_⟩
  · obtain h | ⟨rfl, h⟩ := rowsSet_keeps ({} : Group) (k := g) x hp
    · exact ⟨p, h, rfl, rfl⟩
    · exact ⟨(g, x), h, hctx, hphase⟩
  · obtain rfl | h := mem_of_mem_rowsSet hq
    · obtain h | h := rowsGet_mem ({} : Group) s.groups.rows g
      · have he : x.phase = GroupPhase.queued := hphase.trans (congrArg Group.phase h)
        rw [he] at hr
        exact absurd hr (by simp [GroupPhase.runs])
      · exact ⟨_, h, hctx.symm, hphase.symm⟩
    · exact ⟨q, h, rfl, rfl⟩
  · rw [State.group_setGroup]
    split_ifs with h
    · exact hforced (h ▸ hj)
    · exact hj

/-! #### The operations -/

theorem forceStop (s : State) (g : Nat) : Endures s (s.forceStop g 1) :=
  (setGroup s (x := { s.group g with forced := some 1 }) rfl rfl fun _ => rfl).trans (ofPosts (State.posts_postOnce _ _ _))

theorem progress (s : State) (c : Nat) : Endures s (s.progress c) := by
  unfold State.progress
  split_ifs
  · exact refl s
  · exact setCtx s rfl

theorem fullHandle (s : State) (g h : Nat) (st : HStatus) : Endures s (s.fullHandle g h st) := by
  unfold State.fullHandle
  dsimp only
  refine trans (trans ?_ (progress _ _)) (ofPosts (State.posts_poke _ _))
  exact setGroup s rfl rfl id

theorem landSlot (s : State) (o : EngineOp) : Endures s (s.landSlot o) := by
  unfold State.landSlot
  split
  · exact of_same rfl rfl
  · exact refl s

theorem opEnded (s : State) (g : Nat) : Endures s (s.opEnded g) := by
  unfold State.opEnded
  dsimp only
  split_ifs
  · exact (ofPosts (State.posts_noteStop s g)).trans (ofPosts (State.posts_postOnce _ _ _))
  · exact ofPosts (State.posts_noteStop s g)

theorem setQueue (s : State) (cl e q : Nat) (l : List EngineOp) : Endures s (s.setQueue cl e q l) := of_same rfl rfl

theorem endOp (s : State) (cl e q : Nat) (o : EngineOp) (st : HStatus) : Endures s (s.endOp cl e q o st) := by
  unfold State.endOp
  dsimp only
  refine trans (trans (trans (trans ?_ (landSlot _ o)) (fullHandle _ _ _ _)) (ofPosts (State.posts_pokeEngines _ _))) (opEnded _ _)
  exact setQueue s cl e q _

theorem checkTargets (s : State) (cl e q : Nat) (o : EngineOp) : Endures s (s.checkTargets cl e q o) := by
  unfold State.checkTargets
  dsimp only
  split_ifs
  · exact setQueue _ _ _ _ _
  all_goals exact endOp _ _ _ _ _ _

theorem releaseHead (s : State) (g cl key : Nat) : Endures s (s.releaseHead g cl key) := by
  unfold State.releaseHead
  dsimp only
  split
  · exact refl s
  · next o t _ =>
    split_ifs
    · exact refl s
    · refine trans ?_ (ofPosts (State.posts_pokeEngines _ _))
      exact (setQueue s cl (key / 4) (key % 4) t).trans (setGroup _ rfl rfl id)
    · exact refl s
    · exact checkTargets _ _ _ _ _
    · exact refl s

theorem releaseHeads (s : State) (g : Nat) : Endures s (s.releaseHeads g) := foldl (fun s key => releaseHead s g _ key) _ s

theorem parkWaiting (s : State) (g : Nat) : Endures s (s.parkWaiting g) := by
  have h := (Parks.parkWaiting s g).same
  refine of_same ?_ ?_ <;> rw [h]

theorem requestStop (s : State) (g : Nat) : Endures s (s.requestStop g) := by
  obtain h | h := s.requestStop_cases g <;> rw [h]
  · exact refl s
  · refine trans (trans ?_ (parkWaiting _ _)) (ofPosts (((State.posts_post _ _ _).trans (State.posts_post _ _ _)).trans
      (State.posts_postOnce _ _ _)))
    exact setGroup s rfl rfl id

theorem leaveCore (s : State) (c core : Nat) (below : Bool) : Endures s (s.leaveCore c core below) := by
  unfold State.leaveCore
  dsimp only
  refine trans (trans (t := if (s.core core).leaving.contains (c, below) then s
    else s.setCore core { s.core core with leaving := (s.core core).leaving ++ [(c, below)] }) ?_ (foldl requestStop _ _))
    (ofPosts (State.posts_post _ _ _))
  split_ifs
  · exact refl s
  · exact of_same rfl rfl

theorem dequeueGroup (s : State) (cl g : Nat) : Endures s (s.dequeueGroup cl g) := of_same rfl rfl

/-! #### What follows -/

section
variable {s t : State} (h : Endures s t)
include h

theorem parent (d : Nat) : (t.ctx d).parent = (s.ctx d).parent := congrArg (·.1) (h.ctx d)
theorem fltEn (d : Nat) : (t.ctx d).fltEn = (s.ctx d).fltEn := congrArg (·.2.1) (h.ctx d)
theorem depth (d : Nat) : (t.ctx d).depth = (s.ctx d).depth := congrArg (·.2.2.1) (h.ctx d)
theorem hung (d : Nat) : (t.ctx d).hung = (s.ctx d).hung := congrArg (·.2.2.2.1) (h.ctx d)
theorem hangDue (d : Nat) : (t.ctx d).hangDue = (s.ctx d).hangDue := congrArg (·.2.2.2.2) (h.ctx d)
theorem chain (d : Nat) : t.chain d = s.chain d := State.chain_congr h.parent d

end

end Endures

/-! ### Descendants -/

/-- A context without a row has no parent. -/
theorem State.chain_of_not_mem {s : State} {d : Nat} (h : d ∉ s.ctxs.keys) : s.chain d = [d] := by
  have hd : s.ctx d = {} := by
    obtain e | e := rowsGet_mem ({} : Context) s.ctxs.rows d
    · exact e
    · exact absurd (List.mem_map.mpr ⟨_, e, rfl⟩) h
  rw [State.chain, State.chainFuel, hd]

theorem State.mem_descendants {s : State} {c d : Nat} (hc : c ∈ s.ctxs.keys) : d ∈ s.descendants c ↔ c ∈ s.chain d := by
  simp only [State.descendants, List.mem_filter, List.contains_iff_mem, and_iff_right_iff_imp]
  intro h
  by_contra hd
  rw [State.chain_of_not_mem hd, List.mem_singleton] at h
  exact hd (h ▸ hc)

theorem Endures.descendants {s t : State} (h : Endures s t) {c : Nat} (hc : c ∈ s.ctxs.keys) (d : Nat) :
    d ∈ t.descendants c ↔ d ∈ s.descendants c := by
  rw [State.mem_descendants hc, State.mem_descendants (h.keys c hc), h.chain]

/-- A group of a context or of its descendants is yet to be stopped. -/
def State.runsBelow (s : State) (c : Nat) : Prop :=
  ∃ p ∈ s.groups.rows, p.2.ctx ∈ s.descendants c ∧ (p.2.phase = .resident ∨ ∃ n, p.2.phase = .restoring n)

theorem GroupPhase.runs_iff (p : GroupPhase) : p.runs = true ↔ p = .resident ∨ ∃ n, p = .restoring n := by
  cases p <;> simp [GroupPhase.runs]

theorem State.runsBelow_iff (s : State) (c : Nat) : (s.groupsIn (s.descendants c) GroupPhase.runs).isEmpty = false ↔ s.runsBelow c := by
  rw [← Bool.not_eq_true, List.isEmpty_iff, State.groupsIn, List.map_eq_nil_iff, List.filter_eq_nil_iff]
  simp only [State.runsBelow, ← GroupPhase.runs_iff, Bool.and_eq_true, List.contains_iff_mem]
  push Not
  rfl

theorem Endures.runsBelow {s t : State} (h : Endures s t) {c : Nat} (hc : c ∈ s.ctxs.keys) : t.runsBelow c ↔ s.runsBelow c := by
  constructor
  · rintro ⟨q, hq, hd, hr⟩
    obtain ⟨p, hp, h1, h2⟩ := h.back q hq ((GroupPhase.runs_iff _).mpr hr)
    exact ⟨p, hp, by rw [h1]; exact (h.descendants hc _).mp hd, by rw [h2]; exact hr⟩
  · rintro ⟨p, hp, hd, hr⟩
    obtain ⟨q, hq, h1, h2⟩ := h.forth p hp
    exact ⟨q, hq, by rw [h1]; exact (h.descendants hc _).mpr hd, by rw [h2]; exact hr⟩

/-! ### The contexts are marked -/

/-- The contexts hang, and the fault of one of them is to be delivered. -/
def State.markHung (s : State) (c : Nat) : State :=
  let s := (s.descendants c).foldl (fun s d => s.setCtx d { s.ctx d with hung := true }) s
  s.setCtx c { s.ctx c with hangDue := true }

/-- From `s` to `t` contexts were marked as hanging. -/
structure Marks (s t : State) : Prop where
  same : t = { s with ctxs := t.ctxs }
  ctx : ∀ d, ∃ x y, t.ctx d = { s.ctx d with hung := x, hangDue := y } ∧ ((s.ctx d).hung = true → x = true)
  keys : ∀ d ∈ s.ctxs.keys, d ∈ t.ctxs.keys

namespace Marks

theorem refl (s : State) : Marks s s := ⟨rfl, fun _ => ⟨_, _, rfl, id⟩, fun _ => id⟩
theorem trans {s t u : State} (h : Marks s t) (k : Marks t u) : Marks s u := by
  refine ⟨by rw [k.same, h.same], fun d => ?_, fun d hd => k.keys d (h.keys d hd)⟩
  obtain ⟨x, y, e, hx⟩ := h.ctx d
  obtain ⟨z, w, f, hz⟩ := k.ctx d
  exact ⟨z, w, by rw [f, e], fun hs => hz (by rw [e]; exact hx hs)⟩
theorem foldl {α : Type} {f : State → α → State} (h : ∀ s a, Marks s (f s a)) (l : List α) (s : State) :
    Marks s (l.foldl f s) := by
  induction l generalizing s with
  | nil => exact refl s
  | cons a l ih => exact (h s a).trans (ih _)

theorem setCtx (s : State) (c : Nat) {x y : Bool} (hx : (s.ctx c).hung = true → x = true) :
    Marks s (s.setCtx c { s.ctx c with hung := x, hangDue := y }) := by
  refine ⟨rfl, fun d => ?_, fun d hd => mem_rowsSet_key.mpr (.inr hd)⟩
  rw [State.ctx_setCtx]
  split_ifs with h
  · exact ⟨x, y, by rw [h], by rw [h]; exact hx⟩
  · exact ⟨_, _, rfl, id⟩

theorem hang (s : State) (d : Nat) : Marks s (s.setCtx d { s.ctx d with hung := true }) := setCtx s d fun _ => rfl

section
variable {s t : State} (h : Marks s t)
include h

theorem parent (d : Nat) : (t.ctx d).parent = (s.ctx d).parent := by
  obtain ⟨x, y, e, -⟩ := h.ctx d
  rw [e]
theorem fltEn (d : Nat) : (t.ctx d).fltEn = (s.ctx d).fltEn := by
  obtain ⟨x, y, e, -⟩ := h.ctx d
  rw [e]
theorem depth (d : Nat) : (t.ctx d).depth = (s.ctx d).depth := by
  obtain ⟨x, y, e, -⟩ := h.ctx d
  rw [e]
theorem hung {d : Nat} (hd : (s.ctx d).hung = true) : (t.ctx d).hung = true := by
  obtain ⟨x, y, e, hx⟩ := h.ctx d
  rw [e]
  exact hx hd
theorem chain (d : Nat) : t.chain d = s.chain d := State.chain_congr h.parent d
theorem groups : t.groups = s.groups := by rw [h.same]

theorem runsBelow {c : Nat} (hc : c ∈ s.ctxs.keys) : t.runsBelow c ↔ s.runsBelow c := by
  simp only [State.runsBelow, h.groups, State.mem_descendants hc, State.mem_descendants (h.keys c hc), h.chain]

end

end Marks

theorem State.hung_foldl {l : List Nat} {d : Nat} (hd : d ∈ l) (s : State) :
    ((l.foldl (fun s d => s.setCtx d { s.ctx d with hung := true }) s).ctx d).hung = true := by
  induction l generalizing s with
  | nil => exact absurd hd (by simp)
  | cons a l ih =>
    obtain rfl | hd := List.mem_cons.mp hd
    · refine (Marks.foldl Marks.hang l _).hung ?_
      rw [State.ctx_setCtx, if_pos rfl]
    · exact ih hd _

/-- What a mark leaves: the contexts hang. -/
theorem State.markHung_spec (s : State) (c : Nat) :
    Marks s (s.markHung c) ∧ (∀ d ∈ s.descendants c, ((s.markHung c).ctx d).hung = true) ∧
    ((s.markHung c).ctx c).hangDue = true := by
  have hfold := Marks.foldl Marks.hang (s.descendants c) s
  have hhung := fun d hd => State.hung_foldl (l := s.descendants c) (d := d) hd s
  unfold State.markHung
  dsimp only
  generalize (s.descendants c).foldl (fun s d => s.setCtx d { s.ctx d with hung := true }) s = u at hfold hhung ⊢
  have hlast : Marks u (u.setCtx c { u.ctx c with hangDue := true }) := Marks.setCtx u c id
  refine ⟨hfold.trans hlast, fun d hd => hlast.hung (hhung d hd), ?_⟩
  rw [State.ctx_setCtx, if_pos rfl]

/-! ### The hang stop -/

theorem State.forced_foldl {l : List Nat} {g : Nat} (hg : g ∈ l) (s : State) :
    ((l.foldl (fun s g => s.forceStop g 1) s).group g).forced = some 1 := by
  induction l generalizing s with
  | nil => exact absurd hg (by simp)
  | cons a l ih =>
    obtain rfl | hg := List.mem_cons.mp hg
    · exact (Endures.foldl Endures.forceStop l _).forced g (State.forced_forceStop _ _ _)
    · exact ih hg _

theorem Elsewhere.setLaunch (s : State) (l : Nat) (x : Launch) : Elsewhere s (s.setLaunch l x) := ⟨rfl, rfl⟩
theorem Elsewhere.dequeueGroup (s : State) (cl g : Nat) : Elsewhere s (s.dequeueGroup cl g) := ⟨rfl, rfl⟩

theorem State.hangStop_spec (s : State) (c : Nat) : Endures (s.markHung c) (s.hangStop c) ∧
    ∀ p ∈ s.groups.rows, p.2.ctx ∈ s.descendants c → p.2.phase = .resident → ((s.hangStop c).group p.1).forced = some 1 := by
  have hmark := (s.markHung_spec c).1
  unfold State.hangStop
  extract_lets ds s1 x s2 ls s3 queued s4 s5 s6
  have h3 : Endures s2 s3 := by
    refine .foldl ?_ _ _
    exact fun s l => .of_same rfl rfl
  have h4 : Endures s3 s4 := .foldl (fun s cl => .foldl (fun s g => .dequeueGroup s cl g) _ _) _ _
  have h5 : Endures s4 s5 := .foldl Endures.forceStop _ _
  have h6 : Endures s5 s6 := .foldl (fun s g => (Endures.releaseHeads s g).trans (.ofPosts (State.posts_postOnce _ _ _))) _ _
  have h7 : Endures s6 ((s6.ctx c).cores.foldl (fun s p => if s.levelTurn c p.1 then s.leaveCore c p.1 true else s) s6) := by
    refine .foldl (fun s p => ?_) _ _
    split_ifs
    · exact .leaveCore _ _ _ _
    · exact .refl s
  refine ⟨h3.trans (h4.trans (h5.trans (h6.trans h7))), fun p hp hd hr => (h6.trans h7).forced p.1 (State.forced_foldl ?_ _)⟩
  have hgroups : s4.groups = s.groups :=
    ((Elsewhere.foldl (fun s cl => .foldl (fun s g => .dequeueGroup s cl g) _ _) _ s3).groups.trans
      (Elsewhere.foldl (fun s l => .setLaunch s l _) _ s2).groups).trans hmark.groups
  refine List.mem_map.mpr ⟨p, List.mem_filter.mpr ⟨by rw [hgroups]; exact hp, ?_⟩, rfl⟩
  rw [hr]
  simpa [GroupPhase.runs] using hd

/-- The fault of a context that hangs. -/
def State.hangEntry (s : State) (c : Nat) : RingEntry := { ctx := c, tcause := 0x0F, word2c := 2 ^ 16 * (s.ctx c).depth }

/-- A report that is made from a state with the same rings and the same tree. -/
theorem rang_before {s u t : State} {c : Nat} {cs : List Nat} {e : RingEntry} (h : Claims.Rang u t c cs e)
    (hparent : ∀ d, (u.ctx d).parent = (s.ctx d).parent) (hflt : ∀ d, (u.ctx d).fltEn = (s.ctx d).fltEn) : Claims.Rang s t c cs e := by
  unfold Claims.Rang at h ⊢
  simpa only [hflt, State.partition, State.chain_congr hparent] using h

/-- The entry of a hang goes to the ring of the parent. -/
theorem State.hangFault_rang {s u : State} {c : Nat} (hparent : ∀ d, (u.ctx d).parent = (s.ctx d).parent)
    (hflt : ∀ d, (u.ctx d).fltEn = (s.ctx d).fltEn) (hdepth : (u.ctx c).depth = (s.ctx c).depth) :
    Claims.Rang s (u.hangFault c) c (s.chain c).tail (s.hangEntry c) := by
  have hgot := u.toRing_got (u.ringOf (u.chain c).tail) (u.partition c) (u.hangEntry c)
  have hrang : Claims.Rang u (u.hangFault c) c (u.chain c).tail (u.hangEntry c) := hgot.rang rfl
  rw [State.hangEntry, hdepth, State.chain_congr hparent] at hrang
  exact rang_before hrang hparent hflt

theorem RingGot.hung {s t : State} {ring : Option Nat} {part : Nat} {e : RingEntry} (h : RingGot s t ring part e) (c : Nat) :
    (t.ctx c).hung = (s.ctx c).hung ∧ (t.ctx c).hangDue = (s.ctx c).hangDue := by
  obtain ⟨q, p, hc⟩ := h.ctx c
  rw [hc]
  exact ⟨rfl, rfl⟩

/-- The fault is delivered when nothing of the context runs. -/
theorem State.endHang {s u : State} {c : Nat} (hparent : ∀ d, (u.ctx d).parent = (s.ctx d).parent)
    (hflt : ∀ d, (u.ctx d).fltEn = (s.ctx d).fltEn) (hdepth : (u.ctx c).depth = (s.ctx c).depth) :
    let t := (u.setCtx c { u.ctx c with hangDue := false }).hangFault c
    (t.ctx c).hangDue = false ∧ Claims.Rang s t c (s.chain c).tail (s.hangEntry c) ∧ t.groups = u.groups ∧
      ∀ d, (t.ctx d).hung = (u.ctx d).hung := by
  have hm : Marks u (u.setCtx c { u.ctx c with hangDue := false }) := Marks.setCtx u c id
  have hctx : ∀ d, ((u.setCtx c { u.ctx c with hangDue := false }).ctx d).hung = (u.ctx d).hung := by
    intro d
    rw [State.ctx_setCtx]
    split_ifs with h
    · rw [h]
    · rfl
  have hdue : ((u.setCtx c { u.ctx c with hangDue := false }).ctx c).hangDue = false := by rw [State.ctx_setCtx, if_pos rfl]
  dsimp only
  generalize u.setCtx c { u.ctx c with hangDue := false } = v at hm hctx hdue ⊢
  have hgot : RingGot v (v.hangFault c) _ _ (v.hangEntry c) := v.toRing_got (v.ringOf (v.chain c).tail) (v.partition c) (v.hangEntry c)
  have hrang := State.hangFault_rang (s := s) (u := v) (c := c) (fun d => (hm.parent d).trans (hparent d))
    (fun d => (hm.fltEn d).trans (hflt d)) ((hm.depth c).trans hdepth)
  exact ⟨(hgot.hung c).2.trans hdue, hrang, by rw [hgot.same]; exact hm.groups, fun d => (hgot.hung d).1.trans (hctx d)⟩

/-! ### HANG_WATCHDOG_EXPIRY -/

theorem mem_keys_of_get? {α : Type} {t : Tab α} {k : Nat} (h : (t.get? k).isSome = true) : k ∈ t.keys := by
  by_contra hk
  rw [Tab.get?_of_not_mem (l := t.rows) hk] at h
  exact absurd h (by simp)

section
variable {s : State} {c : Nat} (hc : (s.ctxs.get? c).isSome = true)
include hc

/-- A context whose hang is known. -/
theorem hangExpiry_hung (hh : (s.ctx c).hung = true) : exec (.hangWatchdogExpiry c) s =
    if (s.ctx c).hangDue = false then .next s
    else if (s.groupsIn (s.descendants c) GroupPhase.runs).isEmpty then
      .next ((s.setCtx c { s.ctx c with hangDue := false }).hangFault c)
    else .next (s.postOnce Config.usCycles (.hangWatchdogExpiry c)) := by
  show execHangWatchdogExpiry c s = _
  unfold execHangWatchdogExpiry
  rw [if_neg (by simpa [Option.isNone_iff_eq_none, Option.isSome_iff_ne_none] using hc)]
  dsimp only
  rw [if_pos hh]

/-- A context that is found to hang. -/
theorem hangExpiry_new (hh : (s.ctx c).hung = false) : exec (.hangWatchdogExpiry c) s =
    if ((s.hangStop c).ctx c).hangDue = false then .next (s.hangStop c)
    else if ((s.hangStop c).groupsIn ((s.hangStop c).descendants c) GroupPhase.runs).isEmpty then
      .next (((s.hangStop c).setCtx c { (s.hangStop c).ctx c with hangDue := false }).hangFault c)
    else .next ((s.hangStop c).postOnce Config.usCycles (.hangWatchdogExpiry c)) := by
  show execHangWatchdogExpiry c s = _
  unfold execHangWatchdogExpiry
  rw [if_neg (by simpa [Option.isNone_iff_eq_none, Option.isSome_iff_ne_none] using hc)]
  dsimp only
  rw [if_neg (show ¬ (s.ctx c).hung = true by simp [hh])]

/-- The hang's fault is not due. -/
theorem hangExpiry_done (hh : (s.ctx c).hung = true) (hd : (s.ctx c).hangDue = false) : exec (.hangWatchdogExpiry c) s = .next s := by
  rw [hangExpiry_hung hc hh, if_pos hd]

theorem hangExpiry_waits (hh : (s.ctx c).hung = true) (hd : (s.ctx c).hangDue = true) (hr : s.runsBelow c) :
    ∃ t, exec (.hangWatchdogExpiry c) s = .next t ∧ t.ctxs = s.ctxs ∧ t.frontEnds = s.frontEnds ∧
      Claims.Due t (.hangWatchdogExpiry c) := by
  have hp := State.posts_postOnce s Config.usCycles (.hangWatchdogExpiry c)
  refine ⟨_, ?_, hp.ctxs, hp.frontEnds, State.due_postOnce _ _ _⟩
  rw [hangExpiry_hung hc hh, if_neg (by simp [hd]), if_neg (by rw [(s.runsBelow_iff c).mpr hr]; simp)]

theorem hangExpiry_delivers (hh : (s.ctx c).hung = true) (hd : (s.ctx c).hangDue = true) (hr : ¬ s.runsBelow c) :
    ∃ t, exec (.hangWatchdogExpiry c) s = .next t ∧ (t.ctx c).hangDue = false ∧
      Claims.Rang s t c (s.chain c).tail (s.hangEntry c) := by
  obtain ⟨h1, h2, -⟩ := State.endHang (s := s) (u := s) (c := c) (fun _ => rfl) (fun _ => rfl) rfl
  refine ⟨_, ?_, h1, h2⟩
  rw [hangExpiry_hung hc hh, if_neg (by simp [hd]), if_pos]
  rw [← s.runsBelow_iff c, Bool.not_eq_false] at hr
  exact hr

/-- A context that is found to hang is stopped with its descendants. -/
theorem hangExpiry_stops (hh : (s.ctx c).hung = false) : ∃ t, exec (.hangWatchdogExpiry c) s = .next t ∧
    (∀ d ∈ s.descendants c, (t.ctx d).hung = true) ∧
    (∀ p ∈ s.groups.rows, p.2.ctx ∈ s.descendants c → p.2.phase = .resident → (t.group p.1).forced = some 1) ∧
    (s.runsBelow c → (t.ctx c).hangDue = true ∧ Claims.Due t (.hangWatchdogExpiry c)) ∧
    (¬ s.runsBelow c → (t.ctx c).hangDue = false ∧ Claims.Rang s t c (s.chain c).tail (s.hangEntry c)) := by
  obtain ⟨hm, hhung, hdue⟩ := s.markHung_spec c
  obtain ⟨he, hforced⟩ := s.hangStop_spec c
  have hmem := mem_keys_of_get? hc
  have hruns := (he.runsBelow (hm.keys c hmem)).trans (hm.runsBelow hmem)
  have hexec := hangExpiry_new hc hh
  generalize s.hangStop c = u at he hforced hruns hexec
  have hudue : (u.ctx c).hangDue = true := (he.hangDue c).trans hdue
  have huhung : ∀ d ∈ s.descendants c, (u.ctx d).hung = true := fun d hd => (he.hung d).trans (hhung d hd)
  rw [if_neg (by simp [hudue])] at hexec
  by_cases hr : s.runsBelow c
  · have hp := State.posts_postOnce u Config.usCycles (.hangWatchdogExpiry c)
    rw [if_neg (by rw [(u.runsBelow_iff c).mpr (hruns.mpr hr)]; simp)] at hexec
    refine ⟨_, hexec, fun d hd => ?_, fun p hp' hd hph => ?_, fun _ => ⟨?_, State.due_postOnce _ _ _⟩, fun h => absurd hr h⟩
    · rw [hp.ctx]; exact huhung d hd
    · rw [hp.group]; exact hforced p hp' hd hph
    · rw [hp.ctx]; exact hudue
  · have hempty : (u.groupsIn (u.descendants c) GroupPhase.runs).isEmpty = true := by
      rw [← hruns, ← u.runsBelow_iff c, Bool.not_eq_false] at hr
      exact hr
    obtain ⟨h1, h2, h3, h4⟩ := State.endHang (s := s) (u := u) (c := c) (fun d => (he.parent d).trans (hm.parent d))
      (fun d => (he.fltEn d).trans (hm.fltEn d)) ((he.depth c).trans (hm.depth c))
    rw [if_pos hempty] at hexec
    refine ⟨_, hexec, fun d hd => (h4 d).trans (huhung d hd), fun p hp' hd hph => ?_, fun h => absurd h hr, fun _ => ⟨h1, h2⟩⟩
    rw [State.group, h3]
    exact hforced p hp' hd hph

end

end Sys2Proof.Machine
end

section
/-! # The turns of a shared core (R231) -/

namespace Sys2Proof.Machine

/-! ### Moves alone -/

/-- From `s` to `t` only the agenda changed. -/
def Rescheduled (s t : State) : Prop := t = { s with agenda := t.agenda }

namespace Rescheduled

theorem refl (s : State) : Rescheduled s s := rfl
theorem trans {s t u : State} (h : Rescheduled s t) (k : Rescheduled t u) : Rescheduled s u := by
  unfold Rescheduled at *
  rw [k, h]
theorem ofPosts {s t : State} (h : Posts s t) : Rescheduled s t := h.same
theorem unpost (s : State) (e : Event) : Rescheduled s (s.unpost e) := rfl

section
variable {s t : State} (h : Rescheduled s t)
include h

theorem core (c : Nat) : t.core c = s.core c := by rw [show t = { s with agenda := t.agenda } from h]; rfl
theorem groups : t.groups = s.groups := by rw [show t = { s with agenda := t.agenda } from h]
theorem group (g : Nat) : t.group g = s.group g := by rw [State.group, h.groups]; rfl

end

end Rescheduled

/-! ### SLICE_EXPIRY in its steps -/

/-- The use of the core by one context ends if it can, and with it the turn. -/
def State.leaveStep (s : State) (core : Nat) (p : Nat × Bool) : State := (s.tryLeave core p).turnEnd core p

theorem State.posts_pokeUnits (s : State) : Posts s s.pokeQueues.pokeGatherer :=
    (State.posts_pokeQueues _).trans (State.posts_pokeGatherer _)

theorem sliceExpiry_steps (s : State) (core : Nat) : ∃ s1 t, exec (.sliceExpiry core) s = .next t ∧
    s1 = (s.core core).turns.keys.foldl (fun s u => s.turnStep core u) s ∧
    Rescheduled ((s1.core core).leaving.foldl (fun s p => s.leaveStep core p) s1) t := by
  have hpoke : ∀ s2 : State, Rescheduled s2
    (if (((s.core core).turns.keys.foldl (fun s u => s.turnStep core u) s).core core).leaving ≠ [] ∧
      (s2.core core).leaving = [] then s2.pokeQueues.pokeGatherer else s2) := by
    intro s2
    split_ifs
    · exact .ofPosts s2.posts_pokeUnits
    · exact .refl s2
  show ∃ s1 t, execSliceExpiry core s = .next t ∧ _
  unfold execSliceExpiry
  extract_lets s1 ps s2 s3 k s4
  have h4 : Rescheduled s2 s4 := (hpoke s2).trans (.unpost s3 _)
  refine ⟨s1, ?_⟩
  split_ifs
  · exact ⟨_, rfl, rfl, h4.trans (.ofPosts (State.posts_post _ _ _))⟩
  · split
    · exact ⟨_, rfl, rfl, h4⟩
    · exact ⟨_, rfl, rfl, h4.trans (.ofPosts (State.posts_post _ _ _))⟩

/-! ### A context leaves a core -/

theorem State.cores_requestStop (s : State) (g : Nat) : (s.requestStop g).cores = s.cores := by
  obtain h | h := s.requestStop_cases g <;> rw [h]
  have hp := ((State.posts_post ((s.setGroup g { s.group g with stopReq := some s.now }).parkWaiting g) (100 * Config.usCycles)
    (.preemptTimeout g)).trans (State.posts_post _ (200 * Config.usCycles) (.predoneTimeout g))).trans
    (State.posts_postOnce _ 0 (.groupStop g))
  exact hp.cores.trans (by rw [(Parks.parkWaiting _ g).same]; rfl)

theorem State.cores_requestStops (s : State) (l : List Nat) : (l.foldl (fun s g => s.requestStop g) s).cores = s.cores := by
  induction l generalizing s with
  | nil => rfl
  | cons g l ih => exact (ih _).trans (s.cores_requestStop g)

theorem State.core_leaveCore {s : State} {c core : Nat} {below : Bool} (h : (s.core core).leaving = []) :
    (s.leaveCore c core below).core core = { s.core core with leaving := [(c, below)] } := by
  have hnot : ¬ (s.core core).leaving.contains (c, below) = true := by simp [h]
  unfold State.leaveCore
  dsimp only
  rw [(State.posts_post _ _ _).core, State.core, State.cores_requestStops, if_neg hnot, h]
  exact (State.core_setCore _ _ _ _).trans (if_pos rfl)

/-- From `s` to `t` the uses of a core that are ending changed. -/
structure Leaves (s t : State) (core : Nat) (l : List (Nat × Bool)) : Prop where
  same : t = { s with cores := t.cores, agenda := t.agenda }
  core : ∀ c, t.core c = if c = core then { s.core core with leaving := l } else s.core c

namespace Leaves
variable {s t : State} {core : Nat} {l : List (Nat × Bool)} (h : Leaves s t core l)
include h

theorem at_core : t.core core = { s.core core with leaving := l } := (h.core core).trans (if_pos rfl)

theorem turns (c : Nat) : (t.core c).turns = (s.core c).turns := by
  rw [h.core]
  split_ifs with hc
  · rw [hc]
  · rfl

theorem ctxs : t.ctxs = s.ctxs := by rw [h.same]
theorem ctx (c : Nat) : t.ctx c = s.ctx c := by rw [State.ctx, h.ctxs]; rfl
theorem chain (c : Nat) : t.chain c = s.chain c := State.chain_congr (fun c => by rw [h.ctx]) c
theorem groups : t.groups = s.groups := by rw [h.same]
theorem now : t.now = s.now := by rw [h.same]
theorem granted (c core : Nat) : t.granted c core = s.granted c core := by rw [State.granted, h.ctx]; rfl
theorem levelTurn (c core : Nat) : t.levelTurn c core = s.levelTurn c core := by simp only [State.levelTurn, h.ctx, h.turns]
theorem descendants (c : Nat) : t.descendants c = s.descendants c := by simp only [State.descendants, h.ctxs, h.chain]
theorem stillOn (c core : Nat) (below : Bool) : t.stillOn c core below = s.stillOn c core below := by
  simp only [State.stillOn, State.resident, State.group, h.groups, h.chain]
theorem spineOwner (c core : Nat) (below : Bool) : t.spineOwner c core below = s.spineOwner c core below := by
  simp only [State.spineOwner, h.granted, h.chain, h.levelTurn, h.ctx, h.descendants]
theorem sharers (u core : Nat) : t.sharers u core = s.sharers u core := by
  simp only [State.sharers, State.children, h.ctxs, h.ctx]

/-- The uses that are ending change once more. -/
theorem setLeaving (m : List (Nat × Bool)) : Leaves s (t.setCore core { t.core core with leaving := m }) core m := by
  refine ⟨?_, fun c => ?_⟩
  · conv_lhs => rw [h.same]
    rfl
  · rw [State.core_setCore, h.at_core, h.core]
    split_ifs <;> rfl

end Leaves

theorem Leaves.refl {s : State} {core : Nat} {l : List (Nat × Bool)} (h : (s.core core).leaving = l) : Leaves s s core l := by
  refine ⟨rfl, fun c => ?_⟩
  split_ifs with hc
  · rw [hc, ← h]
  · rfl

section
variable {core u h : Nat} {s : State} (hturns : (s.core core).turns.rows = [(u, h)])
include hturns

theorem turns_get : (s.core core).turns.get? u = some h := by
  rw [Tab.get?, hturns]
  exact if_pos rfl

/-- The one turn of the core is looked at. -/
theorem turnSteps : (s.core core).turns.keys.foldl (fun s u => s.turnStep core u) s =
    if s.now < (s.core core).turnEnds.getD u 0 then s
    else if (s.core core).leaving.contains (h, true) then s
    else s.leaveCore h core true := by
  rw [Tab.keys, hturns]
  show s.turnStep core u = _
  unfold State.turnStep
  dsimp only
  rw [turns_get hturns]

theorem sliceExpiry_lasts (hl : (s.core core).leaving = []) (ht : s.now < (s.core core).turnEnds.getD u 0) :
    ∃ t, exec (.sliceExpiry core) s = .next t ∧ (t.core core).turns = (s.core core).turns ∧ (t.core core).leaving = [] ∧
      t.groups = s.groups := by
  obtain ⟨s1, t, he, hs, hr⟩ := sliceExpiry_steps s core
  rw [turnSteps hturns, if_pos ht] at hs
  subst hs
  rw [hl] at hr
  exact ⟨t, he, by rw [hr.core]; rfl, by rw [hr.core]; exact hl, hr.groups⟩

variable (hdue : (s.core core).turnEnds.getD u 0 ≤ s.now)
include hdue

/-- The holder's groups are asked to stop. -/
theorem sliceExpiry_asks (hl : (s.core core).leaving = []) (hstill : s.stillOn h core true ≠ []) :
    ∃ t, exec (.sliceExpiry core) s = .next t ∧ (t.core core).turns = (s.core core).turns ∧ (t.core core).leaving = [(h, true)] ∧
      ∀ g ∈ s.stillOn h core true, (s.group g).phase = .resident → (t.group g).stopReq ≠ none := by
  obtain ⟨s1, t, he, hs, hr⟩ := sliceExpiry_steps s core
  rw [turnSteps hturns, if_neg (Nat.not_lt.mpr hdue), if_neg (by simp [hl])] at hs
  have hasks := Asks.leaveCore s h core true
  have hcore := State.core_leaveCore (c := h) (below := true) hl
  have hreq := fun g hg hp => State.leaveCore_asked (s := s) (c := h) (core := core) (below := true) (g := g) hg hp
  rw [← hs] at hasks hcore hreq
  have hstep : s1.leaveStep core (h, true) = s1 := by
    have htry : s1.tryLeave core (h, true) = s1 := by
      refine if_pos ?_
      obtain ⟨g, hg⟩ := List.exists_mem_of_ne_nil _ hstill
      rw [Bool.not_eq_true', List.isEmpty_eq_false_iff_exists_mem]
      refine ⟨g, ?_⟩
      rw [State.stillOn, List.mem_filter] at hg ⊢
      obtain ⟨h1, h2⟩ := hg
      refine ⟨hasks.resident core g h1, ?_⟩
      rw [hasks.ctx, State.chain_congr (s := s) (t := s1) fun c => by rw [hasks.same]; rfl]
      exact h2
    rw [State.leaveStep, htry]
    unfold State.turnEnd
    split
    · rfl
    · refine if_neg ?_
      rw [hcore]
      simp
  rw [hcore] at hr
  rw [List.foldl_cons, List.foldl_nil, hstep] at hr
  refine ⟨t, he, by rw [hr.core, hcore], by rw [hr.core, hcore], fun g hg hp => ?_⟩
  rw [hr.group]
  exact hreq g hg hp

/-- When nothing of the holder stands on the core, it is marked as left. -/
theorem turnSteps_leaves (hl : (s.core core).leaving = [] ∨ (s.core core).leaving = [(h, true)]) (hstill : s.stillOn h core true = []) :
    Leaves s ((s.core core).turns.keys.foldl (fun s u => s.turnStep core u) s) core [(h, true)] := by
  rw [turnSteps hturns, if_neg (Nat.not_lt.mpr hdue)]
  obtain hl | hl := hl
  · rw [if_neg (by simp [hl])]
    have hset : Leaves s (s.setCore core { s.core core with leaving := [(h, true)] }) core [(h, true)] :=
      (Leaves.refl hl).setLeaving _
    have hp : Posts (s.setCore core { s.core core with leaving := [(h, true)] }) (s.leaveCore h core true) := by
      unfold State.leaveCore
      dsimp only
      rw [if_neg (by simp [hl]), hl, List.nil_append, hset.stillOn, hstill]
      exact State.posts_post _ _ _
    refine ⟨?_, fun c => (hp.core c).trans (hset.core c)⟩
    rw [hp.same]
    rfl
  · rw [if_pos (by simp [hl])]
    exact .refl hl

variable (hstill : s.stillOn h core true = []) (howner : s.spineOwner h core true = none)
include hstill howner

/-- The turn passes to the next sharer, the holder itself where it is alone. -/
theorem sliceExpiry_passes {next : Nat} (hl : (s.core core).leaving = [] ∨ (s.core core).leaving = [(h, true)])
    (hparent : (s.ctx h).parent = some u) (hnext : nextAfter h (s.sharers u core) = some next) :
    ∃ t, exec (.sliceExpiry core) s = .next t ∧ (t.core core).turns.get? u = some next ∧ (t.core core).leaving = [] ∧
      (t.core core).turnEnds.getD u 0 = s.now + 2000 * (s.ctx next).slice := by
  obtain ⟨s1, t, he, hs, hr⟩ := sliceExpiry_steps s core
  have hleave := turnSteps_leaves hturns hdue hl hstill
  rw [← hs] at hleave
  have htry : s1.tryLeave core (h, true) = s1.setCore core { s1.core core with leaving := [] } := by
    unfold State.tryLeave
    dsimp only
    rw [hleave.stillOn, hstill, hleave.spineOwner, howner]
    simp only [List.isEmpty_nil, Bool.not_true, Bool.false_eq_true, if_false]
    rw [hleave.at_core]
    simp
  have hleft := hleave.setLeaving []
  have hend : s1.leaveStep core (h, true) = (s1.setCore core { s1.core core with leaving := [] }).beginTurn u core next := by
    rw [State.leaveStep, htry]
    generalize s1.setCore core { s1.core core with leaving := [] } = s2 at hleft ⊢
    unfold State.turnEnd
    dsimp only
    rw [hleft.ctx, hparent, hleft.at_core]
    dsimp only
    rw [turns_get hturns, if_pos (by simp [hleft.now, hdue]), State.passTurn, hleft.sharers, hnext]
  rw [hleave.at_core] at hr
  rw [List.foldl_cons, List.foldl_nil, hend] at hr
  generalize s1.setCore core { s1.core core with leaving := [] } = s2 at hleft hr
  have hbegin : (s2.beginTurn u core next).core core = { s2.core core with
      turns := (s2.core core).turns.set u next
      turnEnds := (s2.core core).turnEnds.set u (s2.now + (s2.ctx next).slice * Config.usCycles) } := by
    unfold State.beginTurn
    dsimp only
    rw [((State.posts_pokePairs _).trans ((State.posts_pokeQueues _).trans (State.posts_pokeGatherer _))).core, State.core_setCore,
      if_pos rfl]
  refine ⟨t, he, ?_, ?_, ?_⟩ <;> rw [hr.core, hbegin]
  · have hrows : (s2.core core).turns.rows = [(u, h)] := by rw [hleft.turns]; exact hturns
    rw [Tab.get?, Tab.set, hrows]
    simp [rowsSet, rowsGet]
  · rw [hleft.at_core]
  · rw [Tab.getD_set_same, hleft.now, hleft.ctx, Nat.mul_comm]
    rfl

end

end Sys2Proof.Machine
end

section
/-! # A waiting entry goes into its ring (R239) -/

namespace Sys2Proof.Machine

/-! ### Writes that do not depend on the memory-side cache -/

namespace SameTables

theorem symm {s t : State} (h : SameTables s t) : SameTables t s :=
  ⟨h.hbm.symm, h.host.symm, h.now.symm, h.config.symm, fun c => (h.parent c).symm, fun c => (h.depth c).symm, fun c => (h.root c).symm,
    fun c => (h.lease c).symm, fun c => (h.windows c).symm⟩

theorem trans {s t u : State} (h : SameTables s t) (k : SameTables t u) : SameTables s u :=
  ⟨k.hbm.trans h.hbm, k.host.trans h.host, k.now.trans h.now, k.config.trans h.config, fun c => (k.parent c).trans (h.parent c),
    fun c => (k.depth c).trans (h.depth c), fun c => (k.root c).trans (h.root c), fun c => (k.lease c).trans (h.lease c),
    fun c => (k.windows c).trans (h.windows c)⟩

/-- Requests at the memory-side cache before two states are seen alike. -/
theorem touched {s t u v : State} (h : SameTables s t) (hs : Touches s u) (ht : Touches t v) : SameTables u v :=
  (hs.tables.symm.trans h).trans ht.tables

theorem setHbm {s t : State} (h : SameTables s t) (m : Memory) : SameTables { s with hbm := m } { t with hbm := m } :=
  ⟨rfl, h.host, h.now, h.config, h.parent, h.depth, h.root, h.lease, h.windows⟩

theorem setHost {s t : State} (h : SameTables s t) (m : Memory) : SameTables { s with host := m } { t with host := m } :=
  ⟨h.hbm, rfl, h.now, h.config, h.parent, h.depth, h.root, h.lease, h.windows⟩

theorem cure (s : State) (unit core a n : Nat) : SameTables s (s.cure unit core a n) := by
  unfold State.cure
  split_ifs <;> exact ⟨rfl, rfl, rfl, rfl, fun _ => rfl, fun _ => rfl, fun _ => rfl, fun _ => rfl, fun _ => rfl⟩

theorem cureHome (s : State) (pa n : Nat) : SameTables s (s.cureHome pa n) := (cure s 7 0 pa n).trans (cure _ 8 0 pa n)

theorem homeWrite {s t : State} (h : SameTables s t) (c pa : Nat) (x : List Byte) :
    SameTables (s.homeWrite c pa x) (t.homeWrite c pa x) := by
  have htouch := h.touched (.homeTouch s c pa x.length true) (.homeTouch t c pa x.length true)
  unfold State.homeWrite
  dsimp only
  generalize s.homeTouch c pa x.length true = u at htouch ⊢
  generalize t.homeTouch c pa x.length true = v at htouch ⊢
  rw [htouch.hbm]
  exact ((cureHome _ _ _).symm.trans (htouch.setHbm _)).trans (cureHome _ _ _)

end SameTables

/-- Two results of a write: the same fault, or states that are seen alike. -/
def SameWrite (x y : Except MemFault State) : Prop :=
  match x with
  | .error f => y = .error f
  | .ok s => ∃ t, y = .ok t ∧ SameTables s t

theorem SameTables.globWriteRun {s t : State} (h : SameTables s t) (c va : Nat) (x : List Byte) :
    SameWrite (s.globWriteRun c va x) (t.globWriteRun c va x) := by
  have htouch := h.touched (.walkTouch s c va) (.walkTouch t c va)
  unfold State.globWriteRun
  rw [h.freshWalk]
  cases Machine.freshWalk s c va { write := true } with
  | error f => rfl
  | ok w =>
    dsimp only
    split_ifs
    · refine ⟨_, rfl, ?_⟩
      rw [htouch.host]
      exact htouch.setHost _
    · exact ⟨_, rfl, htouch.homeWrite c w.pa x⟩

theorem SameTables.globWrites {s t : State} (h : SameTables s t) (c : Nat) (l : List (Nat × List Byte)) :
    SameWrite (s.globWrites c l) (t.globWrites c l) := by
  induction l generalizing s t with
  | nil => exact ⟨t, rfl, h⟩
  | cons p l ih =>
    have hrun := h.globWriteRun c p.1 p.2
    unfold State.globWrites
    cases hs : s.globWriteRun c p.1 p.2 with
    | error f =>
      rw [hs] at hrun
      rw [show t.globWriteRun c p.1 p.2 = .error f from hrun]
      rfl
    | ok s' =>
      rw [hs] at hrun
      obtain ⟨t', ht, h'⟩ := hrun
      rw [ht]
      exact ih h'

/-- Two results of a ring's write that agree. -/
def SameRing (x y : RingWrite) : Prop :=
  match x with
  | .done s => ∃ t, y = .done t ∧ SameTables s t
  | .full => y = .full
  | .failed f => y = .failed f

theorem SameTables.ringWrite {s t : State} (h : SameTables s t) (c base cap : Nat) (x : List Byte) :
    SameRing (s.ringWrite c base cap x) (t.ringWrite c base cap x) := by
  unfold State.ringWrite
  rw [h.globReadRun]
  cases s.globReadRun c base 16 with
  | error f => rfl
  | ok b =>
    dsimp only
    split_ifs
    · rfl
    · generalize hl : [(_, x), (base, _)] = l
      have hw := h.globWrites c l
      cases hs : s.globWrites c l with
      | error f =>
        rw [hs] at hw
        rw [show t.globWrites c l = .error f from hw]
        rfl
      | ok s' =>
        rw [hs] at hw
        obtain ⟨t', ht, h'⟩ := hw
        rw [ht]
        exact ⟨t', rfl, h'⟩

/-! ### FAULT_RING_WRITE -/

/-- The next entry of a ring is due, if one waits. -/
def State.ringNext (s : State) (c : Nat) (rest : List RingEntry) : State := if rest.isEmpty then s else s.postOnce 1 (.faultRingWrite c)

theorem State.posts_ringNext (s : State) (c : Nat) (rest : List RingEntry) : Posts s (s.ringNext c rest) := by
  unfold State.ringNext
  split_ifs
  · exact .refl s
  · exact s.posts_postOnce _ _

/-- The entry of a ring that cannot be written goes up. -/
def State.ringUp (s : State) (c : Nat) (f : MemFault) (e : RingEntry) (rest : List RingEntry) : State :=
  let s := (s.setCtx c { s.ctx c with ringQ := rest }).deviceFault c f true
  (s.toRing (s.ringOf (s.chain c).tail) (s.partition c) e).moveTicket e.ticket (s.ringOf (s.chain c).tail) (s.partition c)

theorem State.moveTicket_same (s : State) (n : Nat) (ring : Option Nat) (part : Nat) :
    s.moveTicket n ring part = { s with tickets := (s.moveTicket n ring part).tickets } := by
  unfold State.moveTicket
  split <;> rfl

theorem State.deviceFault_got (s : State) (c : Nat) (f : MemFault) (write : Bool) :
    ∃ ring part e, RingGot s (s.deviceFault c f write) ring part e := ⟨_, _, _, s.toRing_got _ _ _⟩

theorem State.ringUp_rang {s u : State} {c : Nat} {f : MemFault} {e : RingEntry} {rest : List RingEntry}
    (hparent : ∀ d, (u.ctx d).parent = (s.ctx d).parent) (hflt : ∀ d, (u.ctx d).fltEn = (s.ctx d).fltEn) :
    Claims.Rang s (u.ringUp c f e rest) c (s.chain c).tail e := by
  have hset : ∀ d, ((u.setCtx c { u.ctx c with ringQ := rest }).ctx d).parent = (s.ctx d).parent ∧
      ((u.setCtx c { u.ctx c with ringQ := rest }).ctx d).fltEn = (s.ctx d).fltEn := by
    intro d
    rw [State.ctx_setCtx]
    split_ifs with hd
    · rw [hd]; exact ⟨hparent c, hflt c⟩
    · exact ⟨hparent d, hflt d⟩
  unfold State.ringUp
  generalize u.setCtx c { u.ctx c with ringQ := rest } = v at hset ⊢
  have hfault : ∀ d, ((v.deviceFault c f true).ctx d).parent = (s.ctx d).parent ∧
    ((v.deviceFault c f true).ctx d).fltEn = (s.ctx d).fltEn := by
    intro d
    obtain ⟨ring, part, x, hx⟩ := v.deviceFault_got c f true
    obtain ⟨q, p, hd⟩ := hx.ctx d
    rw [hd]
    exact hset d
  dsimp only
  generalize v.deviceFault c f true = w at hfault ⊢
  have hgot := w.toRing_got (w.ringOf (w.chain c).tail) (w.partition c) e
  have hrang : Claims.Rang w (w.toRing (w.ringOf (w.chain c).tail) (w.partition c) e) c (w.chain c).tail e := hgot.rang rfl
  generalize w.toRing (w.ringOf (w.chain c).tail) (w.partition c) e = x at hrang ⊢
  have hmove := x.moveTicket_same e.ticket (w.ringOf (w.chain c).tail) (w.partition c)
  generalize x.moveTicket e.ticket (w.ringOf (w.chain c).tail) (w.partition c) = y at hmove ⊢
  rw [State.chain_congr fun d => (hfault d).1] at hrang
  refine rang_later (rang_before hrang (fun d => (hfault d).1) fun d => (hfault d).2) (fun d z hz => ?_) fun i => ?_
  · rw [hmove]; exact hz
  · rw [hmove]; rfl

section
variable {c : Nat} {e : RingEntry} {rest : List RingEntry} {s : State} (hq : (s.ctx c).ringQ = e :: rest)
include hq

theorem faultRingWrite_eq : exec (.faultRingWrite c) s =
    let u := s.globTouch c (s.ctx c).fltBase 16
    match u.ringWrite c (s.ctx c).fltBase (16 * 2 ^ (s.ctx c).fltSize) e.bytes with
    | .full => .next (u.postOnce Config.usCycles (.faultRingWrite c))
    | .done v => .next (((v.setCtx c { v.ctx c with ringQ := rest }).charge e.ctx 0x10 1).ringNext c rest)
    | .failed f => .next ((u.ringUp c f e rest).ringNext c rest) := by
  show execFaultRingWrite c s = _
  unfold execFaultRingWrite
  dsimp only
  rw [hq]
  rfl

theorem faultRingWrite_done {v : State}
    (h : s.ringWrite c (s.ctx c).fltBase (16 * 2 ^ (s.ctx c).fltSize) e.bytes = .done v) :
    ∃ t, exec (.faultRingWrite c) s = .next t ∧ (t.ctx c).ringQ = rest ∧ t.hbm = v.hbm ∧ t.host = v.host := by
  have htouch := Touches.globTouch s c (s.ctx c).fltBase 16
  have hexec := faultRingWrite_eq hq
  generalize s.globTouch c (s.ctx c).fltBase 16 = u at htouch hexec
  have hring := htouch.tables.ringWrite c (s.ctx c).fltBase (16 * 2 ^ (s.ctx c).fltSize) e.bytes
  rw [h] at hring
  obtain ⟨w, hw, hsame⟩ := hring
  simp only [hw] at hexec
  have hcharge := Touches.charge (w.setCtx c { w.ctx c with ringQ := rest }) e.ctx 0x10 1
  have hpost := ((w.setCtx c { w.ctx c with ringQ := rest }).charge e.ctx 0x10 1).posts_ringNext c rest
  refine ⟨_, hexec, ?_, ?_, ?_⟩
  · obtain ⟨p, hp⟩ := hcharge.ctx c
    rw [hpost.ctx, hp, State.ctx_setCtx, if_pos rfl]
  · rw [hpost.hbm, hcharge.tables.hbm]; exact hsame.hbm
  · rw [hpost.host, hcharge.tables.host]; exact hsame.host

theorem faultRingWrite_full (h : s.ringWrite c (s.ctx c).fltBase (16 * 2 ^ (s.ctx c).fltSize) e.bytes = .full) :
    ∃ t, exec (.faultRingWrite c) s = .next t ∧ (t.ctx c).ringQ = (s.ctx c).ringQ ∧ t.hbm = s.hbm ∧ t.host = s.host ∧
      Claims.Due t (.faultRingWrite c) := by
  have htouch := Touches.globTouch s c (s.ctx c).fltBase 16
  have hexec := faultRingWrite_eq hq
  generalize s.globTouch c (s.ctx c).fltBase 16 = u at htouch hexec
  have hring := htouch.tables.ringWrite c (s.ctx c).fltBase (16 * 2 ^ (s.ctx c).fltSize) e.bytes
  rw [h] at hring
  simp only [show u.ringWrite c (s.ctx c).fltBase (16 * 2 ^ (s.ctx c).fltSize) e.bytes = .full from hring] at hexec
  have hpost := u.posts_postOnce Config.usCycles (.faultRingWrite c)
  refine ⟨_, hexec, ?_, ?_, ?_, State.due_postOnce _ _ _⟩
  · obtain ⟨p, hp⟩ := htouch.ctx c
    rw [hpost.ctx, hp]
  · rw [hpost.hbm, htouch.tables.hbm]
  · rw [hpost.host, htouch.tables.host]

theorem faultRingWrite_failed {f : MemFault} (h : s.ringWrite c (s.ctx c).fltBase (16 * 2 ^ (s.ctx c).fltSize) e.bytes = .failed f) :
    ∃ t, exec (.faultRingWrite c) s = .next t ∧ Claims.Rang s t c (s.chain c).tail e := by
  have htouch := Touches.globTouch s c (s.ctx c).fltBase 16
  have hexec := faultRingWrite_eq hq
  generalize s.globTouch c (s.ctx c).fltBase 16 = u at htouch hexec
  have hring := htouch.tables.ringWrite c (s.ctx c).fltBase (16 * 2 ^ (s.ctx c).fltSize) e.bytes
  rw [h] at hring
  simp only [show u.ringWrite c (s.ctx c).fltBase (16 * 2 ^ (s.ctx c).fltSize) e.bytes = .failed f from hring] at hexec
  have hposts := (u.ringUp c f e rest).posts_ringNext c rest
  refine ⟨_, hexec, rang_later (u.ringUp_rang (s := s) (fun d => ?_) fun d => ?_) (fun d x hx => by rw [hposts.ctx]; exact hx)
    fun i => congrArg FrontEnd.event (hposts.frontEnd i)⟩
  all_goals
    obtain ⟨p, hp⟩ := htouch.ctx d
    rw [hp]

end

end Sys2Proof.Machine
end

section
/-! # Groups stop and resume -/

namespace Sys2Proof.Machine

/-- The clauses of PREEMPT_TIMEOUT with a handler, wave by wave. -/
theorem preemptTimeout_waves {g t0 : Nat} {s : State} (ht0 : (s.group g).stopReq = some t0) (hp : (s.group g).phase = .resident)
    (hf : (s.group g).forced = none) (h : t0 + 200000 ≤ s.now) (hh : (s.group g).ep.handler = true)
    (hrun : ∃ k ∈ s.wavesOf g, (s.wave k).phase = .run) :
    ∃ t, exec (.preemptTimeout g) s = .next t ∧ ∀ k ∈ s.wavesOf g, (s.wave k).group = g →
      let w := s.wave k
      let waits := ∃ n j, w.phase = .bar n j none ∧ ((s.group g).set n).k = j ∧ (s.parkWaiting g).wave k = w
      ((w.phase = .run ∨ waits) → w.handler = false → w.remoteHold = false → s.toHandler k { cause := 0x0C } = true →
        (t.wave k).preempted = true ∧ (t.wave k).phase = .run ∧ EnteredHandler s t k w.ipc { cause := 0x0C } ∧
        ∀ n j, w.phase = .bar n j none → ((t.group g).set n).arrived.getLsbD w.wid = false) ∧
      (w.phase = .run → (w.handler = true ∨ w.remoteHold = true) → (t.wave k).preemptDue = true ∧
        (t.wave k).duct = w.duct ∧ (t.wave k).file = w.file) := by
  obtain ⟨t, he, hwaves⟩ := preemptTimeout_preempts ht0 hp hf h hh hrun
  have hparks := Parks.parkWaiting s g
  refine ⟨t, he, fun k hk hg => ⟨fun hpw hhan hrem hto => ?_, fun hkrun hhold => ?_⟩⟩
  · have hleft : (s.parkWaiting g).wave k = s.wave k ∧ (s.wave k).phase.still = false := by
      obtain hkrun | ⟨n, j, hn, -, hkept⟩ := hpw
      · exact ⟨hparks.run hkrun, by rw [hkrun]; rfl⟩
      · exact ⟨hkept, by rw [hn]; rfl⟩
    obtain ⟨u, v, hu, rfl, hv⟩ := hwaves k hk hleft.1 hleft.2
    obtain ⟨⟨h1, h2, h3⟩, h4⟩ := hu.enters hv hg (hpw.imp id fun ⟨n, j, hn, hj, _⟩ => ⟨n, j, hn, hj⟩) hhan hrem hto
    exact ⟨h1, h2, h3, h4⟩
  · obtain ⟨u, v, hu, rfl, hv⟩ := hwaves k hk (hparks.run hkrun) (by rw [hkrun]; rfl)
    exact hu.defers hv hkrun hhold

/-- Settles O52, each move by what its parts leave of the groups, the contexts, the cores and the rings: a stop by the outline of
the group's row that the draining keeps, a time limit by what the other waves' PREEMPT leaves of a wave, a hang by the rows that
its steps keep, a turn by the core's one turn, and a ring's write by its independence of the memory-side cache. -/
theorem groupsStopAndResume : Obligations.GroupsStopAndResume := by
  unfold Obligations.GroupsStopAndResume
  refine ⟨fun g s => ⟨groupStop_idle, fun hp hs hf => ⟨groupStop_waits hp hs hf, fun hstill hq => ?_⟩, fun hp kind hf hq => ?_,
      fun kind hp => ⟨fun h => ⟨?_, ?_⟩, fun hs hf hc => ?_, groupRestore_resumes hp⟩, fun t0 ht0 hp hf =>
        ⟨preemptTimeout_early ht0, preemptTimeout_forces ht0 hp hf, preemptTimeout_waves ht0 hp hf, predoneTimeout_early ht0,
          predoneTimeout_due ht0 hp hf⟩⟩,
    fun c s hc _ => ⟨hangExpiry_stops hc,
      fun hh hd => ⟨hangExpiry_waits hc hh hd, hangExpiry_delivers hc hh hd⟩, hangExpiry_done hc⟩,
    fun core u h s hturns => ⟨sliceExpiry_lasts hturns, fun hl hdue => sliceExpiry_asks hturns hdue hl,
      fun next hl hdue hstill howner hparent hnext => sliceExpiry_passes hturns hdue hstill howner hl hparent hnext⟩,
    fun c e rest s hq => ?_⟩
  · obtain ⟨t, he, h1, h2, h3, h4, h5⟩ := groupStop_stops hp hs hf hstill hq
    exact ⟨t, he, h1, h2, h3, h4, h5⟩
  · obtain ⟨t, he, h1, h2, h3, h4, h5⟩ := groupStop_stops_forced hp hf hq
    exact ⟨t, he, h1, h2, h3, h4, h5⟩
  · exact ⟨_, groupStop_restoring hp h, s.abandonRestore_spec g kind⟩
  · exact ⟨_, groupRestore_gives_up hp h, s.abandonRestore_spec g kind⟩
  · exact ⟨_, groupRestore_waits hp hs hf hc, (State.posts_postOnce _ _ _).groups, State.due_postOnce _ _ _⟩
  · split
    · next v h => exact faultRingWrite_done hq h
    · next h => exact faultRingWrite_full hq h
    · next f h => exact faultRingWrite_failed hq h

end Sys2Proof.Machine
end
